-- ==== Sys2Proof/Word.lean ====
section
/-! DEFINITION. The plain number types of the model: values as the dictionary carries them (R411), tread
numbers (R5), signal IDs (R6) and the sparse maps in which the module's numbered resources are held. -/

namespace Sys2Proof

/-- An unsigned value as the dictionary carries it, read little-endian from its bytes (R4, R411). -/
abbrev Raw := Nat

/-- A tread number, counted from the timebase epoch (R5). -/
abbrev Tread := Nat

/-- A 12-bit signal ID (R6). -/
abbrev Sig := Nat

/-- Nanoseconds inside a tread, 0 to 9 999, counted from its boundary (R5). -/
abbrev Offset := Nat

/-- A sparse table: the resource's number and its entry, numbers strictly rising. -/
abbrev SMap (α : Type) := List (Nat × α)

end Sys2Proof
end

