-- ==== Sys2Proof/Syntax.lean ====
section
/-! DEFINITION. The commands of the block: one constructor of `Instr` per row of the table of operations and events,
with what a partner sends or the environment shows as its operands. The table gives no row any fields; the operands
are those the row's rule needs (log entry 5). -/

namespace Sys2Proof

/-- One entry of a transaction (R329): index, subindex and, for a write, the value's length and the value. -/
structure Entry where
  idx : Nat
  sub : Nat
  len : Nat := 0
  val : Raw := 0
deriving DecidableEq, Repr

/-- The heading of a partner's transaction (table of transaction fields in Commit and Coherent State). `off` is the
moment in the tread at which its validation completes (R31, R32). -/
structure Hdr where
  assoc : Nat
  seq : Nat
  tag : Nat := 0
  off : Offset := 0
  named : Option Tread := none
  early : Bool := false
  journalled : Bool := false
deriving DecidableEq, Repr

/-- Where a frame came from: port of arrival, MAC address, and for UDP the IPv4 address and port, and
whether it is a datagram that R314 lets in: no fragment, no IP options, its checksum right or 0 (R314, R326); `proto` its
EtherType or, for UDP, its destination port, none for the one that the module listens to. -/
structure Src where
  port : Nat
  mac : Nat := 0
  udp : Bool := false
  ip : Nat := 0
  udpPort : Nat := 0
  sound : Bool := true
  proto : Option Nat := none
deriving DecidableEq, Repr

/-- The header of a HELLO, NEGOTIATE or ASSOCIATE frame (R315, R316), whose kind and association ID the command gives. -/
structure FrameHead where
  major : Nat := 1
  minor : Nat := 0
  seq : Nat := 0
  tag : Nat := 0
  flags : Nat := 0
deriving DecidableEq, Repr

/-- A Spasia frame as received (R315, R316): header fields, body bytes and trailer bytes; `kind` its kind where that is none
that R317 lets a partner send. -/
structure Frame where
  src : Src
  major : Nat
  minor : Nat
  assoc : Nat
  seq : Nat := 0
  tag : Nat := 0
  flags : Nat := 0
  body : List Nat := []
  trailer : List Nat := []
  off : Offset := 0
  kind : Option Nat := none
deriving DecidableEq, Repr

/-- A NEGOTIATE request body (R323). -/
structure NegReq where
  versions : Nat
  features : Nat := 0
  profile : Nat := 3
  formats : Nat := 3
  cls : Nat := 0
  auth : Nat := 0
  node : Nat := 0
  nonce : Nat := 0
deriving DecidableEq, Repr

/-- An ASSOCIATE request body (R325). -/
structure AssocReq where
  reserved : Nat
  role : Nat
  lossAction : Nat := 0
  resv3 : Nat := 0
  heartbeat : Nat := 1
  resv6 : Nat := 0
  proof : Nat := 0
deriving DecidableEq, Repr

/-- What the environment shows the module in one tread: slot 0 codes by converter (R163), raw digital levels that
changed (R189), whether each side's main-link frame had a correct CRC (R193), which bank strobes toggled, readback
levels of the outputs (R196), and what the comparators of the engine pairs found (R137, R141, R158, R120). -/
structure TreadIn where
  slot0 : List (Nat × Int) := []
  raw : List (Nat × Nat) := []
  mainIn : Bool := true
  mainOut : Bool := true
  strobes : Nat := 63
  readback : Option Nat := none
  missA : Bool := false
  missB : Bool := false
  overrunA : Bool := false
  overrunB : Bool := false
  cross : Bool := false
  poolPath : List (Nat × Nat) := []
  poolStored : List Nat := []
deriving DecidableEq, Repr

/-- What the module measures once per flight (R173, R197, R388): F32 values. -/
structure FlightIn where
  power : Raw := 0
  vlog : Raw := 0
  vhu : Raw := 0
  baseplate : Raw := 0
  supplies : List Raw := []
  cjX2 : Raw := 0
  cjX3 : Raw := 0
  tileTemps : List Raw := []
deriving DecidableEq, Repr

/-- What the filter of a digital input sees (R188): the new raw level and the consecutive samples for which it has held. -/
structure DiIn where
  level : Nat
  samples : Nat
deriving DecidableEq, Repr

/-- A duty output's instant (R192): the output and, while the logic side is in reset, the treads since the last boundary. -/
structure DutyIn where
  o : Nat
  treads : Nat := 0
deriving DecidableEq, Repr

/-- The straps sampled at power-on (R291). -/
structure Straps where
  bootsel : Nat
  clkmode : Nat
deriving DecidableEq, Repr

/-- Whether the stored active and pending safety configurations pass their CRCs (R212). -/
structure SafetyStored where
  activeOk : Bool := true
  pendingOk : Bool := true
deriving DecidableEq, Repr

/-- What a safety channel shows in one test-pulse slot of 500 us (R214 to R216): whether its input reads high as the
slot ends, and what it shows in the slot's check window from 250 us to 400 us: 0 high, 1 low in part of it, 2 low
throughout. -/
structure SlotIn where
  high : Bool := false
  low : Nat := 0
deriving DecidableEq, Repr

/-- What a safety channel shows in one safety cycle: its two slots in order. -/
structure ChanIn where
  first : SlotIn := {}
  second : SlotIn := {}
deriving DecidableEq, Repr

/-- One safety cycle: the 32 channels by number, whether SL-A and SL-B disagree (R210), readback levels of the 16
output channels (R225), and whether a keep-alive has arrived within the last 400 us (R343). -/
structure SafetyIn where
  chans : List (Nat × ChanIn) := []
  disagree : Bool := false
  readback : List (Nat × Bool) := []
  keepAlive : Bool := true
deriving DecidableEq, Repr

/-- What the bring-up finds (R159, R292 to R294): the tread at which step 7 ends, option copies that pass, the count of
restarts, the holdover treads that remain, the bring-up's length, and by slice the mirror copies of the repetitive pool that
fail their CRC. -/
structure BringUp where
  now : Tread
  optionA : Bool := true
  optionB : Bool := true
  restarts : Nat := 0
  remaining : Nat := 0
  micros : Nat := 0
  mirrorABad : Nat := 0
  mirrorBBad : Nat := 0
deriving DecidableEq, Repr

/-- A PTP Sync that has been completed by its Follow_Up where it is two-step: arrival port, t1, t2, correction and, in E2E mode,
the mean path delay as R352 takes them; the clock identity of its sender, its domain, whether it came over UDP, and its
logSyncInterval (R348). -/
structure SyncIn where
  port : Nat
  t1 : Nat
  t2 : Nat
  correction : Int := 0
  pathDelay : Nat := 0
  master : Nat
  domain : Nat := 0
  udp : Bool := false
  interval : Int := 0
deriving DecidableEq, Repr

/-- An Announce message's data set (R351): port, comparison fields of the default best master clock algorithm with the
grandmasterIdentity as `identity`; the clock identity of its sender where that is another, its domain, and whether it came over
UDP (R348). -/
structure AnnounceIn where
  port : Nat
  priority1 : Nat := 128
  clockClass : Nat := 6
  accuracy : Nat := 0x20
  variance : Nat := 0
  priority2 : Nat := 128
  identity : Nat
  portNumber : Nat := 1
  steps : Nat := 0
  interval : Int := 1
  utcOffset : Int := 37
  clock : Option Nat := none
  domain : Nat := 0
  udp : Bool := false
deriving DecidableEq, Repr

/-- A CAN frame (R361, R371): identifier in the layout of the identifier object, data bytes, and how many treads before its
end a received frame began. -/
structure CanFrame where
  id : Nat
  ext : Bool := false
  fd : Bool := false
  brs : Bool := false
  remote : Bool := false
  data : List Nat := []
  began : Nat := 0
deriving DecidableEq, Repr

/-- A frame at the switch (R312): port of arrival, addresses, length, FCS verdict, 802.1Q priority, EtherType class
0 other, 1 Spasia high (IMAGE, HEARTBEAT, NOTIFY), 2 Spasia low, 3 PTP event, 4 PTP general, 5 ARP, 6 ring test,
7 PTP peer delay; PTP of the transport set in 0x1300:0A. `residence` is the residence time of an event message on its way to
an egress port that `residences` does not list, `request` tells a Delay_Req from a Sync (R350). MAC addresses are numbers
whose first byte on the wire is the least significant. -/
structure SwFrame where
  port : Nat
  dst : Nat
  src : Nat
  len : Nat
  fcsOk : Bool := true
  pcp : Nat := 0
  cls : Nat := 0
  twoStep : Bool := false
  ptpId : Nat := 0
  residence : Nat := 0
  peerDelay : Nat := 0
  own : Bool := false
  residences : List (Nat × Nat) := []
  request : Bool := false
deriving DecidableEq, Repr

/-- The commands. Each constructor is one row; its docstring gives the row's mnemonic and rule. -/
inductive Instr where
  /-- TREAD_BOUNDARY (R11) -/
  | treadBoundary (i : TreadIn)
  /-- RESYNCHRONISATION_COMPLETE (R138): pair 0 A, 1 B; whether it succeeded -/
  | resynchronisationComplete (pair : Nat) (ok : Bool)
  /-- FLIGHT_BOUNDARY (R17) -/
  | flightBoundary (i : FlightIn)
  /-- CHECKPOINT_COMPLETE (R296) -/
  | checkpointComplete
  /-- TILE_WAKE_COMPLETE (R21): the tile's wake-mask bit -/
  | tileWakeComplete (tile : Nat)
  /-- LATE_WAKE (R22) -/
  | lateWake (t : Nat)
  /-- STEP_DURATION_EXIT (R63) -/
  | stepDurationExit (t : Nat)
  /-- STEP_TIMEOUT (R65) -/
  | stepTimeout (t : Nat)
  /-- WAIT_DWELL_END (R62) -/
  | waitDwellEnd (t : Nat)
  /-- SETTLE_TIME_REACHED (R60) -/
  | settleTimeReached (t : Nat)
  /-- DELAYED_ACTION (R67) -/
  | delayedAction (t : Nat)
  /-- PULSE_DO_END (R67) -/
  | pulseDoEnd (o : Nat)
  /-- START (R77) -/
  | start (h : Hdr) (t entry : Nat)
  /-- ABORT (R86) -/
  | abort (h : Hdr) (t : Nat)
  /-- FORCE_ABORT (R86) -/
  | forceAbort (h : Hdr) (t : Nat)
  /-- PAUSE (R78) -/
  | pause (h : Hdr) (t : Nat)
  /-- CONTINUE (R78) -/
  | continueTrack (h : Hdr) (t : Nat)
  /-- CLEAR (R86) -/
  | clear (h : Hdr) (t : Nat)
  /-- TRANSACT (R31): one frame of a TRANSACT message -/
  | transact (f : Frame)
  /-- READ_SERVICE (R42) -/
  | readService (a seq : Nat)
  /-- READ_SERVICE_END (R43): whether the housekeeping processor delivered in time (R46) -/
  | readServiceEnd (a seq : Nat) (delivered : Bool)
  /-- JOURNALLED_REPLY (R52) -/
  | journalledReply (a seq : Nat)
  /-- SEGMENT_DISCARD (R318) -/
  | segmentDiscard (a : Nat)
  /-- SEQUENCE_GAP (R320) -/
  | sequenceGap (a : Nat) (off : Offset := 0)
  /-- HELLO (R321) -/
  | hello (src : Src) (hd : FrameHead := {})
  /-- HELLO_ANNOUNCE (R321) -/
  | helloAnnounce
  /-- NEGOTIATE (R323) -/
  | negotiate (src : Src) (r : NegReq) (hd : FrameHead := {})
  /-- RESERVATION_LAPSE (R323) -/
  | reservationLapse (id : Nat)
  /-- ASSOCIATE (R325) -/
  | associate (src : Src) (r : AssocReq) (hd : FrameHead := {})
  /-- IMAGE (R334) -/
  | image (f : Frame)
  /-- IMAGE_SEND (R47): the map; whether the task scheduler could not build it in its own tread -/
  | imageSend (m : Nat) (late : Bool)
  /-- HEARTBEAT (R338) -/
  | heartbeat (f : Frame)
  /-- ASSOCIATION_LOST (R338) -/
  | associationLost (a : Nat) (off : Offset)
  /-- BYE (R340) -/
  | bye (f : Frame)
  /-- EVICT (R340) -/
  | evict (h : Hdr) (id : Nat)
  /-- MAP_ENABLE (R332) -/
  | mapEnable (h : Hdr) (m : Nat)
  /-- RING_OPEN (R313) -/
  | ringOpen
  /-- RING_CLOSED (R313) -/
  | ringClosed
  /-- SWITCH_FRAME (R312) -/
  | switchFrame (f : SwFrame)
  /-- ADDRESS_AGE_OUT (R312) -/
  | addressAgeOut (mac : Nat)
  /-- ARP_REQUEST (R314): port (4 is DP), address asked for, asker's MAC -/
  | arpRequest (port ip mac : Nat)
  /-- LOOP_MODE_WRITE (R122) -/
  | loopModeWrite (h : Hdr) (j mode : Nat)
  /-- SCHEDULE_WRITE (R119) -/
  | scheduleWrite (h : Hdr) (j v : Nat)
  /-- DESTINATION_WRITE (R128) -/
  | destinationWrite (h : Hdr) (j : Nat) (sig : Sig)
  /-- COEFFICIENT_WRITE (R131): bank, loop, subindex, F32 -/
  | coefficientWrite (h : Hdr) (bank j sub v : Nat)
  /-- BANK_IN_USE_WRITE (R48) -/
  | bankInUseWrite (h : Hdr) (j b : Nat)
  /-- JUMP (R147) -/
  | jump (h : Hdr) (j v : Nat)
  /-- REPETITIVE_ENABLE (R150) -/
  | repetitiveEnable (h : Hdr) (j v : Nat)
  /-- CLEAR_TABLE (R157) -/
  | clearTable (h : Hdr) (j : Nat)
  /-- TABLE_WINDOW_WRITE (R157): 256 bytes, little-endian -/
  | tableWindowWrite (h : Hdr) (j : Nat) (data : Raw)
  /-- LOCK_TIMEOUT (R153) -/
  | lockTimeout (j : Nat)
  /-- RETURN_TO_SERVICE (R140) -/
  | returnToService (h : Hdr) (pair : Nat)
  /-- RESULT_LANDS (R163): converter, slot, injected, code, sampling instant in SMP cycles, moment of landing -/
  | resultLands (c slot : Nat) (injected : Bool) (code : Int) (cycles : Nat) (off : Offset)
  /-- INJECTED_FIRING (R165): converter, source 0–3 TRG, 16+k acquisition trigger k, 32 INJECT; falling edge; moment -/
  | injectedFiring (c source : Nat) (falling : Bool) (off : Offset)
  /-- INJECTED_DEFERRED_START (R166) -/
  | injectedDeferredStart (c : Nat)
  /-- AVERAGE_WINDOW_COMPLETE (R169) -/
  | averageWindowComplete (x : Nat)
  /-- SKEW_CALIBRATION (R175) -/
  | skewCalibration (h : Hdr)
  /-- SKEW_CALIBRATION_END (R175): trims (0.25 ns steps) and residuals (ps) by converter -/
  | skewCalibrationEnd (trims : List (Nat × Nat)) (residuals : List (Nat × Int))
  /-- CALIBRATE (R180) -/
  | calibrate (h : Hdr) (c : Nat)
  /-- CALIBRATION_END (R181): passed, new offset and gain (F32) by range for the converter's four inputs -/
  | calibrationEnd (c : Nat) (pass : Bool) (coeffs : List (Nat × Nat × Nat))
  /-- BACKGROUND_CHECK (R177): converter, result code of input 4, or none when no free instant was found -/
  | backgroundCheck (c : Nat) (code : Option Int)
  /-- OPEN_WIRE_SCAN (R176): tile, biased sample of the next enabled input -/
  | openWireScan (tile : Nat) (code : Int)
  /-- AO_READBACK (R187): group, measured value (F32) -/
  | aoReadback (g v : Nat)
  /-- DEBOUNCE_CHANGE (R188): input, what its filter sees -/
  | debounceChange (i : Nat) (x : DiIn)
  /-- DUTY_PERIOD_START (R192) -/
  | dutyPeriodStart (x : DutyIn)
  /-- FALLBACK_SWITCH (R193): side 0 field (outputs), 1 logic (inputs) -/
  | fallbackSwitch (side : Nat)
  /-- MAIN_PATH_RETURN (R195) -/
  | mainPathReturn (side : Nat)
  /-- HOLD_WINDOW_EXPIRY (R203): ms since the last tread boundary -/
  | holdWindowExpiry (ms : Nat)
  /-- SUPPLY_SAG (R197) -/
  | supplySag (b : Nat)
  /-- SUPPLY_QUALIFIED (R197) -/
  | supplyQualified (b : Nat)
  /-- SWITCH_OVERTEMPERATURE (R196) -/
  | switchOvertemperature (o : Nat)
  /-- BANK_ENABLE (R197) -/
  | bankEnable (h : Hdr) (b v : Nat)
  /-- FAULT_ACKNOWLEDGE (R196) -/
  | faultAcknowledge (h : Hdr) (b : Nat)
  /-- DARK_TEST_START (R200) -/
  | darkTestStart (b : Nat)
  /-- DARK_TEST_END (R200): readback levels of the 192 outputs at the pulse's end -/
  | darkTestEnd (b readback : Nat)
  /-- SAFETY_CYCLE (R208) -/
  | safetyCycle (i : SafetyIn)
  /-- CLOCK_MONITOR_TRIP (R210) -/
  | clockMonitorTrip
  /-- SAFETY_DEBOUNCE (R216): input pair, channel 0 A or 1 B -/
  | safetyDebounce (k ch : Nat)
  /-- DISCREPANCY_FAULT (R217): input pair -/
  | discrepancyFault (k : Nat)
  /-- OFF_DELAY_EXPIRY (R219): output pair -/
  | offDelayExpiry (p : Nat)
  /-- SAFE_OUTPUT_DARK_TEST (R224): pair, channel 0 A, 1 B, readback low before the pulse ends -/
  | safeOutputDarkTest (p ch : Nat) (fell : Option Nat)
  /-- OUTPUT_FAILS_OFF (R225) -/
  | outputFailsOff (p ch : Nat)
  /-- DEGRADED_WINDOW_EXPIRY (R226): 0 input, 1 output; pair -/
  | degradedWindowExpiry (side k : Nat)
  /-- SAFETY_CONFIG_WRITE (R211): index, subindex, length, value -/
  | safetyConfigWrite (h : Hdr) (e : Entry)
  /-- RESET_ARM (R211) -/
  | resetArm (h : Hdr)
  /-- RESET_CONFIRM (R212) -/
  | resetConfirm (h : Hdr) (v : Nat)
  /-- ARM_TIMEOUT (R212) -/
  | armTimeout
  /-- RESTART (R220) -/
  | restart (h : Hdr) (p : Nat)
  /-- HOST_REQUEST (R221) -/
  | hostRequest (h : Hdr) (p v : Nat)
  /-- FAULT_RESET (R227): 0 input, 1 output; pair -/
  | faultReset (h : Hdr) (side k : Nat)
  /-- STAGE_RETURN (R234, R235): axis, the 32 bits in its return slot from bit 0 on, or none when nothing comes -/
  | stageReturn (a : Nat) (ret : Option Nat)
  /-- PLAN_COMPLETE (R240) -/
  | planComplete (a : Nat)
  /-- HOLD_DELAY_EXPIRY (R238) -/
  | holdDelayExpiry (a : Nat)
  /-- AXIS_MOVE (R239): kind 1 absolute, 2 relative; target as I32 -/
  | axisMove (h : Hdr) (a kind target : Nat)
  /-- AXIS_STOP (R243) -/
  | axisStop (h : Hdr) (a : Nat)
  /-- AXIS_ENABLE (R246) -/
  | axisEnable (h : Hdr) (a v : Nat)
  /-- FAULT_CLEAR (R246) -/
  | faultClear (h : Hdr) (a : Nat)
  /-- RE_REFERENCE (R246) -/
  | reReference (h : Hdr) (a : Nat)
  /-- SET_POSITION (R247) -/
  | setPosition (h : Hdr) (a v : Nat)
  /-- BLOCK_CLOSE (R260) -/
  | blockClose (s : Nat)
  /-- RING_WRITE (R256) -/
  | ringWrite (s : Nat)
  /-- CHAIN_PACKET (R272): stream 2 or 4, the packet's writer words -/
  | chainPacket (s : Nat) (words : List Nat) (tail : Nat := 4)
  /-- DP_SEND (R276) -/
  | dpSend
  /-- DP_STATUS (R275) -/
  | dpStatus
  /-- PAUSE_FRAME (R274): quanta -/
  | pauseFrame (quanta : Nat)
  /-- TRIGGER_FIRE (R278): trigger, offset in ns, and for a raw source the code -/
  | triggerFire (k : Nat) (off : Offset) (raw : Option Int) (falling : Bool)
  /-- TRIGGER_ARM (R279) -/
  | triggerArm (h : Hdr) (k v : Nat)
  /-- HOLD_OFF_END (R279) -/
  | holdOffEnd (k : Nat)
  /-- CAPTURE_WINDOW_CLOSE (R280): trigger -/
  | captureWindowClose (k : Nat)
  /-- POWER_ON_RESET (R284): the straps, what the safety domain finds in its store -/
  | powerOnReset (straps : Straps) (stored : SafetyStored)
  /-- BROWNOUT (R284): ns below the threshold; `us` since PFAIL_N fell, where no treads tell it -/
  | brownout (ns : Nat) (us : Nat := 0)
  /-- RESET_N (R285): consecutive low samples of 20 ns -/
  | resetN (samples : Nat)
  /-- FABRIC_WATCHDOG (R284): consecutive late treads -/
  | fabricWatchdog (late : Nat)
  /-- SOFTWARE_FULL_RESET (R287) -/
  | softwareFullReset (h : Hdr) (flag : Nat)
  /-- REMOTE_RESET (R287) -/
  | remoteReset (h : Hdr) (flag : Nat)
  /-- REQUESTED_RESET_HOLD (R288) -/
  | requestedResetHold
  /-- RESET_RELEASE (R294) -/
  | resetRelease (b : BringUp)
  /-- PREPARATION_TREAD (R295) -/
  | preparationTread
  /-- HOUSEKEEPING_WATCHDOG (R285) -/
  | housekeepingWatchdog (off : Offset := 0)
  /-- BLOCK_RESET (R289) -/
  | blockReset (h : Hdr) (mask : Nat)
  /-- BLOCK_RESET_END (R290): bit of the block -/
  | blockResetEnd (bit : Nat)
  /-- PFAIL_FALL (R309): us low -/
  | pfailFall (us : Nat)
  /-- PFAIL_RISE (R309): us for which it was low -/
  | pfailRise (us : Nat)
  /-- VHU_CHARGED (R386) -/
  | vhuCharged
  /-- PLL_LOCK_LOSS (R398): 0 LEA, 1 LEB, 2 TIM, 3 FAB, 4 MEM, 5 NVM, 6 SMP, 7 FLK, 8 DPT; `more` the treads after the
  present one that it touches -/
  | pllLockLoss (domain : Nat) (more : Nat := 0)
  /-- SET_TIME (R345) -/
  | setTime (h : Hdr) (ns : Nat)
  /-- SYNC (R352) -/
  | sync (i : SyncIn)
  /-- ANNOUNCE (R351) -/
  | announce (i : AnnounceIn)
  /-- MASTER_LOST (R351) -/
  | masterLost
  /-- FOLLOW_UP_TIMEOUT (R350): identity of the event message -/
  | followUpTimeout (ptpId : Nat)
  /-- REFIN_LOSS (R347) -/
  | refinLoss
  /-- REFIN_RETURN (R347) -/
  | refinReturn
  /-- TPO_ARM (R355) -/
  | tpoArm (h : Hdr) (k : Nat)
  /-- TPO_DISARM (R355) -/
  | tpoDisarm (h : Hdr) (k : Nat)
  /-- TPO_PULSE (R354) -/
  | tpoPulse (k : Nat)
  /-- TPO_PULSE_END (R354) -/
  | tpoPulseEnd (k : Nat)
  /-- CAN_ENABLE (R359) -/
  | canEnable (h : Hdr) (p : Nat)
  /-- CAN_DISABLE (R359) -/
  | canDisable (h : Hdr) (p : Nat)
  /-- CAN_FRAME_RECEIVED (R362) -/
  | canFrameReceived (p : Nat) (f : CanFrame)
  /-- STALE (R363) -/
  | stale (p m : Nat)
  /-- CAN_SEND (R365) -/
  | canSend (h : Hdr) (p m : Nat)
  /-- PERIODIC_SEND (R365) -/
  | periodicSend (p m : Nat)
  /-- TRANSMISSION_COMPLETE (R367): the attempt started `began` treads ago (R365) -/
  | transmissionComplete (p : Nat) (began : Nat := 0)
  /-- TRANSMISSION_ERROR (R367): lost arbitration consumes nothing; `ack` an acknowledgement that is missing -/
  | transmissionError (p : Nat) (arbitration : Bool) (ack : Bool := false) (began : Nat := 0)
  /-- RECOVER (R370) -/
  | recover (h : Hdr) (p : Nat)
  /-- RECOVERY_COMPLETE (R370): sequences of 11 recessive bits seen -/
  | recoveryComplete (p sequences : Nat)
  /-- QUEUE_WINDOW_READ (R372) -/
  | queueWindowRead (h : Hdr) (p : Nat)
  /-- QUEUE_ACKNOWLEDGE (R372) -/
  | queueAcknowledge (h : Hdr) (p seq : Nat)
  /-- ACCESS_SERVICE_ENABLE (R373) -/
  | accessServiceEnable (h : Hdr) (p v : Nat)
  /-- ACCESS_REQUEST (R373) -/
  | accessRequest (p : Nat) (f : CanFrame) (off : Offset)
  /-- GALLERY_RECORD (R380) -/
  | galleryRecord
  /-- GALLERY_CLEAR (R384) -/
  | galleryClear (h : Hdr)
  /-- GALLERY_CLEAR_END (R384) -/
  | galleryClearEnd
  /-- POWER_REQUEST_RUN (R389) -/
  | powerRequestRun (h : Hdr)
  /-- POWER_REQUEST_IDLE (R389) -/
  | powerRequestIdle (h : Hdr)
  /-- POWER_REQUEST_STANDBY (R390) -/
  | powerRequestStandby (h : Hdr)
  /-- STANDBY_ENTRY (R391) -/
  | standbyEntry
  /-- WAKE_LINK_FRAME (R393): port; addressed to the module or a broadcast HELLO -/
  | wakeLinkFrame (port : Nat) (addressed : Bool)
  /-- WAKE_DI_EDGE (R393) -/
  | wakeDiEdge (i : Nat)
  /-- WAKE_TIMED (R393) -/
  | wakeTimed
  /-- WAKE_COMPLETE (R395): the tread reached when step 4 ends -/
  | wakeComplete (now : Tread)
  /-- TOKEN_REQUEST (R402) -/
  | tokenRequest (h : Hdr) (mask code : Nat)
  /-- TOKEN_RELEASE (R404) -/
  | tokenRelease (h : Hdr) (slot : Nat)
  /-- PULSE_TEST (R405) -/
  | pulseTest (h : Hdr) (o us : Nat)
  /-- PULSE_TEST_END (R405): readback levels of the bank's 32 outputs before the pulse and at its end -/
  | pulseTestEnd (before after : Nat)
  /-- STAIRWELL_BEGIN (R98) -/
  | stairwellBegin (h : Hdr)
  /-- LOAD_OFFSET (R98) -/
  | loadOffset (h : Hdr) (v : Nat)
  /-- LOAD_DATA (R98): length and bytes, little-endian -/
  | loadData (h : Hdr) (len : Nat) (data : Raw)
  /-- STAIRWELL_FINISH (R98) -/
  | stairwellFinish (h : Hdr)
  /-- STAIRWELL_CANCEL (R98) -/
  | stairwellCancel (h : Hdr)
  /-- VALIDATION_END (R99) -/
  | validationEnd
  /-- SWAP (R100) -/
  | swap (h : Hdr) (id : Nat)
  /-- PATCH (R103): slots as subindex, selector, value -/
  | patch (h : Hdr) (slots : List (Nat × Nat × Nat))
  /-- FIRMWARE_BEGIN (R407) -/
  | firmwareBegin (h : Hdr)
  /-- FIRMWARE_OFFSET (R407) -/
  | firmwareOffset (h : Hdr) (v : Nat)
  /-- FIRMWARE_DATA (R407) -/
  | firmwareData (h : Hdr) (len : Nat) (data : Raw)
  /-- FIRMWARE_FINISH (R407) -/
  | firmwareFinish (h : Hdr)
  /-- FIRMWARE_CANCEL (R407) -/
  | firmwareCancel (h : Hdr)
  /-- FIRMWARE_VERIFIED (R407): the image header's order number matches, its version, its format is right -/
  | firmwareVerified (orderOk formatOk : Bool) (version : Nat)
  /-- ACTIVATE (R408) -/
  | activate (h : Hdr)
  /-- CONFIRM (R408) -/
  | confirm (h : Hdr)
  /-- TRIAL_TIMEOUT (R408): 600 s passed, or the image failed to start -/
  | trialTimeout (failedToStart : Bool) (off : Offset := 0)
  /-- REGISTER_WRITE (R413) -/
  | registerWrite (h : Hdr) (e : Entry)
  /-- SAFETY_DOMAIN_RUNNING (R212) -/
  | safetyDomainRunning
  /-- HOLD_UP_EXHAUSTED (R205) -/
  | holdUpExhausted
  /-- PORT_LINK_STATE (R311): port 0–3, 4 DP; 0 down, 1 100 Mb/s, 2 1 000 Mb/s (DP: 0 or 1) -/
  | portLinkState (port speed : Nat)
  /-- BUS_INTEGRATION_COMPLETE (R359) -/
  | busIntegrationComplete (p : Nat)
  /-- CAN_RECEIVE_ERROR (R368): a dominant bit after the error flag -/
  | canReceiveError (p : Nat) (dominant : Bool)
  /-- SAF_IMAGE_REPEAT (R392) -/
  | safImageRepeat
  /-- KEEP_ALIVE_TIMEOUT (R343) -/
  | keepAliveTimeout
  /-- CONFIGURATION_COPY_WRITE (R298) -/
  | configurationCopyWrite
  /-- FIRMWARE_OVER_P3 (R293): checked signature; tread at which step 7 ends -/
  | firmwareOverP3 (signed : Bool) (b : BringUp)
  /-- SWITCH_COOLED (R196) -/
  | switchCooled (o : Nat)
  /-- BANK_SUPPLY_LOW (R196) -/
  | bankSupplyLow (b : Nat) (back : Bool := false)
deriving DecidableEq, Repr

end Sys2Proof
end

