-- ==== Sys2Proof/Decode.lean ====
section
/-! DEFINITION. Commands by their bits. The table of operations and events gives no row any bits (log entry 6): the
block takes commands as its partners send them and as its environment shows them, so no word spells one. -/

namespace Sys2Proof

/-- The command that the low `nbits` bits of `w` spell by the table: none, since no row has bits. -/
def decodeTableWord (_nbits _w : Nat) : Option Instr := none

end Sys2Proof
end

