-- ==== Sys2Proof/Machine/Num.lean ====
section
/-! DEFINITION. Numbers: exact dyadic values, the binary32 and binary64 values of the dictionary (R411), BF24 words
and stages (R114 to R117), and two's complement readings. All arithmetic is exact; rounding is explicit. -/

namespace Sys2Proof.Machine

/-- An exact dyadic number m · 2^e. -/
structure Dy where
  m : Int
  e : Int
deriving DecidableEq, Repr

/-- Zero. -/
def Dy.zero : Dy := ⟨0, 0⟩
/-- A whole number. -/
def Dy.ofInt (n : Int) : Dy := ⟨n, 0⟩
/-- One. -/
def Dy.one : Dy := ⟨1, 0⟩

/-- The mantissa of `d` at an exponent no larger than its own. -/
def Dy.at (d : Dy) (e : Int) : Int := d.m * (2 ^ (d.e - e).toNat : Nat)

/-- Exact sum. -/
def Dy.add (a b : Dy) : Dy :=
  if a.m = 0 then b else if b.m = 0 then a else
  let e := min a.e b.e
  ⟨a.at e + b.at e, e⟩
/-- Exact opposite. -/
def Dy.neg (a : Dy) : Dy := ⟨-a.m, a.e⟩
/-- Exact difference. -/
def Dy.sub (a b : Dy) : Dy := a.add b.neg
/-- Exact product. -/
def Dy.mul (a b : Dy) : Dy := ⟨a.m * b.m, a.e + b.e⟩
/-- Magnitude. -/
def Dy.abs (a : Dy) : Dy := ⟨(a.m.natAbs : Int), a.e⟩
/-- Exact sum of a list. -/
def Dy.sum (l : List Dy) : Dy := l.foldl Dy.add Dy.zero

/-- Strictly less. -/
def Dy.lt (a b : Dy) : Bool := decide ((a.sub b).m < 0)
/-- Less or equal. -/
def Dy.le (a b : Dy) : Bool := decide ((a.sub b).m ≤ 0)
/-- Equal as numbers. -/
def Dy.eqv (a b : Dy) : Bool := decide ((a.sub b).m = 0)
/-- The smaller. -/
def Dy.min (a b : Dy) : Dy := if b.lt a then b else a
/-- The larger. -/
def Dy.max (a b : Dy) : Dy := if a.lt b then b else a

/-- `n / 2^s` to the nearest whole number, ties to even. -/
def shrEven (n : Int) (s : Nat) : Int :=
  let q := n / (2 ^ s : Nat)
  let r := 2 * (n % (2 ^ s : Nat))
  if r > (2 ^ s : Nat) ∨ (r = (2 ^ s : Nat) ∧ q % 2 = 1) then q + 1 else q

/-- The nearest whole number of units 2^q, ties to even. -/
def Dy.unitsAt (d : Dy) (q : Int) : Int :=
  if q ≤ d.e then d.at q else shrEven d.m (q - d.e).toNat

/-- Rounded to the nearest whole number, ties to even. -/
def Dy.round (d : Dy) : Int := d.unitsAt 0
/-- Rounded to the nearest whole number, ties upwards. -/
def Dy.roundUp (d : Dy) : Int :=
  if 0 ≤ d.e then d.at 0 else (2 * d.m + (2 ^ (-d.e).toNat : Nat)) / (2 * 2 ^ (-d.e).toNat : Nat)
/-- Rounded towards minus infinity. -/
def Dy.floor (d : Dy) : Int :=
  if 0 ≤ d.e then d.at 0 else d.m / (2 ^ (-d.e).toNat : Nat)

/-- The power of two at or below the magnitude of a non-zero number. -/
def Dy.top (d : Dy) : Int := (Nat.log2 d.m.natAbs : Int) + d.e

/-! ### Fixed point, 256 binary places: the exact arithmetic behind the plans of R144 and R240 -/

/-- A number in units of 2^-256. -/
abbrev Fx := Int
/-- One. -/
def Fx.one : Fx := (2 ^ 256 : Nat)
/-- From a dyadic number, rounded to nearest. -/
def Fx.ofDy (d : Dy) : Fx := d.unitsAt (-256)
/-- As a dyadic number. -/
def Fx.toDy (x : Fx) : Dy := ⟨x, -256⟩
/-- Product, to nearest. -/
def Fx.mul (a b : Fx) : Fx := shrEven (a * b) 256
/-- Quotient, rounded towards zero; 0 for a zero divisor. -/
def Fx.div (a b : Fx) : Fx := if b = 0 then 0 else (a * Fx.one).tdiv b

/-- One digit of a binary square root: keep bit `b` while the square does not exceed `n`. -/
def isqrtGo (n : Nat) : Nat → Nat → Nat
  | 0, r => r
  | b + 1, r =>
    let c := r + 2 ^ b
    isqrtGo n b (if c * c ≤ n then c else r)
/-- The whole square root. -/
def isqrt (n : Nat) : Nat := isqrtGo n (Nat.log2 n / 2 + 1) 0
/-- Square root of a number that is not negative. -/
def Fx.sqrt (a : Fx) : Fx := (isqrt (a.toNat * 2 ^ 256) : Nat)
/-- Sign as 1 or -1. -/
def Fx.sgn (a : Fx) : Int := if a < 0 then -1 else 1

/-! ### Binary32 and binary64 -/

/-- Finite value of a binary format with `f` fraction bits, bias exponent field of `x` bits; none for NaN and infinity. -/
def floatVal (x f : Nat) (w : Nat) : Option Dy :=
  let s := w / 2 ^ (x + f) % 2
  let ex := w / 2 ^ f % 2 ^ x
  let fr := w % 2 ^ f
  if ex = 2 ^ x - 1 then none else
  let q : Int := 2 - (2 ^ (x - 1) : Nat) - (f : Int)
  let d : Dy := if ex = 0 then ⟨fr, q⟩ else ⟨(2 ^ f + fr : Nat), q + (ex : Int) - 1⟩
  some (if s = 1 then d.neg else d)

/-- Nearest value of the format, ties to even; too large gives infinity. Zero is the positive zero. -/
def floatOf (x f : Nat) (d : Dy) : Nat :=
  if d.m = 0 then 0 else
  let q0 : Int := 2 - (2 ^ (x - 1) : Nat) - (f : Int)
  let q := Max.max (d.top - (f : Int)) q0
  let r := (d.abs.unitsAt q).toNat
  let w := (q - q0).toNat * 2 ^ f + r
  let inf := (2 ^ x - 1) * 2 ^ f
  (if d.m < 0 then 2 ^ (x + f) else 0) + Min.min w inf

/-- Value of an F32 (R411). -/
def f32 (w : Nat) : Option Dy := floatVal 8 23 w
/-- Nearest F32. -/
def toF32 (d : Dy) : Nat := floatOf 8 23 d
/-- Value of a binary64. -/
def f64 (w : Nat) : Option Dy := floatVal 11 52 w
/-- Nearest binary64. -/
def toF64 (d : Dy) : Nat := floatOf 11 52 d
/-- A NaN as the model writes one. -/
def f32NaN : Nat := 0x7FC00000
/-- Whether an F32 is finite. -/
def f32Fin (w : Nat) : Bool := (f32 w).isSome
/-- Value of an F32 that is finite, 0 otherwise. -/
def f32D (w : Nat) : Dy := (f32 w).getD Dy.zero
/-- Whether an F32 is a NaN. -/
def f32IsNaN (w : Nat) : Bool := decide (w / 2 ^ 23 % 256 = 255 ∧ w % 2 ^ 23 ≠ 0)

/-- A comparison key of an F32, infinities included; none for a NaN. -/
def f32Key (w : Nat) : Option Dy :=
  if f32IsNaN w then none else
  match f32 w with
  | some d => some d
  | none => some (if w / 2 ^ 31 % 2 = 1 then ⟨-1, 300⟩ else ⟨1, 300⟩)

/-- A fixed-point number rounded as binary64 keeps it (R144). -/
def Fx.f64 (x : Fx) : Fx :=
  match Machine.f64 (toF64 x.toDy) with
  | some d => Fx.ofDy d
  | none => x

/-- A number rounded as one binary64 operation leaves it. -/
def Dy.r64 (d : Dy) : Dy := (Machine.f64 (toF64 d)).getD d

/-- A quotient rounded as binary64 leaves it: 128 more bits than the divisor, and a sticky last bit. -/
def Dy.div64 (a b : Dy) : Dy :=
  if b.m = 0 then Dy.zero else
  let k := 128 + Nat.log2 b.m.natAbs
  let n := a.m.natAbs * 2 ^ k
  let q := 2 * (n / b.m.natAbs) + (if n % b.m.natAbs = 0 then 0 else 1)
  let neg := decide (a.m < 0) != decide (b.m < 0)
  Dy.r64 ⟨if neg then -(q : Int) else (q : Int), a.e - b.e - (k : Int) - 1⟩

/-- Two's complement reading of the low `b` bits. -/
def toSigned (b w : Nat) : Int :=
  let v := w % 2 ^ b
  if 2 ^ (b - 1) ≤ v then (v : Int) - (2 ^ b : Nat) else v
/-- Two's complement word of `b` bits. -/
def ofSigned (b : Nat) (n : Int) : Nat := (n % (2 ^ b : Nat)).toNat

/-- Bits [lo + n - 1 : lo]. -/
def bits (w lo n : Nat) : Nat := w / 2 ^ lo % 2 ^ n
/-- Bit `n` as a Bool. -/
def tb (w n : Nat) : Bool := decide (w / 2 ^ n % 2 = 1)
/-- A Bool as 0 or 1. -/
def b2n (b : Bool) : Nat := if b then 1 else 0
/-- Bit `n` set to `b`. -/
def setBit (w n : Nat) (b : Bool) : Nat :=
  if tb w n then (if b then w else w - 2 ^ n) else (if b then w + 2 ^ n else w)
/-- Count of the bits set among the low `n`. -/
def popBits : Nat → Nat → Nat
  | 0, _ => 0
  | n + 1, w => popBits n w + b2n (tb w n)
/-- The bits set among the low `n`, by rising number. -/
def onBits (n w : Nat) : List Nat := if w = 0 then [] else (List.range n).filter (tb w)
/-- A word with every bit of a list set. -/
def ofBits (l : List Nat) : Nat := l.foldl (fun w i => setBit w i true) 0
/-- A saturating count. -/
def satAdd (top a b : Nat) : Nat := Min.min top (a + b)
/-- Whether all bits of `a` among the low `n` are set in `b`. -/
def subBits (n a b : Nat) : Bool := (List.range n).all fun i => !tb a i || tb b i
/-- Bitwise or. -/
def orBits (a b : Nat) : Nat := a ||| b
/-- Bitwise and-not. -/
def clrBits (a b : Nat) : Nat := a - (a &&& b)

/-- The `n` little-endian bytes of a number (R4). -/
def leBytes : Nat → Nat → List Nat
  | 0, _ => []
  | n + 1, w => (w % 256) :: leBytes n (w / 256)
/-- The number that little-endian bytes spell. -/
def ofLe : List Nat → Nat
  | [] => 0
  | b :: l => b % 256 + 256 * ofLe l
/-- The number that little-endian 32-bit words spell. -/
def ofWords : List Nat → Nat
  | [] => 0
  | w :: l => w % 2 ^ 32 + 2 ^ 32 * ofWords l
/-- Byte `i` of a number. -/
def byteOf (w i : Nat) : Nat := w / 256 ^ i % 256

/-- One bit of CRC-16/CCITT-FALSE. -/
def crc16Bit (c : Nat) : Nat := if 32768 ≤ c then ((2 * c) ^^^ 0x1021) % 65536 else 2 * c % 65536
/-- CRC-16/CCITT-FALSE (R57). -/
def crc16 (l : List Nat) : Nat :=
  l.foldl (fun c b => crc16Bit (crc16Bit (crc16Bit (crc16Bit (crc16Bit (crc16Bit (crc16Bit (crc16Bit
    (c ^^^ (256 * b))))))))) ) 0xFFFF
/-- One bit of CRC-8 with polynomial 0x07. -/
def crc8Bit (c : Nat) : Nat := if 128 ≤ c then (2 * c % 256) ^^^ 7 else 2 * c
/-- CRC-8 of a list of bytes (R234). -/
def crc8 (l : List Nat) : Nat :=
  l.foldl (fun c b => (List.range 8).foldl (fun c _ => crc8Bit c) ((c ^^^ b) % 256)) 0

/-! ### BF24 (R114 to R117) -/

/-- The magnitude bits of a mantissa, 2^23. -/
def bfTop : Int := 8388608

/-- The exponent a stage needs for its largest magnitude (R116), never below -128. -/
def bfExp (l : List Dy) : Int :=
  l.foldl (fun k d => if d.m = 0 then k else Max.max k (d.top + 1)) (-128)

/-- Values rounded at exponent `k`. -/
def bfRound (k : Int) (l : List Dy) : List Int := l.map fun d => d.unitsAt (k - 23)

/-- A stage normalised (R116): its exponent, its mantissas, and whether it saturated. -/
def bfStage (l : List Dy) : Int × List Int × Bool :=
  if l.all (fun d => decide (d.m = 0)) then (-128, l.map (fun _ => 0), false) else
  let k0 := bfExp l
  let k := if (bfRound k0 l).any (fun m => decide (bfTop ≤ m.natAbs)) then k0 + 1 else k0
  if 127 < k then
    (127, l.map (fun d => if d.m = 0 then 0 else if d.m < 0 then 1 - bfTop else bfTop - 1), true)
  else (k, bfRound k l, false)

/-- One value brought to the 23 bits of magnitude of a mantissa (R117). -/
def bfConv (d : Dy) : Dy :=
  match bfStage [d] with
  | (k, m :: _, _) => ⟨m, k - 23⟩
  | _ => Dy.zero

/-- A coefficient, source value or set-point as the engine takes it from F32 (R117). -/
def bfOfF32 (w : Nat) : Dy := bfConv (f32D w)

/-- A BF24 word (R114, R411), normalised as the module returns it. -/
def bfWord (d : Dy) : Nat :=
  match bfStage [d] with
  | (k, m :: _, _) => ofSigned 24 m * 256 + ofSigned 8 (if m = 0 then -128 else k)
  | _ => 0x80
/-- The value of a BF24 word. -/
def bfVal (w : Nat) : Dy := ⟨toSigned 24 (w / 256), toSigned 8 w - 23⟩

end Sys2Proof.Machine
end

