-- ==== Sys2Proof/Machine/Auth.lean ====
section
/-! DEFINITION. SHA-256 (FIPS 180-4) and HMAC (RFC 2104) over lists of bytes, as the link's trailers and proofs use
them (R327). -/

namespace Sys2Proof.Machine

/-- A 32-bit word. -/
abbrev W32 := BitVec 32

/-- The constants of the 64 rounds, as one number whose highest word is the first (FIPS 180-4, 4.2.2). -/
def shaK : Nat :=
  0x428a2f9871374491b5c0fbcfe9b5dba53956c25b59f111f1923f82a4ab1c5ed5d807aa9812835b01243185be550c7dc372be5d7480deb1fe9bdc06a7c19bf174 * 2 ^ 1536 +
  0xe49b69c1efbe47860fc19dc6240ca1cc2de92c6f4a7484aa5cb0a9dc76f988da983e5152a831c66db00327c8bf597fc7c6e00bf3d5a7914706ca635114292967 * 2 ^ 1024 +
  0x27b70a852e1b21384d2c6dfc53380d13650a7354766a0abb81c2c92e92722c85a2bfe8a1a81a664bc24b8b70c76c51a3d192e819d6990624f40e3585106aa070 * 2 ^ 512 +
  0x19a4c1161e376c082748774c34b0bcb5391c0cb34ed8aa4a5b9cca4f682e6ff3748f82ee78a5636f84c878148cc7020890befffaa4506cebbef9a3f7c67178f2

/-- The initial hash value, written in the same way (FIPS 180-4, 5.3.3). -/
def shaInit : Nat := 0x6a09e667bb67ae853c6ef372a54ff53a510e527f9b05688c1f83d9ab5be0cd19

/-- The words of a number of `n` words, the highest first. -/
def bigWords (n w : Nat) : List W32 := (List.range n).map fun i => BitVec.ofNat 32 (w / 2 ^ (32 * (n - 1 - i)))

/-- The exclusive or of a word's rotations to the right. -/
def rotations (x : W32) (l : List Nat) : W32 := l.foldl (fun s r => s ^^^ x.rotateRight r) 0

/-- The next schedule word, from the last sixteen, newest first. -/
def shaNext (w : List W32) : W32 :=
  let old := w.getD 14 0
  let new := w.getD 1 0
  w.getD 15 0 + (rotations old [7, 18] ^^^ (old >>> 3)) + w.getD 6 0 + (rotations new [17, 19] ^^^ (new >>> 10))

/-- The message schedule extended by `n` words, newest first. -/
def shaExtend : Nat → List W32 → List W32
  | 0, w => w
  | n + 1, w => shaExtend n (shaNext w :: w)

/-- The working variables as two runs of four, newest first: a to d and e to h. -/
structure ShaVars where
  as : List W32
  es : List W32

/-- One round: each run takes one new word at its head (FIPS 180-4, 6.2.2). -/
def ShaVars.round (v : ShaVars) (kw : W32) : ShaVars :=
  let x := fun i => v.as.getD i 0
  let y := fun i => v.es.getD i 0
  let chosen := y 2 ^^^ (y 0 &&& (y 1 ^^^ y 2))
  let most := (x 0 &&& (x 1 ||| x 2)) ||| (x 1 &&& x 2)
  let new := y 3 + rotations (y 0) [6, 11, 25] + chosen + kw
  { as := (new + rotations (x 0) [2, 13, 22] + most) :: v.as.take 3, es := (x 3 + new) :: v.es.take 3 }

/-- A big-endian word of four bytes. -/
def beWord (l : List Nat) : W32 := BitVec.ofNat 32 (l.foldl (fun n b => 256 * n + b % 256) 0)

/-- The hash value after one more block of sixteen words. -/
def shaBlock (h : List W32) (block : List W32) : List W32 :=
  let words := (shaExtend 48 block.reverse).reverse
  let v := ((bigWords 64 shaK).zip words).foldl (fun (v : ShaVars) p => v.round (p.1 + p.2)) ⟨h.take 4, h.drop 4⟩
  (h.zip (v.as ++ v.es)).map fun p => p.1 + p.2

/-- The first `n` blocks of a padded message. -/
def shaBlocks : Nat → List Nat → List W32 → List W32
  | 0, _, h => h
  | n + 1, l, h =>
    shaBlocks n (l.drop 64) (shaBlock h ((List.range 16).map fun i => beWord ((l.drop (4 * i)).take 4)))

/-- The padding of a message of `n` bytes. -/
def shaPad (n : Nat) : List Nat :=
  0x80 :: List.replicate ((119 - n % 64) % 64) 0 ++ (leBytes 8 (8 * n)).reverse

/-- SHA-256. -/
def sha256 (l : List Nat) : List Nat :=
  let p := l ++ shaPad l.length
  (shaBlocks (p.length / 64) p (bigWords 8 shaInit)).flatMap fun w => (leBytes 4 w.toNat).reverse

/-- HMAC-SHA-256 with a key of at most 64 bytes. -/
def hmac (key msg : List Nat) : List Nat :=
  let k := key ++ List.replicate (64 - key.length) 0
  sha256 ((k.map (· ^^^ 0x5C)) ++ sha256 ((k.map (· ^^^ 0x36)) ++ msg))

/-- The first 16 bytes of an HMAC, as the link uses it. -/
def mac16 (key : Nat) (msg : List Nat) : List Nat := (hmac (leBytes 32 key) msg).take 16

end Sys2Proof.Machine
end

