-- ==== Sys2Proof/Config.lean ====
section
/-! DEFINITION. What the spec leaves open: free values without a body, so that nothing in Lean can evaluate them, and
the figures of the individual module. Log entries 8 to 15 name them. -/

namespace Sys2Proof

/-- The next open value, by a counter of State (log entry 12): challenges (R211), nonces (R323). -/
opaque Config.free : Nat → BitVec 64

/-- Temperature in binary64 for a thermocouple type (1 to 8) and an emf in binary64, and whether the function has one
there (R172, R173; IEC 60584-1 is not in the spec). -/
opaque Config.thermoTemp : Nat → Nat → BitVec 64 × Bool

/-- Emf in binary64 of a thermocouple type at a cold junction temperature in F32 (R171). -/
opaque Config.thermoEmf : Nat → Nat → BitVec 64

/-- What a loop takes from a feed-forward or tracking source whose value is not finite or not valid, as F32, by loop
and tread: R112 speaks of process values only. -/
opaque Config.auxValue : Nat → Nat → BitVec 32

/-- The signature of a safety configuration (R211): CRC-32C over a layout that the spec does not give. -/
opaque Config.signature : SMap Nat → BitVec 32

/-- The code that an analog output latches for a range, channel and value code after its factory offset and gain
(R184). -/
opaque Config.aoTrim : Nat → Nat → Int → Int

/-- The name that the descriptor gives a member of a range of like objects (R420). -/
opaque Config.memberName : Nat → Nat → BitVec 256

/-- Whether an Ed25519 signature over a firmware image holds (R407). -/
opaque Config.signatureHolds : List Nat → Bool

/-- The bytes of the body of a flight's journal slot (R296, R297): the spec names what it holds, not where it stands. -/
opaque Config.slotBody : Nat → List (BitVec 8)

/-- Serial number (0x1000:05), manufacture date (:06), MAC addresses (:07, :08). -/
opaque Config.serial : BitVec 32
/-- Manufacture date. -/
opaque Config.made : BitVec 32
/-- MAC address of the switch ports. -/
opaque Config.macSwitch : BitVec 48
/-- MAC address of P3. -/
opaque Config.macP3 : BitVec 48
/-- MAC address of the data port. -/
opaque Config.macData : BitVec 48

end Sys2Proof
end

