-- ==== Sys2Proof/Machine/Dict.lean ====
section
/-! DEFINITION. The object dictionary (19): every object of every chapter's object tables with its type, access, role
and default, the families of indices of R409, and the profiles of R421. A default written 0 stands also where the
table has a dash or the word factory (log entry 4). -/

namespace Sys2Proof.Machine

/-- Data types (R411). -/
inductive Ty where
  | bool | u8 | u16 | u32 | u64 | i8 | i16 | i32 | i64 | f32 | bf24 | tread | sig
  | str (n : Nat) | oct (n : Nat) | octVar
deriving DecidableEq, Repr

/-- Access codes (R413). -/
inductive Acc where
  | ro | rw | wo | rws | rwl
deriving DecidableEq, Repr

/-- A row of an object table: first subindex, how many subindices it covers, name, type, access, role (R414), default,
profile of first appearance (R421), whether each association holds its own value (R415). -/
structure ObjRow where
  sub : Nat
  cnt : Nat := 1
  name : String
  ty : Ty
  acc : Acc
  role : Nat
  dflt : Raw
  prof : Nat := 1
  per : Bool := false
deriving DecidableEq, Repr

/-- The families of indices of R409. -/
inductive Fam where
  | identity | versions | descriptor | link | commit | timebase | tpo | reset | softReset | remoteReset | blockReset | gallery | galleryCode | tokens | pulseTest | firmware | mapped | engine | loop | coefA
  | coefB | profile | repet | input | conv | sequence | tile | inputs | ao | aoGroup | di | dout | bank | field | safety | safeIn | safeOut | axis | axisLink | canObject
  | canPort | record | stream | ringWindow | mapWindow | dataPort | trigger | capture | chains | track | seqCounters | event | banks | load | patch | readWindow | satellite | imageMap
deriving DecidableEq, Repr

/-- The families with the index of their first member and the number of members, by rising index (R409). -/
def families : List (Nat × Nat × Fam) :=
  [(0x1000, 1, .identity), (0x1001, 1, .versions), (0x1002, 1, .descriptor), (0x1100, 1, .link), (0x1200, 1, .commit), (0x1300, 1, .timebase), (0x1340, 16, .tpo), (0x1400, 1, .reset), (0x1401, 1, .softReset), (0x1402, 1, .remoteReset), (0x1410, 1, .blockReset), (0x1500, 1, .gallery), (0x1510, 1, .galleryCode), (0x1600, 1, .tokens), (0x1610, 1, .pulseTest), (0x1620, 1, .firmware), (0x1700, 240, .mapped), (0x2000, 1, .engine), (0x2200, 512, .loop), (0x2400, 512, .coefA)] ++
  [(0x2600, 512, .coefB), (0x2800, 512, .profile), (0x2A00, 512, .repet), (0x3000, 256, .input), (0x3100, 64, .conv), (0x3140, 64, .sequence), (0x3180, 8, .tile), (0x3190, 1, .inputs), (0x3200, 64, .ao), (0x3240, 8, .aoGroup), (0x3300, 192, .di), (0x3400, 192, .dout), (0x34C0, 6, .bank), (0x34D0, 1, .field), (0x3500, 1, .safety), (0x3510, 16, .safeIn), (0x3530, 8, .safeOut), (0x3600, 32, .axis), (0x3640, 4, .axisLink), (0x3700, 128, .canObject)] ++
  [(0x3780, 2, .canPort), (0x3800, 1, .record), (0x3810, 6, .stream), (0x3820, 1, .ringWindow), (0x3830, 1, .mapWindow), (0x3838, 1, .dataPort), (0x3840, 8, .trigger), (0x3850, 1, .capture), (0x3860, 1, .chains), (0x4000, 16, .track), (0x4010, 1, .seqCounters), (0x4011, 1, .event), (0x4020, 1, .banks), (0x4021, 1, .load), (0x4022, 1, .patch), (0x4023, 1, .readWindow), (0x5000, 512, .satellite), (0x6000, 64, .imageMap)]

/-- Rows of index 0x1000. -/
def rowsIdentity : List ObjRow :=
  [{ sub := 0x01, cnt := 1, name := "Vendor name", ty := .str 16, acc := .ro, role := 0, dflt := 8314047786272520004 },
   { sub := 0x02, cnt := 1, name := "Product name", ty := .str 16, acc := .ro, role := 0, dflt := 64063556691797005527276364816106808643 },
   { sub := 0x03, cnt := 1, name := "Order number", ty := .str 16, acc := .ro, role := 0, dflt := 14934074045251689487604209476 },
   { sub := 0x04, cnt := 1, name := "Hardware revision", ty := .str 2, acc := .ro, role := 0, dflt := 12353 },
   { sub := 0x05, cnt := 1, name := "Serial number", ty := .u32, acc := .ro, role := 0, dflt := 0 },
   { sub := 0x06, cnt := 1, name := "Manufacture date", ty := .u32, acc := .ro, role := 0, dflt := 0 },
   { sub := 0x07, cnt := 1, name := "MAC, switch ports", ty := .oct 6, acc := .ro, role := 0, dflt := 0 },
   { sub := 0x08, cnt := 1, name := "MAC, P3", ty := .oct 6, acc := .ro, role := 0, dflt := 0 },
   { sub := 0x09, cnt := 1, name := "Running firmware version", ty := .u32, acc := .ro, role := 0, dflt := 0 },
   { sub := 0x0A, cnt := 1, name := "ASIC revision", ty := .u8, acc := .ro, role := 0, dflt := 1 }]

/-- Rows of index 0x1001. -/
def rowsVersions : List ObjRow :=
  [{ sub := 0x01, cnt := 1, name := "Link versions supported", ty := .u8, acc := .ro, role := 0, dflt := 0x0F },
   { sub := 0x02, cnt := 1, name := "Highest profile", ty := .u8, acc := .ro, role := 0, dflt := 3 },
   { sub := 0x03, cnt := 1, name := "Image formats", ty := .u8, acc := .ro, role := 0, dflt := 0x03 },
   { sub := 0x04, cnt := 1, name := "Agreed major", ty := .u8, acc := .ro, role := 0, dflt := 0, per := true },
   { sub := 0x05, cnt := 1, name := "Agreed minor", ty := .u8, acc := .ro, role := 0, dflt := 0, per := true },
   { sub := 0x06, cnt := 1, name := "Agreed profile", ty := .u8, acc := .ro, role := 0, dflt := 0, per := true },
   { sub := 0x07, cnt := 1, name := "Agreed features", ty := .u32, acc := .ro, role := 0, dflt := 0, per := true },
   { sub := 0x08, cnt := 1, name := "Agreed image format", ty := .u8, acc := .ro, role := 0, dflt := 0, per := true },
   { sub := 0x09, cnt := 1, name := "Own association ID", ty := .u8, acc := .ro, role := 0, dflt := 0, per := true },
   { sub := 0x0A, cnt := 1, name := "Own role", ty := .u8, acc := .ro, role := 0, dflt := 0, per := true }]

/-- Rows of index 0x1002. -/
def rowsDescriptor : List ObjRow :=
  [{ sub := 0x01, cnt := 1, name := "Selector", ty := .u32, acc := .rw, role := 0, dflt := 0, per := true },
   { sub := 0x02, cnt := 1, name := "Descriptor", ty := .oct 8, acc := .ro, role := 0, dflt := 0 },
   { sub := 0x03, cnt := 1, name := "Name", ty := .str 32, acc := .ro, role := 0, dflt := 0, prof := 3 },
   { sub := 0x04, cnt := 1, name := "Alias", ty := .str 32, acc := .ro, role := 0, dflt := 0, prof := 3 }]

/-- Rows of index 0x1100. -/
def rowsLink : List ObjRow :=
  [{ sub := 0x01, cnt := 1, name := "Associations", ty := .u8, acc := .ro, role := 0, dflt := 0 },
   { sub := 0x02, cnt := 1, name := "Host associations", ty := .u8, acc := .ro, role := 0, dflt := 0 },
   { sub := 0x03, cnt := 1, name := "Announce", ty := .bool, acc := .rw, role := 2, dflt := 1 },
   { sub := 0x04, cnt := 1, name := "Service on switch ports", ty := .bool, acc := .rw, role := 3, dflt := 0 },
   { sub := 0x05, cnt := 1, name := "Authentication mask", ty := .u8, acc := .rw, role := 3, dflt := 0x08 },
   { sub := 0x06, cnt := 1, name := "Ring manager", ty := .bool, acc := .rw, role := 2, dflt := 0 },
   { sub := 0x07, cnt := 1, name := "EtherType", ty := .u16, acc := .rw, role := 3, dflt := 0x88B5 },
   { sub := 0x08, cnt := 1, name := "UDP port", ty := .u16, acc := .rw, role := 3, dflt := 34980 },
   { sub := 0x09, cnt := 1, name := "IPv4, switch ports", ty := .oct 8, acc := .rw, role := 3, dflt := 0 },
   { sub := 0x0A, cnt := 1, name := "IPv4, P3", ty := .oct 8, acc := .rw, role := 3, dflt := 0 },
   { sub := 0x0B, cnt := 1, name := "Frames discarded", ty := .u32, acc := .ro, role := 0, dflt := 0 },
   { sub := 0x0C, cnt := 1, name := "Losses declared", ty := .u32, acc := .ro, role := 0, dflt := 0 },
   { sub := 0x0D, cnt := 1, name := "Evict", ty := .u8, acc := .wo, role := 3, dflt := 0 },
   { sub := 0x0F, cnt := 1, name := "Switch drops", ty := .u32, acc := .ro, role := 0, dflt := 0 }] ++
  [{ sub := 0x10, cnt := 1, name := "Hall selector", ty := .u8, acc := .rw, role := 0, dflt := 0, per := true },
   { sub := 0x11, cnt := 1, name := "Hall record", ty := .oct 64, acc := .ro, role := 0, dflt := 0 },
   { sub := 0x12, cnt := 1, name := "Ring state", ty := .u8, acc := .ro, role := 0, dflt := 0 },
   { sub := 0x13, cnt := 1, name := "Port links", ty := .u32, acc := .ro, role := 0, dflt := 0 },
   { sub := 0x21, cnt := 4, name := "Role keys", ty := .oct 32, acc := .wo, role := 3, dflt := 0 }]

/-- Rows of index 0x1200. -/
def rowsCommit : List ObjRow :=
  [{ sub := 0x01, cnt := 1, name := "Current tread", ty := .tread, acc := .ro, role := 0, dflt := 0 },
   { sub := 0x02, cnt := 1, name := "Last committed tread", ty := .tread, acc := .ro, role := 0, dflt := 0 },
   { sub := 0x03, cnt := 1, name := "Flight number", ty := .u64, acc := .ro, role := 0, dflt := 0 },
   { sub := 0x04, cnt := 1, name := "Awake tiles", ty := .u32, acc := .ro, role := 0, dflt := 0 },
   { sub := 0x05, cnt := 1, name := "Late-wake count", ty := .u32, acc := .ro, role := 0, dflt := 0 },
   { sub := 0x06, cnt := 1, name := "Commit horizon", ty := .u32, acc := .rw, role := 2, dflt := 100000 },
   { sub := 0x07, cnt := 1, name := "Outstanding transactions", ty := .u16, acc := .ro, role := 0, dflt := 0 },
   { sub := 0x08, cnt := 1, name := "Per-association limit", ty := .u16, acc := .rw, role := 2, dflt := 64 },
   { sub := 0x09, cnt := 1, name := "Superseded count", ty := .u32, acc := .ro, role := 0, dflt := 0 },
   { sub := 0x0A, cnt := 1, name := "Late count", ty := .u32, acc := .ro, role := 0, dflt := 0 },
   { sub := 0x0B, cnt := 1, name := "Overload count", ty := .u32, acc := .ro, role := 0, dflt := 0 },
   { sub := 0x0C, cnt := 1, name := "Commit count", ty := .u16, acc := .ro, role := 0, dflt := 0 },
   { sub := 0x0D, cnt := 1, name := "Journalled tread", ty := .tread, acc := .ro, role := 0, dflt := 0, prof := 2 }]

/-- Rows of index 0x1300. -/
def rowsTimebase : List ObjRow :=
  [{ sub := 0x01, cnt := 1, name := "Status", ty := .u8, acc := .ro, role := 0, dflt := 0 },
   { sub := 0x02, cnt := 1, name := "Reference fault", ty := .bool, acc := .ro, role := 0, dflt := 0 },
   { sub := 0x03, cnt := 1, name := "Offset", ty := .i32, acc := .ro, role := 0, dflt := 0 },
   { sub := 0x04, cnt := 1, name := "Mean path delay", ty := .u32, acc := .ro, role := 0, dflt := 0 },
   { sub := 0x05, cnt := 1, name := "Frequency correction", ty := .i32, acc := .ro, role := 0, dflt := 0 },
   { sub := 0x06, cnt := 1, name := "Holdover frequency", ty := .i32, acc := .ro, role := 0, dflt := 0 },
   { sub := 0x07, cnt := 1, name := "kp", ty := .f32, acc := .rw, role := 2, dflt := 0x3F333333 },
   { sub := 0x08, cnt := 1, name := "ki", ty := .f32, acc := .rw, role := 2, dflt := 0x3E99999A },
   { sub := 0x09, cnt := 1, name := "Delay mechanism", ty := .u8, acc := .rwl, role := 2, dflt := 1 },
   { sub := 0x0A, cnt := 1, name := "Transport", ty := .u8, acc := .rwl, role := 2, dflt := 0 },
   { sub := 0x0B, cnt := 1, name := "Domain", ty := .u8, acc := .rwl, role := 2, dflt := 0 },
   { sub := 0x0C, cnt := 1, name := "Master port identity", ty := .oct 10, acc := .ro, role := 0, dflt := 0 },
   { sub := 0x0D, cnt := 1, name := "UTC offset", ty := .i16, acc := .ro, role := 0, dflt := 0 },
   { sub := 0x0E, cnt := 1, name := "Peer delays", ty := .oct 12, acc := .ro, role := 0, dflt := 0 }] ++
  [{ sub := 0x0F, cnt := 1, name := "Master ports", ty := .u8, acc := .rwl, role := 2, dflt := 0x01 },
   { sub := 0x11, cnt := 1, name := "Set time", ty := .u64, acc := .wo, role := 2, dflt := 0 },
   { sub := 0x12, cnt := 1, name := "Steps", ty := .u32, acc := .ro, role := 0, dflt := 0 },
   { sub := 0x13, cnt := 1, name := "Master changes", ty := .u32, acc := .ro, role := 0, dflt := 0 },
   { sub := 0x14, cnt := 1, name := "Holdover entries", ty := .u32, acc := .ro, role := 0, dflt := 0 },
   { sub := 0x15, cnt := 1, name := "Uncorrected forwards", ty := .u32, acc := .ro, role := 0, dflt := 0 }]

/-- Rows of index 0x1340 + k, k below 16. -/
def rowsTpo : List ObjRow :=
  [{ sub := 0x01, cnt := 1, name := "Mode", ty := .u8, acc := .rwl, role := 2, dflt := 0 },
   { sub := 0x02, cnt := 1, name := "Start", ty := .u64, acc := .rwl, role := 2, dflt := 0 },
   { sub := 0x03, cnt := 1, name := "Period", ty := .u32, acc := .rwl, role := 2, dflt := 1000000 },
   { sub := 0x04, cnt := 1, name := "Width", ty := .u32, acc := .rwl, role := 2, dflt := 1000 },
   { sub := 0x05, cnt := 1, name := "Active low", ty := .bool, acc := .rwl, role := 2, dflt := 0 },
   { sub := 0x06, cnt := 1, name := "Arm", ty := .u8, acc := .rws, role := 1, dflt := 0 },
   { sub := 0x07, cnt := 1, name := "State", ty := .u8, acc := .ro, role := 0, dflt := 0 },
   { sub := 0x08, cnt := 1, name := "Pulses", ty := .u32, acc := .ro, role := 0, dflt := 0 },
   { sub := 0x09, cnt := 1, name := "Pulses lost", ty := .u32, acc := .ro, role := 0, dflt := 0 },
   { sub := 0x0A, cnt := 1, name := "Last pulse", ty := .u64, acc := .ro, role := 0, dflt := 0 }]

/-- Rows of index 0x1400. -/
def rowsReset : List ObjRow :=
  [{ sub := 0x01, cnt := 1, name := "Last reset cause", ty := .u8, acc := .ro, role := 0, dflt := 1 },
   { sub := 0x02, cnt := 1, name := "Last outcome", ty := .u8, acc := .ro, role := 0, dflt := 2 },
   { sub := 0x03, cnt := 1, name := "Outcome reasons", ty := .u16, acc := .ro, role := 0, dflt := 0 },
   { sub := 0x04, cnt := 1, name := "Restored tread", ty := .tread, acc := .ro, role := 0, dflt := 0 },
   { sub := 0x05, cnt := 1, name := "First resumed tread", ty := .tread, acc := .ro, role := 0, dflt := 0 },
   { sub := 0x06, cnt := 1, name := "Gap", ty := .u32, acc := .ro, role := 0, dflt := 0 },
   { sub := 0x07, cnt := 1, name := "Bring-up time", ty := .u32, acc := .ro, role := 0, dflt := 0 },
   { sub := 0x08, cnt := 1, name := "Resume window", ty := .u16, acc := .rw, role := 2, dflt := 50 },
   { sub := 0x09, cnt := 1, name := "Logic resets", ty := .u32, acc := .ro, role := 0, dflt := 0 },
   { sub := 0x0A, cnt := 1, name := "Warm resumptions", ty := .u32, acc := .ro, role := 0, dflt := 0 },
   { sub := 0x0B, cnt := 1, name := "Resumption differences", ty := .u16, acc := .ro, role := 0, dflt := 0 },
   { sub := 0x0C, cnt := 1, name := "Option restarts", ty := .u8, acc := .ro, role := 0, dflt := 0 },
   { sub := 0x0D, cnt := 1, name := "Straps", ty := .u8, acc := .ro, role := 0, dflt := 0 },
   { sub := 0x0E, cnt := 1, name := "Power-cycle count", ty := .u32, acc := .ro, role := 0, dflt := 0 }] ++
  [{ sub := 0x0F, cnt := 1, name := "Running firmware", ty := .u8, acc := .ro, role := 0, dflt := 0 },
   { sub := 0x10, cnt := 1, name := "Service mode", ty := .bool, acc := .ro, role := 0, dflt := 0 },
   { sub := 0x11, cnt := 1, name := "Final checkpoint tread", ty := .tread, acc := .ro, role := 0, dflt := 0 },
   { sub := 0x12, cnt := 1, name := "Last hold-up", ty := .u32, acc := .ro, role := 0, dflt := 0 },
   { sub := 0x20, cnt := 1, name := "Always-awake mask", ty := .u32, acc := .rw, role := 2, dflt := 0x00007FFF },
   { sub := 0x21, cnt := 1, name := "Power state", ty := .u8, acc := .ro, role := 0, dflt := 0 },
   { sub := 0x22, cnt := 1, name := "Power request", ty := .u8, acc := .rws, role := 2, dflt := 0 },
   { sub := 0x23, cnt := 1, name := "Wake sources", ty := .u8, acc := .rw, role := 2, dflt := 0x01 },
   { sub := 0x24, cnt := 1, name := "Wake ports", ty := .u8, acc := .rw, role := 2, dflt := 0x01 },
   { sub := 0x25, cnt := 1, name := "Wake inputs", ty := .oct 24, acc := .rw, role := 2, dflt := 0 },
   { sub := 0x26, cnt := 1, name := "Wake tread", ty := .tread, acc := .rw, role := 2, dflt := 0 },
   { sub := 0x27, cnt := 1, name := "Last wake cause", ty := .u8, acc := .ro, role := 0, dflt := 0 },
   { sub := 0x28, cnt := 1, name := "Wake detail", ty := .u8, acc := .ro, role := 0, dflt := 0 },
   { sub := 0x29, cnt := 1, name := "Standby entries", ty := .u32, acc := .ro, role := 0, dflt := 0 }] ++
  [{ sub := 0x2A, cnt := 1, name := "Last standby length", ty := .u64, acc := .ro, role := 0, dflt := 0 },
   { sub := 0x2B, cnt := 1, name := "Module power", ty := .f32, acc := .ro, role := 0, dflt := 0 },
   { sub := 0x2C, cnt := 1, name := "VLOG voltage", ty := .f32, acc := .ro, role := 0, dflt := 0 },
   { sub := 0x2D, cnt := 1, name := "VHU voltage", ty := .f32, acc := .ro, role := 0, dflt := 0 },
   { sub := 0x2E, cnt := 1, name := "Baseplate temperature", ty := .f32, acc := .ro, role := 0, dflt := 0 },
   { sub := 0x2F, cnt := 1, name := "Power status", ty := .u8, acc := .ro, role := 0, dflt := 0x02 }]

/-- Rows of index 0x1401. -/
def rowsSoftReset : List ObjRow :=
  [{ sub := 0x01, cnt := 1, name := "Software full reset", ty := .u8, acc := .wo, role := 2, dflt := 0 }]

/-- Rows of index 0x1402. -/
def rowsRemoteReset : List ObjRow :=
  [{ sub := 0x01, cnt := 1, name := "Remote reset", ty := .u8, acc := .wo, role := 3, dflt := 0 }]

/-- Rows of index 0x1410. -/
def rowsBlockReset : List ObjRow :=
  [{ sub := 0x01, cnt := 1, name := "Block reset", ty := .u32, acc := .wo, role := 2, dflt := 0 },
   { sub := 0x02, cnt := 1, name := "Blocks in reset", ty := .u32, acc := .ro, role := 0, dflt := 0 }]

/-- Rows of index 0x1500. -/
def rowsGallery : List ObjRow :=
  [{ sub := 0x01, cnt := 1, name := "Cursor", ty := .u16, acc := .rw, role := 0, dflt := 0, per := true },
   { sub := 0x02, cnt := 1, name := "Record window", ty := .oct 256, acc := .ro, role := 0, dflt := 0 },
   { sub := 0x03, cnt := 1, name := "Sequence at cursor", ty := .u32, acc := .ro, role := 0, dflt := 0 },
   { sub := 0x04, cnt := 1, name := "Records held", ty := .u16, acc := .ro, role := 0, dflt := 0 },
   { sub := 0x05, cnt := 1, name := "Gallery state", ty := .u8, acc := .ro, role := 0, dflt := 0 },
   { sub := 0x06, cnt := 1, name := "Next sequence", ty := .u32, acc := .ro, role := 0, dflt := 1 },
   { sub := 0x07, cnt := 1, name := "Full losses", ty := .u32, acc := .ro, role := 0, dflt := 0 },
   { sub := 0x08, cnt := 1, name := "Operating time", ty := .u64, acc := .ro, role := 0, dflt := 0 },
   { sub := 0x09, cnt := 1, name := "Clear", ty := .u8, acc := .wo, role := 3, dflt := 0 },
   { sub := 0x0A, cnt := 1, name := "Clears", ty := .u32, acc := .ro, role := 0, dflt := 0 }]

/-- Rows of index 0x1510. -/
def rowsGalleryCode : List ObjRow :=
  [{ sub := 0x01, cnt := 1, name := "Code selector", ty := .u16, acc := .rw, role := 0, dflt := 1, per := true },
   { sub := 0x02, cnt := 1, name := "Rate limit", ty := .u16, acc := .rw, role := 2, dflt := 4 },
   { sub := 0x03, cnt := 1, name := "Rate window", ty := .u32, acc := .rw, role := 2, dflt := 1000 },
   { sub := 0x04, cnt := 1, name := "Snapshot words", ty := .u8, acc := .ro, role := 0, dflt := 0 },
   { sub := 0x05, cnt := 1, name := "Snapshot list", ty := .oct 224, acc := .rw, role := 2, dflt := 0 },
   { sub := 0x06, cnt := 1, name := "Pending suppressed", ty := .u32, acc := .ro, role := 0, dflt := 0 },
   { sub := 0x07, cnt := 1, name := "Total suppressed", ty := .u32, acc := .ro, role := 0, dflt := 0 },
   { sub := 0x08, cnt := 1, name := "Records written", ty := .u32, acc := .ro, role := 0, dflt := 0 }]

/-- Rows of index 0x1600. -/
def rowsTokens : List ObjRow :=
  [{ sub := 0x01, cnt := 1, name := "Token request", ty := .oct 8, acc := .rws, role := 1, dflt := 0, per := true },
   { sub := 0x02, cnt := 1, name := "Token release", ty := .u8, acc := .rws, role := 1, dflt := 0, per := true },
   { sub := 0x03, cnt := 1, name := "Last grant slot", ty := .u8, acc := .ro, role := 0, dflt := 0, per := true },
   { sub := 0x04, cnt := 1, name := "Last refusal", ty := .oct 8, acc := .ro, role := 0, dflt := 0, per := true },
   { sub := 0x05, cnt := 1, name := "Held resources", ty := .u32, acc := .ro, role := 0, dflt := 0 },
   { sub := 0x06, cnt := 1, name := "Grants held", ty := .u8, acc := .ro, role := 0, dflt := 0 },
   { sub := 0x10, cnt := 16, name := "Grant slot 1–16", ty := .oct 8, acc := .ro, role := 0, dflt := 0 }]

/-- Rows of index 0x1610. -/
def rowsPulseTest : List ObjRow :=
  [{ sub := 0x01, cnt := 1, name := "Pulse test", ty := .oct 4, acc := .wo, role := 2, dflt := 0 },
   { sub := 0x02, cnt := 1, name := "Pulse test result", ty := .u32, acc := .ro, role := 0, dflt := 0 },
   { sub := 0x03, cnt := 1, name := "Pulse test tread", ty := .tread, acc := .ro, role := 0, dflt := 0 }]

/-- Rows of index 0x1620. -/
def rowsFirmware : List ObjRow :=
  [{ sub := 0x01, cnt := 1, name := "Target slot", ty := .u8, acc := .ro, role := 0, dflt := 0 },
   { sub := 0x02, cnt := 1, name := "Image length", ty := .u32, acc := .rwl, role := 3, dflt := 0 },
   { sub := 0x03, cnt := 1, name := "Command", ty := .u8, acc := .rwl, role := 3, dflt := 0 },
   { sub := 0x04, cnt := 1, name := "Load offset", ty := .u32, acc := .rwl, role := 3, dflt := 0 },
   { sub := 0x05, cnt := 1, name := "Load data", ty := .octVar, acc := .rwl, role := 3, dflt := 0 },
   { sub := 0x06, cnt := 1, name := "Target state", ty := .u8, acc := .ro, role := 0, dflt := 0 },
   { sub := 0x07, cnt := 1, name := "Trial remaining", ty := .u16, acc := .ro, role := 0, dflt := 0 },
   { sub := 0x08, cnt := 1, name := "Version, slot A", ty := .u32, acc := .ro, role := 0, dflt := 0 },
   { sub := 0x09, cnt := 1, name := "Failure code", ty := .u8, acc := .ro, role := 0, dflt := 0 },
   { sub := 0x0A, cnt := 1, name := "Version, slot B", ty := .u32, acc := .ro, role := 0, dflt := 0 }]

/-- Rows of index 0x1700 + k, k below 240. -/
def rowsMapped : List ObjRow :=
  [{ sub := 0x01, cnt := 1, name := "Mapped object", ty := .u32, acc := .rwl, role := 2, dflt := 0 },
   { sub := 0x02, cnt := 1, name := "Value", ty := .f32, acc := .ro, role := 0, dflt := 0x7FC00000 },
   { sub := 0x03, cnt := 1, name := "Status", ty := .u8, acc := .ro, role := 0, dflt := 0x01 }]

/-- Rows of index 0x2000. -/
def rowsEngine : List ObjRow :=
  [{ sub := 0x01, cnt := 1, name := "Worst tread load", ty := .u16, acc := .ro, role := 0, dflt := 0 },
   { sub := 0x02, cnt := 1, name := "Primary pair", ty := .u8, acc := .ro, role := 0, dflt := 0 },
   { sub := 0x03, cnt := 1, name := "Pair A state", ty := .u8, acc := .ro, role := 0, dflt := 0 },
   { sub := 0x04, cnt := 1, name := "Pair B state", ty := .u8, acc := .ro, role := 0, dflt := 0 },
   { sub := 0x05, cnt := 1, name := "Pair A miscompares", ty := .u32, acc := .ro, role := 0, dflt := 0 },
   { sub := 0x06, cnt := 1, name := "Pair B miscompares", ty := .u32, acc := .ro, role := 0, dflt := 0 },
   { sub := 0x07, cnt := 1, name := "Takeovers", ty := .u32, acc := .ro, role := 0, dflt := 0 },
   { sub := 0x08, cnt := 1, name := "Cross mismatches", ty := .u32, acc := .ro, role := 0, dflt := 0 },
   { sub := 0x09, cnt := 1, name := "Last resynchronisation", ty := .u8, acc := .ro, role := 0, dflt := 0 },
   { sub := 0x0A, cnt := 1, name := "Double engine faults", ty := .u32, acc := .ro, role := 0, dflt := 0 },
   { sub := 0x0B, cnt := 1, name := "Loops in use", ty := .u16, acc := .ro, role := 0, dflt := 0 },
   { sub := 0x0C, cnt := 1, name := "Invalid inputs", ty := .u32, acc := .ro, role := 0, dflt := 0 },
   { sub := 0x0D, cnt := 1, name := "Overruns", ty := .u32, acc := .ro, role := 0, dflt := 0 },
   { sub := 0x0E, cnt := 1, name := "Return to service", ty := .u8, acc := .wo, role := 3, dflt := 0 }] ++
  [{ sub := 0x10, cnt := 1, name := "Pool entries allocated", ty := .u32, acc := .ro, role := 0, dflt := 0 },
   { sub := 0x11, cnt := 1, name := "Slices cleared", ty := .u32, acc := .ro, role := 0, dflt := 0 },
   { sub := 0x12, cnt := 1, name := "Pool errors", ty := .u32, acc := .ro, role := 0, dflt := 0 }]

/-- Rows of index 0x2200 + k, k below 512. -/
def rowsLoop : List ObjRow :=
  [{ sub := 0x01, cnt := 1, name := "Mode", ty := .u8, acc := .rws, role := 1, dflt := 0 },
   { sub := 0x02, cnt := 1, name := "Target", ty := .f32, acc := .rws, role := 1, dflt := 0 },
   { sub := 0x03, cnt := 1, name := "Process value", ty := .f32, acc := .ro, role := 0, dflt := 0 },
   { sub := 0x04, cnt := 1, name := "Output", ty := .f32, acc := .ro, role := 0, dflt := 0 },
   { sub := 0x05, cnt := 1, name := "Working set-point", ty := .f32, acc := .ro, role := 0, dflt := 0 },
   { sub := 0x06, cnt := 1, name := "Error", ty := .f32, acc := .ro, role := 0, dflt := 0 },
   { sub := 0x07, cnt := 1, name := "Manual output", ty := .f32, acc := .rws, role := 1, dflt := 0 },
   { sub := 0x08, cnt := 1, name := "P term", ty := .f32, acc := .ro, role := 0, dflt := 0 },
   { sub := 0x09, cnt := 1, name := "I term", ty := .f32, acc := .ro, role := 0, dflt := 0 },
   { sub := 0x0A, cnt := 1, name := "D term", ty := .f32, acc := .ro, role := 0, dflt := 0 },
   { sub := 0x0B, cnt := 1, name := "Feed-forward term", ty := .f32, acc := .ro, role := 0, dflt := 0 },
   { sub := 0x0C, cnt := 1, name := "Repetitive term", ty := .f32, acc := .ro, role := 0, dflt := 0 },
   { sub := 0x0D, cnt := 1, name := "Bank in use", ty := .u8, acc := .rws, role := 2, dflt := 0 },
   { sub := 0x0E, cnt := 1, name := "Schedule", ty := .u16, acc := .rwl, role := 2, dflt := 0x0700 }] ++
  [{ sub := 0x0F, cnt := 1, name := "Cascade depth", ty := .u8, acc := .ro, role := 0, dflt := 1 },
   { sub := 0x10, cnt := 1, name := "Process-value source", ty := .sig, acc := .rwl, role := 2, dflt := 0xFFF },
   { sub := 0x11, cnt := 1, name := "Destination", ty := .sig, acc := .rwl, role := 2, dflt := 0xFFF },
   { sub := 0x12, cnt := 1, name := "Feed-forward source", ty := .sig, acc := .rwl, role := 2, dflt := 0xFFF },
   { sub := 0x13, cnt := 1, name := "Tracking source", ty := .sig, acc := .rwl, role := 2, dflt := 0xFFF },
   { sub := 0x14, cnt := 1, name := "Source-lost action", ty := .u8, acc := .rw, role := 2, dflt := 0 },
   { sub := 0x15, cnt := 1, name := "Settle band", ty := .f32, acc := .rw, role := 2, dflt := 0 },
   { sub := 0x16, cnt := 1, name := "Settle dwell", ty := .u16, acc := .rw, role := 2, dflt := 10 },
   { sub := 0x17, cnt := 1, name := "Status flags", ty := .u32, acc := .ro, role := 0, dflt := 0 },
   { sub := 0x18, cnt := 1, name := "Raw process value", ty := .f32, acc := .ro, role := 0, dflt := 0 },
   { sub := 0x19, cnt := 1, name := "Action", ty := .u8, acc := .rwl, role := 2, dflt := 0 },
   { sub := 0x1A, cnt := 1, name := "Bumpless retuning", ty := .bool, acc := .rw, role := 2, dflt := 1 },
   { sub := 0x1B, cnt := 1, name := "Set-point tracking", ty := .bool, acc := .rw, role := 2, dflt := 0 }]

/-- Rows of index 0x2400 + k, k below 512. -/
def rowsCoefA : List ObjRow :=
  [{ sub := 0x01, cnt := 1, name := "kp", ty := .f32, acc := .rws, role := 2, dflt := 0 },
   { sub := 0x02, cnt := 1, name := "ki", ty := .f32, acc := .rws, role := 2, dflt := 0 },
   { sub := 0x03, cnt := 1, name := "kd", ty := .f32, acc := .rws, role := 2, dflt := 0 },
   { sub := 0x04, cnt := 1, name := "α", ty := .f32, acc := .rws, role := 2, dflt := 0x3F800000 },
   { sub := 0x05, cnt := 1, name := "kaw", ty := .f32, acc := .rws, role := 2, dflt := 0 },
   { sub := 0x06, cnt := 1, name := "β", ty := .f32, acc := .rws, role := 2, dflt := 0x3F800000 },
   { sub := 0x07, cnt := 1, name := "kf1", ty := .f32, acc := .rws, role := 2, dflt := 0 },
   { sub := 0x08, cnt := 1, name := "kf2", ty := .f32, acc := .rws, role := 2, dflt := 0 },
   { sub := 0x09, cnt := 1, name := "kfx", ty := .f32, acc := .rws, role := 2, dflt := 0 },
   { sub := 0x0A, cnt := 1, name := "ib0", ty := .f32, acc := .rws, role := 2, dflt := 0x3F800000 },
   { sub := 0x0B, cnt := 1, name := "ib1", ty := .f32, acc := .rws, role := 2, dflt := 0 },
   { sub := 0x0C, cnt := 1, name := "ib2", ty := .f32, acc := .rws, role := 2, dflt := 0 },
   { sub := 0x0D, cnt := 1, name := "ia1", ty := .f32, acc := .rws, role := 2, dflt := 0 },
   { sub := 0x0E, cnt := 1, name := "ia2", ty := .f32, acc := .rws, role := 2, dflt := 0 }] ++
  [{ sub := 0x0F, cnt := 1, name := "ob0", ty := .f32, acc := .rws, role := 2, dflt := 0x3F800000 },
   { sub := 0x10, cnt := 1, name := "ob1", ty := .f32, acc := .rws, role := 2, dflt := 0 },
   { sub := 0x11, cnt := 1, name := "ob2", ty := .f32, acc := .rws, role := 2, dflt := 0 },
   { sub := 0x12, cnt := 1, name := "oa1", ty := .f32, acc := .rws, role := 2, dflt := 0 },
   { sub := 0x13, cnt := 1, name := "oa2", ty := .f32, acc := .rws, role := 2, dflt := 0 },
   { sub := 0x14, cnt := 1, name := "rup", ty := .f32, acc := .rws, role := 2, dflt := 0 },
   { sub := 0x15, cnt := 1, name := "rdn", ty := .f32, acc := .rws, role := 2, dflt := 0 },
   { sub := 0x16, cnt := 1, name := "omin", ty := .f32, acc := .rws, role := 2, dflt := 0 },
   { sub := 0x17, cnt := 1, name := "omax", ty := .f32, acc := .rws, role := 2, dflt := 0 }]

/-- Rows of index 0x2800 + k, k below 512. -/
def rowsProfile : List ObjRow :=
  [{ sub := 0x01, cnt := 1, name := "Velocity limit", ty := .f32, acc := .rws, role := 2, dflt := 0 },
   { sub := 0x02, cnt := 1, name := "Acceleration limit", ty := .f32, acc := .rws, role := 2, dflt := 0 },
   { sub := 0x03, cnt := 1, name := "Jerk limit", ty := .f32, acc := .rws, role := 2, dflt := 0 },
   { sub := 0x04, cnt := 1, name := "Position", ty := .f32, acc := .ro, role := 0, dflt := 0 },
   { sub := 0x05, cnt := 1, name := "Velocity", ty := .f32, acc := .ro, role := 0, dflt := 0 },
   { sub := 0x06, cnt := 1, name := "Acceleration", ty := .f32, acc := .ro, role := 0, dflt := 0 },
   { sub := 0x07, cnt := 1, name := "Time to target", ty := .u32, acc := .ro, role := 0, dflt := 0 },
   { sub := 0x08, cnt := 1, name := "Plan state", ty := .u8, acc := .ro, role := 0, dflt := 0 },
   { sub := 0x09, cnt := 1, name := "Jump", ty := .f32, acc := .rws, role := 1, dflt := 0 },
   { sub := 0x0A, cnt := 1, name := "Limited count", ty := .u32, acc := .ro, role := 0, dflt := 0 }]

/-- Rows of index 0x2A00 + k, k below 512. -/
def rowsRepet : List ObjRow :=
  [{ sub := 0x01, cnt := 1, name := "Enable", ty := .bool, acc := .rws, role := 2, dflt := 0 },
   { sub := 0x02, cnt := 1, name := "Period source", ty := .u8, acc := .rwl, role := 2, dflt := 0 },
   { sub := 0x03, cnt := 1, name := "Reference signal", ty := .sig, acc := .rwl, role := 2, dflt := 0xFFF },
   { sub := 0x04, cnt := 1, name := "Table base", ty := .u32, acc := .rwl, role := 2, dflt := 0 },
   { sub := 0x05, cnt := 1, name := "Table length", ty := .u16, acc := .rwl, role := 2, dflt := 0 },
   { sub := 0x06, cnt := 1, name := "Microsteps per revolution", ty := .u32, acc := .rwl, role := 2, dflt := 0 },
   { sub := 0x07, cnt := 1, name := "Lock tolerance", ty := .u8, acc := .rw, role := 2, dflt := 5 },
   { sub := 0x08, cnt := 1, name := "Learning gain", ty := .f32, acc := .rws, role := 2, dflt := 0 },
   { sub := 0x09, cnt := 1, name := "Tap qm", ty := .f32, acc := .rws, role := 2, dflt := 0 },
   { sub := 0x0A, cnt := 1, name := "Tap q0", ty := .f32, acc := .rws, role := 2, dflt := 0x3F800000 },
   { sub := 0x0B, cnt := 1, name := "Tap qp", ty := .f32, acc := .rws, role := 2, dflt := 0 },
   { sub := 0x0C, cnt := 1, name := "Phase lead", ty := .u16, acc := .rws, role := 2, dflt := 0 },
   { sub := 0x0D, cnt := 1, name := "Table scale", ty := .f32, acc := .rwl, role := 2, dflt := 0x3F800000 },
   { sub := 0x0E, cnt := 1, name := "Freeze on limit", ty := .bool, acc := .rw, role := 2, dflt := 1 }] ++
  [{ sub := 0x0F, cnt := 1, name := "Controller state", ty := .u8, acc := .ro, role := 0, dflt := 0 },
   { sub := 0x10, cnt := 1, name := "Index", ty := .u16, acc := .ro, role := 0, dflt := 0 },
   { sub := 0x11, cnt := 1, name := "Measured period", ty := .f32, acc := .ro, role := 0, dflt := 0 },
   { sub := 0x12, cnt := 1, name := "Clear table", ty := .u8, acc := .wo, role := 2, dflt := 0 },
   { sub := 0x13, cnt := 1, name := "Window offset", ty := .u16, acc := .rw, role := 0, dflt := 0 },
   { sub := 0x14, cnt := 1, name := "Table window", ty := .oct 256, acc := .rwl, role := 2, dflt := 0 },
   { sub := 0x15, cnt := 1, name := "Unlock count", ty := .u32, acc := .ro, role := 0, dflt := 0 }]

/-- Rows of index 0x3000 + k, k below 256. -/
def rowsInput : List ObjRow :=
  [{ sub := 0x01, cnt := 1, name := "Range", ty := .u8, acc := .rwl, role := 2, dflt := 0 },
   { sub := 0x02, cnt := 1, name := "Average count", ty := .u16, acc := .rwl, role := 2, dflt := 1 },
   { sub := 0x03, cnt := 1, name := "Average shift", ty := .u8, acc := .rwl, role := 2, dflt := 0 },
   { sub := 0x04, cnt := 1, name := "Window phase", ty := .u8, acc := .rwl, role := 2, dflt := 0 },
   { sub := 0x05, cnt := 1, name := "Value", ty := .f32, acc := .ro, role := 0, dflt := 0 },
   { sub := 0x06, cnt := 1, name := "Averaged result", ty := .i32, acc := .ro, role := 0, dflt := 0 },
   { sub := 0x07, cnt := 1, name := "Window tread", ty := .tread, acc := .ro, role := 0, dflt := 0 },
   { sub := 0x08, cnt := 1, name := "Status", ty := .u16, acc := .ro, role := 0, dflt := 0x0010 },
   { sub := 0x09, cnt := 1, name := "Linearisation", ty := .u8, acc := .rwl, role := 2, dflt := 0 },
   { sub := 0x0A, cnt := 1, name := "Scale", ty := .f32, acc := .rw, role := 2, dflt := 0x3F800000 },
   { sub := 0x0B, cnt := 1, name := "Offset", ty := .f32, acc := .rw, role := 2, dflt := 0 },
   { sub := 0x0C, cnt := 1, name := "Invalid band low", ty := .f32, acc := .rw, role := 2, dflt := 0 },
   { sub := 0x0D, cnt := 1, name := "Invalid band high", ty := .f32, acc := .rw, role := 2, dflt := 0 },
   { sub := 0x0E, cnt := 1, name := "Open-wire scan", ty := .bool, acc := .rw, role := 2, dflt := 0 }] ++
  [{ sub := 0x0F, cnt := 1, name := "Injected result", ty := .f32, acc := .ro, role := 0, dflt := 0 },
   { sub := 0x10, cnt := 1, name := "Injected tread", ty := .tread, acc := .ro, role := 0, dflt := 0 }]

/-- Rows of index 0x3100 + k, k below 64. -/
def rowsConv : List ObjRow :=
  [{ sub := 0x01, cnt := 1, name := "Busy mode", ty := .u8, acc := .rwl, role := 2, dflt := 0 },
   { sub := 0x02, cnt := 1, name := "Delay trim", ty := .u8, acc := .ro, role := 0, dflt := 0 },
   { sub := 0x03, cnt := 1, name := "Residual skew", ty := .i16, acc := .ro, role := 0, dflt := 0 },
   { sub := 0x04, cnt := 1, name := "Overruns", ty := .u32, acc := .ro, role := 0, dflt := 0 },
   { sub := 0x05, cnt := 1, name := "Injections dropped", ty := .u32, acc := .ro, role := 0, dflt := 0 },
   { sub := 0x06, cnt := 1, name := "Injections deferred", ty := .u32, acc := .ro, role := 0, dflt := 0 },
   { sub := 0x07, cnt := 1, name := "Converter status", ty := .u16, acc := .ro, role := 0, dflt := 0 },
   { sub := 0x08, cnt := 1, name := "Last check deviation", ty := .f32, acc := .ro, role := 0, dflt := 0 },
   { sub := 0x09, cnt := 1, name := "Calibrate", ty := .u8, acc := .wo, role := 2, dflt := 0 },
   { sub := 0x0A, cnt := 1, name := "Calibration state", ty := .u8, acc := .ro, role := 0, dflt := 0 },
   { sub := 0x0B, cnt := 1, name := "Calibration tread", ty := .tread, acc := .ro, role := 0, dflt := 0 },
   { sub := 0x0C, cnt := 1, name := "Checks abandoned", ty := .u32, acc := .ro, role := 0, dflt := 0 }]

/-- Rows of index 0x3140 + k, k below 64. -/
def rowsSequence : List ObjRow :=
  [{ sub := 0x01, cnt := 1, name := "Regular length", ty := .u8, acc := .rwl, role := 2, dflt := 1 },
   { sub := 0x02, cnt := 16, name := "Regular slot 0–15", ty := .u8, acc := .rwl, role := 2, dflt := 0 },
   { sub := 0x12, cnt := 1, name := "Injected length", ty := .u8, acc := .rwl, role := 2, dflt := 0 },
   { sub := 0x13, cnt := 4, name := "Injected slot 0–3", ty := .u8, acc := .rwl, role := 2, dflt := 0 },
   { sub := 0x17, cnt := 1, name := "Trigger inputs", ty := .u8, acc := .rwl, role := 2, dflt := 0 },
   { sub := 0x18, cnt := 1, name := "Acquisition trigger", ty := .u8, acc := .rwl, role := 2, dflt := 0xFF },
   { sub := 0x19, cnt := 1, name := "Trigger edge", ty := .u8, acc := .rwl, role := 2, dflt := 0 }]

/-- Rows of index 0x3180 + k, k below 8. -/
def rowsTile : List ObjRow :=
  [{ sub := 0x01, cnt := 1, name := "Manual DAC value", ty := .f32, acc := .rwl, role := 2, dflt := 0 },
   { sub := 0x02, cnt := 1, name := "DAC mode", ty := .u8, acc := .rwl, role := 2, dflt := 0 },
   { sub := 0x03, cnt := 1, name := "Tile temperature", ty := .f32, acc := .ro, role := 0, dflt := 0 }]

/-- Rows of index 0x3190. -/
def rowsInputs : List ObjRow :=
  [{ sub := 0x01, cnt := 1, name := "Skew calibration", ty := .u8, acc := .wo, role := 2, dflt := 0 },
   { sub := 0x02, cnt := 1, name := "Skew state", ty := .u8, acc := .ro, role := 0, dflt := 0 },
   { sub := 0x03, cnt := 1, name := "Skew tread", ty := .tread, acc := .ro, role := 0, dflt := 0 },
   { sub := 0x04, cnt := 1, name := "Largest residual", ty := .i16, acc := .ro, role := 0, dflt := 0 },
   { sub := 0x05, cnt := 1, name := "Cold junction X2", ty := .f32, acc := .ro, role := 0, dflt := 0 },
   { sub := 0x06, cnt := 1, name := "Cold junction X3", ty := .f32, acc := .ro, role := 0, dflt := 0 },
   { sub := 0x07, cnt := 1, name := "Check limit", ty := .f32, acc := .rw, role := 2, dflt := 0x3B03126F },
   { sub := 0x08, cnt := 1, name := "Fault invalidates", ty := .bool, acc := .rw, role := 2, dflt := 0 },
   { sub := 0x09, cnt := 1, name := "Open-wire threshold", ty := .f32, acc := .rw, role := 2, dflt := 0x3DCCCCCD }]

/-- Rows of index 0x3200 + k, k below 64. -/
def rowsAo : List ObjRow :=
  [{ sub := 0x01, cnt := 1, name := "Range", ty := .u8, acc := .rwl, role := 2, dflt := 0 },
   { sub := 0x02, cnt := 1, name := "Value", ty := .f32, acc := .rws, role := 1, dflt := 0 },
   { sub := 0x03, cnt := 1, name := "Fail state", ty := .f32, acc := .rw, role := 2, dflt := 0 },
   { sub := 0x04, cnt := 1, name := "Readback", ty := .f32, acc := .ro, role := 0, dflt := 0 },
   { sub := 0x05, cnt := 1, name := "Status", ty := .u8, acc := .ro, role := 0, dflt := 0 }]

/-- Rows of index 0x3240 + k, k below 8. -/
def rowsAoGroup : List ObjRow :=
  [{ sub := 0x01, cnt := 1, name := "Deviation limit", ty := .f32, acc := .rw, role := 2, dflt := 0x3D4CCCCD }]

/-- Rows of index 0x3300 + k, k below 192. -/
def rowsDi : List ObjRow :=
  [{ sub := 0x01, cnt := 1, name := "Debounce time", ty := .u16, acc := .rw, role := 2, dflt := 1000 },
   { sub := 0x02, cnt := 1, name := "State", ty := .bool, acc := .ro, role := 0, dflt := 0 },
   { sub := 0x03, cnt := 1, name := "Raw level", ty := .bool, acc := .ro, role := 0, dflt := 0 },
   { sub := 0x04, cnt := 1, name := "Status", ty := .u8, acc := .ro, role := 0, dflt := 0 },
   { sub := 0x05, cnt := 1, name := "Rising edges", ty := .u32, acc := .ro, role := 0, dflt := 0 }]

/-- Rows of index 0x3400 + k, k below 192. -/
def rowsDout : List ObjRow :=
  [{ sub := 0x01, cnt := 1, name := "State", ty := .bool, acc := .rws, role := 1, dflt := 0 },
   { sub := 0x02, cnt := 1, name := "Mode", ty := .u8, acc := .rwl, role := 2, dflt := 0 },
   { sub := 0x03, cnt := 1, name := "Duty fraction", ty := .f32, acc := .rws, role := 1, dflt := 0 },
   { sub := 0x04, cnt := 1, name := "Duty period", ty := .u32, acc := .rwl, role := 2, dflt := 100000 },
   { sub := 0x05, cnt := 1, name := "Fail state", ty := .bool, acc := .rw, role := 2, dflt := 0 },
   { sub := 0x06, cnt := 1, name := "Readback", ty := .bool, acc := .ro, role := 0, dflt := 0 },
   { sub := 0x07, cnt := 1, name := "Dark test", ty := .bool, acc := .rwl, role := 2, dflt := 0 },
   { sub := 0x08, cnt := 1, name := "Dark tests abandoned", ty := .u32, acc := .ro, role := 0, dflt := 0 }]

/-- Rows of index 0x34C0 + k, k below 6. -/
def rowsBank : List ObjRow :=
  [{ sub := 0x01, cnt := 1, name := "Bank state", ty := .u8, acc := .ro, role := 0, dflt := 0 },
   { sub := 0x02, cnt := 1, name := "Enable", ty := .u8, acc := .rws, role := 1, dflt := 1 },
   { sub := 0x03, cnt := 1, name := "Auto re-enable", ty := .bool, acc := .rw, role := 2, dflt := 0 },
   { sub := 0x04, cnt := 1, name := "Fault", ty := .bool, acc := .ro, role := 0, dflt := 0 },
   { sub := 0x05, cnt := 1, name := "Supply voltage", ty := .f32, acc := .ro, role := 0, dflt := 0 },
   { sub := 0x06, cnt := 1, name := "Parallel map", ty := .u32, acc := .rwl, role := 2, dflt := 0 },
   { sub := 0x07, cnt := 1, name := "Input type", ty := .u8, acc := .rwl, role := 2, dflt := 1 },
   { sub := 0x08, cnt := 1, name := "Dark test period", ty := .u32, acc := .rw, role := 2, dflt := 60000 },
   { sub := 0x09, cnt := 1, name := "Dark pulse length", ty := .u16, acc := .rw, role := 2, dflt := 200 },
   { sub := 0x0A, cnt := 1, name := "Fault acknowledge", ty := .u8, acc := .wo, role := 1, dflt := 0 },
   { sub := 0x0B, cnt := 1, name := "Fault rises", ty := .u32, acc := .ro, role := 0, dflt := 0 }]

/-- Rows of index 0x34D0. -/
def rowsField : List ObjRow :=
  [{ sub := 0x01, cnt := 1, name := "Hold window", ty := .u16, acc := .rw, role := 2, dflt := 60 },
   { sub := 0x02, cnt := 1, name := "Hold valid", ty := .bool, acc := .ro, role := 0, dflt := 0 },
   { sub := 0x03, cnt := 1, name := "Link state", ty := .u8, acc := .ro, role := 0, dflt := 0 },
   { sub := 0x04, cnt := 1, name := "Link CRC errors", ty := .u32, acc := .ro, role := 0, dflt := 0 },
   { sub := 0x05, cnt := 1, name := "Fall-back switches", ty := .u32, acc := .ro, role := 0, dflt := 0 },
   { sub := 0x06, cnt := 1, name := "Hold-window warning", ty := .bool, acc := .ro, role := 0, dflt := 0 }]

/-- Rows of index 0x3500. -/
def rowsSafety : List ObjRow :=
  [{ sub := 0x01, cnt := 1, name := "Domain state", ty := .u8, acc := .ro, role := 0, dflt := 0 },
   { sub := 0x02, cnt := 1, name := "Active signature", ty := .u32, acc := .ro, role := 0, dflt := 0 },
   { sub := 0x03, cnt := 1, name := "Pending signature", ty := .u32, acc := .ro, role := 0, dflt := 0 },
   { sub := 0x04, cnt := 1, name := "Reset arm", ty := .u8, acc := .wo, role := 3, dflt := 0 },
   { sub := 0x05, cnt := 1, name := "Challenge", ty := .u16, acc := .ro, role := 3, dflt := 0 },
   { sub := 0x06, cnt := 1, name := "Reset confirm", ty := .u16, acc := .wo, role := 3, dflt := 0 },
   { sub := 0x07, cnt := 1, name := "Degraded window", ty := .u16, acc := .rwl, role := 3, dflt := 60 },
   { sub := 0x08, cnt := 1, name := "Safety resets", ty := .u32, acc := .ro, role := 0, dflt := 0 },
   { sub := 0x09, cnt := 1, name := "Safe stops", ty := .u32, acc := .ro, role := 0, dflt := 0 },
   { sub := 0x0A, cnt := 1, name := "Fixed reaction time", ty := .u16, acc := .ro, role := 0, dflt := 6000 },
   { sub := 0x0B, cnt := 1, name := "Arming failure", ty := .u16, acc := .ro, role := 0, dflt := 0 }]

/-- Rows of index 0x3510 + k, k below 16. -/
def rowsSafeIn : List ObjRow :=
  [{ sub := 0x01, cnt := 1, name := "Mode", ty := .u8, acc := .rwl, role := 3, dflt := 0 },
   { sub := 0x02, cnt := 1, name := "Debounce time", ty := .u8, acc := .rwl, role := 3, dflt := 3 },
   { sub := 0x03, cnt := 1, name := "Discrepancy time", ty := .u16, acc := .rwl, role := 3, dflt := 100 },
   { sub := 0x04, cnt := 1, name := "Supply, channel A", ty := .u8, acc := .rwl, role := 3, dflt := 0 },
   { sub := 0x05, cnt := 1, name := "Supply, channel B", ty := .u8, acc := .rwl, role := 3, dflt := 0 },
   { sub := 0x06, cnt := 1, name := "Status", ty := .u16, acc := .ro, role := 0, dflt := 0 },
   { sub := 0x07, cnt := 1, name := "Channel levels", ty := .u8, acc := .ro, role := 0, dflt := 0 },
   { sub := 0x08, cnt := 1, name := "Fault code", ty := .u8, acc := .ro, role := 0, dflt := 0 },
   { sub := 0x09, cnt := 1, name := "Fault reset", ty := .u8, acc := .wo, role := 1, dflt := 0 },
   { sub := 0x0A, cnt := 1, name := "Degraded remaining", ty := .u32, acc := .ro, role := 0, dflt := 0 }]

/-- Rows of index 0x3530 + k, k below 8. -/
def rowsSafeOut : List ObjRow :=
  [{ sub := 0x01, cnt := 1, name := "Mode", ty := .u8, acc := .rwl, role := 3, dflt := 0 },
   { sub := 0x02, cnt := 1, name := "Input mask", ty := .u16, acc := .rwl, role := 3, dflt := 0 },
   { sub := 0x03, cnt := 1, name := "Restart mode", ty := .u8, acc := .rwl, role := 3, dflt := 0 },
   { sub := 0x04, cnt := 1, name := "Off delay", ty := .u16, acc := .rwl, role := 3, dflt := 0 },
   { sub := 0x05, cnt := 1, name := "Bank mask", ty := .u8, acc := .rwl, role := 3, dflt := 0 },
   { sub := 0x06, cnt := 1, name := "Logic-loss action", ty := .u8, acc := .rwl, role := 3, dflt := 0 },
   { sub := 0x07, cnt := 1, name := "Dark test period", ty := .u32, acc := .rwl, role := 3, dflt := 3600 },
   { sub := 0x08, cnt := 1, name := "Dark pulse length", ty := .u16, acc := .rwl, role := 3, dflt := 300 },
   { sub := 0x09, cnt := 1, name := "Restart", ty := .u8, acc := .wo, role := 1, dflt := 0 },
   { sub := 0x0A, cnt := 1, name := "Host request", ty := .bool, acc := .rws, role := 1, dflt := 0 },
   { sub := 0x0B, cnt := 1, name := "Request set", ty := .u32, acc := .ro, role := 0, dflt := 0 },
   { sub := 0x0C, cnt := 1, name := "Fault code", ty := .u8, acc := .ro, role := 0, dflt := 0 },
   { sub := 0x0D, cnt := 1, name := "Fault reset", ty := .u8, acc := .wo, role := 1, dflt := 0 },
   { sub := 0x0E, cnt := 1, name := "Degraded remaining", ty := .u32, acc := .ro, role := 0, dflt := 0 }] ++
  [{ sub := 0x0F, cnt := 1, name := "Dark tests abandoned", ty := .u32, acc := .ro, role := 0, dflt := 0 },
   { sub := 0x10, cnt := 1, name := "State", ty := .u8, acc := .ro, role := 0, dflt := 0 }]

/-- Rows of index 0x3600 + k, k below 32. -/
def rowsAxis : List ObjRow :=
  [{ sub := 0x01, cnt := 1, name := "Enable", ty := .u8, acc := .rws, role := 1, dflt := 0 },
   { sub := 0x02, cnt := 1, name := "State", ty := .u8, acc := .ro, role := 0, dflt := 0 },
   { sub := 0x03, cnt := 1, name := "Commanded position", ty := .i64, acc := .ro, role := 0, dflt := 0 },
   { sub := 0x04, cnt := 1, name := "Velocity", ty := .f32, acc := .ro, role := 0, dflt := 0 },
   { sub := 0x05, cnt := 1, name := "Velocity limit", ty := .f32, acc := .rws, role := 2, dflt := 0x47480000 },
   { sub := 0x06, cnt := 1, name := "Acceleration limit", ty := .f32, acc := .rws, role := 2, dflt := 0x48FA0000 },
   { sub := 0x07, cnt := 1, name := "Jerk limit", ty := .f32, acc := .rws, role := 2, dflt := 0 },
   { sub := 0x08, cnt := 1, name := "Blend velocity", ty := .f32, acc := .rws, role := 2, dflt := 0 },
   { sub := 0x09, cnt := 1, name := "Stop deceleration", ty := .f32, acc := .rws, role := 2, dflt := 0 },
   { sub := 0x0A, cnt := 1, name := "Emergency deceleration", ty := .f32, acc := .rwl, role := 2, dflt := 0x4A9C4000 },
   { sub := 0x0B, cnt := 1, name := "Emergency jerk", ty := .f32, acc := .rwl, role := 2, dflt := 0 },
   { sub := 0x0C, cnt := 1, name := "Safety stop mode", ty := .u8, acc := .rwl, role := 2, dflt := 0 },
   { sub := 0x0D, cnt := 1, name := "Safety pair mask", ty := .u8, acc := .rwl, role := 2, dflt := 0 },
   { sub := 0x0E, cnt := 1, name := "Run current scale", ty := .u8, acc := .rws, role := 2, dflt := 32 }] ++
  [{ sub := 0x0F, cnt := 1, name := "Hold current scale", ty := .u8, acc := .rws, role := 2, dflt := 16 },
   { sub := 0x10, cnt := 1, name := "Hold delay", ty := .u16, acc := .rw, role := 2, dflt := 100 },
   { sub := 0x11, cnt := 5, name := "Thresholds T1–T5", ty := .f32, acc := .rwl, role := 2, dflt := 0 },
   { sub := 0x16, cnt := 1, name := "Move", ty := .oct 8, acc := .wo, role := 1, dflt := 0 },
   { sub := 0x17, cnt := 1, name := "Stop", ty := .u8, acc := .wo, role := 1, dflt := 0 },
   { sub := 0x18, cnt := 1, name := "Queue depth", ty := .u8, acc := .ro, role := 0, dflt := 0 },
   { sub := 0x19, cnt := 1, name := "Status flags", ty := .u16, acc := .ro, role := 0, dflt := 0 },
   { sub := 0x1A, cnt := 1, name := "Stage status", ty := .u16, acc := .ro, role := 0, dflt := 0 },
   { sub := 0x1B, cnt := 1, name := "Fault code", ty := .u8, acc := .ro, role := 0, dflt := 0 },
   { sub := 0x1C, cnt := 1, name := "Fault command", ty := .u8, acc := .wo, role := 1, dflt := 0 },
   { sub := 0x1D, cnt := 1, name := "Phase offset", ty := .i64, acc := .ro, role := 0, dflt := 0 },
   { sub := 0x1E, cnt := 1, name := "Re-reference change", ty := .i32, acc := .ro, role := 0, dflt := 0 },
   { sub := 0x1F, cnt := 1, name := "Resolution", ty := .u8, acc := .ro, role := 0, dflt := 0 },
   { sub := 0x20, cnt := 1, name := "Set position", ty := .i32, acc := .wo, role := 2, dflt := 0 }]

/-- Rows of index 0x3640 + k, k below 4. -/
def rowsAxisLink : List ObjRow :=
  [{ sub := 0x01, cnt := 1, name := "Valid mask", ty := .u8, acc := .rwl, role := 2, dflt := 0 },
   { sub := 0x02, cnt := 1, name := "Link state", ty := .u8, acc := .ro, role := 0, dflt := 0 },
   { sub := 0x03, cnt := 1, name := "Frames sent", ty := .u32, acc := .ro, role := 0, dflt := 0 },
   { sub := 0x04, cnt := 1, name := "Return errors", ty := .u32, acc := .ro, role := 0, dflt := 0 },
   { sub := 0x05, cnt := 1, name := "Link faults", ty := .u32, acc := .ro, role := 0, dflt := 0 }]

/-- Rows of index 0x3700 + k, k below 128. -/
def rowsCanObject : List ObjRow :=
  [{ sub := 0x01, cnt := 1, name := "Mode", ty := .u8, acc := .rwl, role := 2, dflt := 0 },
   { sub := 0x02, cnt := 1, name := "Identifier", ty := .u32, acc := .rwl, role := 2, dflt := 0 },
   { sub := 0x03, cnt := 1, name := "Mask", ty := .u32, acc := .rwl, role := 2, dflt := 0x1FFFFFFF },
   { sub := 0x04, cnt := 1, name := "Length", ty := .u8, acc := .rwl, role := 2, dflt := 8 },
   { sub := 0x05, cnt := 1, name := "Mapping", ty := .u16, acc := .rwl, role := 2, dflt := 0 },
   { sub := 0x06, cnt := 1, name := "Scale", ty := .f32, acc := .rwl, role := 2, dflt := 0x3F800000 },
   { sub := 0x07, cnt := 1, name := "Offset", ty := .f32, acc := .rwl, role := 2, dflt := 0 },
   { sub := 0x08, cnt := 1, name := "Data", ty := .oct 64, acc := .rws, role := 1, dflt := 0 },
   { sub := 0x09, cnt := 1, name := "Send", ty := .u8, acc := .wo, role := 1, dflt := 0 },
   { sub := 0x0A, cnt := 1, name := "Period", ty := .u32, acc := .rwl, role := 2, dflt := 0 },
   { sub := 0x0B, cnt := 1, name := "Retry limit", ty := .u8, acc := .rw, role := 2, dflt := 15 },
   { sub := 0x0C, cnt := 1, name := "Status", ty := .u8, acc := .ro, role := 0, dflt := 0 },
   { sub := 0x0D, cnt := 1, name := "Stale time", ty := .u32, acc := .rw, role := 2, dflt := 0 },
   { sub := 0x0E, cnt := 1, name := "Frames", ty := .u32, acc := .ro, role := 0, dflt := 0 }] ++
  [{ sub := 0x0F, cnt := 1, name := "Merged or overwritten", ty := .u32, acc := .ro, role := 0, dflt := 0 }]

/-- Rows of index 0x3780 + k, k below 2. -/
def rowsCanPort : List ObjRow :=
  [{ sub := 0x01, cnt := 1, name := "Enable", ty := .bool, acc := .rw, role := 2, dflt := 0 },
   { sub := 0x02, cnt := 1, name := "Nominal timing", ty := .u32, acc := .rwl, role := 2, dflt := 0x00F1E7C1 },
   { sub := 0x03, cnt := 1, name := "Data timing", ty := .u32, acc := .rwl, role := 2, dflt := 0x0105DFC0 },
   { sub := 0x04, cnt := 1, name := "Listen-only", ty := .bool, acc := .rwl, role := 2, dflt := 0 },
   { sub := 0x05, cnt := 1, name := "Automatic recovery", ty := .bool, acc := .rw, role := 2, dflt := 1 },
   { sub := 0x06, cnt := 1, name := "Recover", ty := .u8, acc := .wo, role := 1, dflt := 0 },
   { sub := 0x07, cnt := 1, name := "Port state", ty := .u8, acc := .ro, role := 0, dflt := 0 },
   { sub := 0x08, cnt := 1, name := "Transmit errors", ty := .u8, acc := .ro, role := 0, dflt := 0 },
   { sub := 0x09, cnt := 1, name := "Receive errors", ty := .u8, acc := .ro, role := 0, dflt := 0 },
   { sub := 0x0A, cnt := 1, name := "Bus-offs", ty := .u32, acc := .ro, role := 0, dflt := 0 },
   { sub := 0x0B, cnt := 1, name := "Queue count", ty := .u8, acc := .ro, role := 0, dflt := 0 },
   { sub := 0x0C, cnt := 1, name := "Queue drops", ty := .u32, acc := .ro, role := 0, dflt := 0 },
   { sub := 0x0D, cnt := 1, name := "Access service", ty := .u8, acc := .rwl, role := 2, dflt := 0 },
   { sub := 0x0E, cnt := 1, name := "Request identifier", ty := .u32, acc := .rwl, role := 2, dflt := 0 }] ++
  [{ sub := 0x0F, cnt := 1, name := "Response identifier", ty := .u32, acc := .rwl, role := 2, dflt := 0 },
   { sub := 0x10, cnt := 1, name := "Queue window", ty := .oct 88, acc := .ro, role := 1, dflt := 0 },
   { sub := 0x11, cnt := 1, name := "Acknowledge", ty := .u32, acc := .wo, role := 1, dflt := 0 },
   { sub := 0x12, cnt := 1, name := "Access association", ty := .u8, acc := .ro, role := 0, dflt := 0 },
   { sub := 0x13, cnt := 1, name := "Transmit failures", ty := .u32, acc := .ro, role := 0, dflt := 0 }]

/-- Rows of index 0x3800. -/
def rowsRecord : List ObjRow :=
  [{ sub := 0x02, cnt := 1, name := "Ring blocks", ty := .u32, acc := .ro, role := 0, dflt := 1966080 },
   { sub := 0x03, cnt := 1, name := "Newest ring sequence", ty := .u64, acc := .ro, role := 0, dflt := 0 },
   { sub := 0x04, cnt := 1, name := "Oldest ring sequence", ty := .u64, acc := .ro, role := 0, dflt := 0 },
   { sub := 0x05, cnt := 1, name := "Block age limit", ty := .u16, acc := .rw, role := 2, dflt := 10 },
   { sub := 0x06, cnt := 1, name := "Ring write rate", ty := .u32, acc := .ro, role := 0, dflt := 0 }]

/-- Rows of index 0x3810 + k, k below 6. -/
def rowsStream : List ObjRow :=
  [{ sub := 0x01, cnt := 1, name := "Stream enable", ty := .bool, acc := .rw, role := 2, dflt := 1 },
   { sub := 0x02, cnt := 1, name := "Selection", ty := .oct 64, acc := .rw, role := 2, dflt := (2 ^ 512 - 1) },
   { sub := 0x03, cnt := 1, name := "Channel-map ID", ty := .u16, acc := .ro, role := 0, dflt := 0 },
   { sub := 0x04, cnt := 1, name := "Blocks written", ty := .u32, acc := .ro, role := 0, dflt := 0 },
   { sub := 0x05, cnt := 1, name := "Blocks dropped", ty := .u32, acc := .ro, role := 0, dflt := 0 },
   { sub := 0x06, cnt := 1, name := "Gap treads", ty := .u64, acc := .ro, role := 0, dflt := 0 },
   { sub := 0x07, cnt := 1, name := "Last gap first tread", ty := .tread, acc := .ro, role := 0, dflt := 0 },
   { sub := 0x08, cnt := 1, name := "Last gap length", ty := .u32, acc := .ro, role := 0, dflt := 0 }]

/-- Rows of index 0x3820. -/
def rowsRingWindow : List ObjRow :=
  [{ sub := 0x01, cnt := 1, name := "Ring read sequence", ty := .u64, acc := .rw, role := 0, dflt := 0, per := true },
   { sub := 0x02, cnt := 1, name := "Ring window", ty := .oct 4096, acc := .ro, role := 0, dflt := 0 }]

/-- Rows of index 0x3830. -/
def rowsMapWindow : List ObjRow :=
  [{ sub := 0x01, cnt := 1, name := "Map selector", ty := .u32, acc := .rw, role := 0, dflt := 0, per := true },
   { sub := 0x02, cnt := 1, name := "Map window", ty := .oct 4096, acc := .ro, role := 0, dflt := 0 }]

/-- Rows of index 0x3838. -/
def rowsDataPort : List ObjRow :=
  [{ sub := 0x01, cnt := 1, name := "Port enable", ty := .bool, acc := .rw, role := 2, dflt := 0 },
   { sub := 0x02, cnt := 1, name := "Framing", ty := .u8, acc := .rwl, role := 2, dflt := 0 },
   { sub := 0x03, cnt := 1, name := "EtherType", ty := .u16, acc := .rwl, role := 2, dflt := 0x88B6 },
   { sub := 0x04, cnt := 1, name := "Destination MAC", ty := .oct 6, acc := .rwl, role := 2, dflt := 0 },
   { sub := 0x05, cnt := 1, name := "Source IPv4", ty := .u32, acc := .rwl, role := 2, dflt := 0 },
   { sub := 0x06, cnt := 1, name := "Destination IPv4", ty := .u32, acc := .rwl, role := 2, dflt := 0 },
   { sub := 0x07, cnt := 1, name := "Destination UDP port", ty := .u16, acc := .rwl, role := 2, dflt := 34981 },
   { sub := 0x08, cnt := 1, name := "Source UDP port", ty := .u16, acc := .rwl, role := 2, dflt := 34981 },
   { sub := 0x09, cnt := 1, name := "VLAN", ty := .u16, acc := .rwl, role := 2, dflt := 0 },
   { sub := 0x0A, cnt := 1, name := "Start point", ty := .u8, acc := .rwl, role := 2, dflt := 0 },
   { sub := 0x0B, cnt := 1, name := "Honour PAUSE", ty := .bool, acc := .rwl, role := 2, dflt := 0 },
   { sub := 0x0C, cnt := 1, name := "Frames sent", ty := .u32, acc := .ro, role := 0, dflt := 0 },
   { sub := 0x0D, cnt := 1, name := "Blocks skipped", ty := .u32, acc := .ro, role := 0, dflt := 0 },
   { sub := 0x0E, cnt := 1, name := "Link state", ty := .u8, acc := .ro, role := 0, dflt := 0 }] ++
  [{ sub := 0x0F, cnt := 1, name := "Next to send", ty := .u64, acc := .ro, role := 0, dflt := 0 }]

/-- Rows of index 0x3840 + k, k below 8. -/
def rowsTrigger : List ObjRow :=
  [{ sub := 0x01, cnt := 1, name := "Kind", ty := .u8, acc := .rwl, role := 2, dflt := 0 },
   { sub := 0x02, cnt := 1, name := "Source signal", ty := .sig, acc := .rwl, role := 2, dflt := 0xFFF },
   { sub := 0x03, cnt := 1, name := "Raw source", ty := .u8, acc := .rwl, role := 2, dflt := 0xFF },
   { sub := 0x04, cnt := 1, name := "Condition", ty := .u8, acc := .rwl, role := 2, dflt := 0 },
   { sub := 0x05, cnt := 1, name := "Threshold, low", ty := .f32, acc := .rwl, role := 2, dflt := 0 },
   { sub := 0x06, cnt := 1, name := "High", ty := .f32, acc := .rwl, role := 2, dflt := 0 },
   { sub := 0x07, cnt := 1, name := "Hysteresis", ty := .f32, acc := .rwl, role := 2, dflt := 0 },
   { sub := 0x08, cnt := 1, name := "Step or TRG", ty := .u32, acc := .rwl, role := 2, dflt := 0 },
   { sub := 0x09, cnt := 1, name := "Pre-trigger", ty := .u16, acc := .rwl, role := 2, dflt := 0 },
   { sub := 0x0A, cnt := 1, name := "Post-trigger", ty := .u16, acc := .rwl, role := 2, dflt := 0 },
   { sub := 0x0B, cnt := 1, name := "Hold-off mode", ty := .u8, acc := .rwl, role := 2, dflt := 0 },
   { sub := 0x0C, cnt := 1, name := "Hold-off value", ty := .u32, acc := .rwl, role := 2, dflt := 0 },
   { sub := 0x0D, cnt := 1, name := "Captures to take", ty := .u16, acc := .rwl, role := 2, dflt := 0 },
   { sub := 0x0E, cnt := 1, name := "Arm", ty := .u8, acc := .rws, role := 1, dflt := 0 }] ++
  [{ sub := 0x0F, cnt := 1, name := "State", ty := .u8, acc := .ro, role := 0, dflt := 0 },
   { sub := 0x10, cnt := 1, name := "Fires", ty := .u32, acc := .ro, role := 0, dflt := 0 },
   { sub := 0x11, cnt := 1, name := "Ignored", ty := .u32, acc := .ro, role := 0, dflt := 0 },
   { sub := 0x12, cnt := 1, name := "Last trigger tread", ty := .tread, acc := .ro, role := 0, dflt := 0 },
   { sub := 0x13, cnt := 1, name := "Last offset", ty := .u16, acc := .ro, role := 0, dflt := 0 }]

/-- Rows of index 0x3850. -/
def rowsCapture : List ObjRow :=
  [{ sub := 0x01, cnt := 16, name := "Capture slot 0–15", ty := .sig, acc := .rwl, role := 2, dflt := 0xFFF },
   { sub := 0x11, cnt := 1, name := "Capture map ID", ty := .u16, acc := .ro, role := 0, dflt := 0 },
   { sub := 0x12, cnt := 1, name := "Open windows", ty := .u8, acc := .ro, role := 0, dflt := 0 },
   { sub := 0x13, cnt := 1, name := "Captures completed", ty := .u32, acc := .ro, role := 0, dflt := 0 },
   { sub := 0x14, cnt := 1, name := "Captures refused", ty := .u32, acc := .ro, role := 0, dflt := 0 },
   { sub := 0x15, cnt := 1, name := "Pre-trigger held", ty := .u16, acc := .ro, role := 0, dflt := 0 }]

/-- Rows of index 0x3860. -/
def rowsChains : List ObjRow :=
  [{ sub := 0x01, cnt := 1, name := "S2 chain drops", ty := .u32, acc := .ro, role := 0, dflt := 0 },
   { sub := 0x02, cnt := 1, name := "S4 chain drops", ty := .u32, acc := .ro, role := 0, dflt := 0 }]

/-- Rows of index 0x4000 + k, k below 16. -/
def rowsTrack : List ObjRow :=
  [{ sub := 0x01, cnt := 1, name := "Command", ty := .u32, acc := .rws, role := 1, dflt := 0 },
   { sub := 0x02, cnt := 1, name := "State", ty := .u8, acc := .ro, role := 0, dflt := 0 },
   { sub := 0x03, cnt := 1, name := "Current step", ty := .u16, acc := .ro, role := 0, dflt := 0xFFFF },
   { sub := 0x04, cnt := 1, name := "Step entry tread", ty := .tread, acc := .ro, role := 0, dflt := 0 },
   { sub := 0x05, cnt := 1, name := "Step timer", ty := .u32, acc := .ro, role := 0, dflt := 0 },
   { sub := 0x06, cnt := 1, name := "Entry point", ty := .u8, acc := .ro, role := 0, dflt := 0xFF },
   { sub := 0x07, cnt := 1, name := "Default landing", ty := .u8, acc := .ro, role := 0, dflt := 0xFF },
   { sub := 0x08, cnt := 1, name := "Current landing", ty := .u8, acc := .ro, role := 0, dflt := 0xFF },
   { sub := 0x09, cnt := 1, name := "Landing cause", ty := .u8, acc := .ro, role := 0, dflt := 0 },
   { sub := 0x0A, cnt := 1, name := "Last exit", ty := .u8, acc := .ro, role := 0, dflt := 0 },
   { sub := 0x0B, cnt := 1, name := "Owner", ty := .u8, acc := .ro, role := 0, dflt := 0 },
   { sub := 0x0C, cnt := 1, name := "Fault mask", ty := .u32, acc := .rwl, role := 2, dflt := 0x00000000 },
   { sub := 0x0D, cnt := 1, name := "Steps entered", ty := .u32, acc := .ro, role := 0, dflt := 0 }]

/-- Rows of index 0x4010. -/
def rowsSeqCounters : List ObjRow :=
  [{ sub := 0x01, cnt := 1, name := "Running tracks", ty := .u16, acc := .ro, role := 0, dflt := 0 },
   { sub := 0x02, cnt := 1, name := "Action refusals", ty := .u32, acc := .ro, role := 0, dflt := 0 },
   { sub := 0x03, cnt := 1, name := "Cross-track conflicts", ty := .u32, acc := .ro, role := 0, dflt := 0 },
   { sub := 0x04, cnt := 1, name := "Entry CRC failures", ty := .u32, acc := .ro, role := 0, dflt := 0 },
   { sub := 0x05, cnt := 1, name := "Landings", ty := .u32, acc := .ro, role := 0, dflt := 0 }]

/-- Rows of index 0x4011. -/
def rowsEvent : List ObjRow :=
  [{ sub := 0x01, cnt := 32, name := "Host event flag 0–31", ty := .bool, acc := .rws, role := 1, dflt := 0 }]

/-- Rows of index 0x4020. -/
def rowsBanks : List ObjRow :=
  [{ sub := 0x01, cnt := 1, name := "Active bank", ty := .u8, acc := .ro, role := 0, dflt := 0xFF },
   { sub := 0x02, cnt := 1, name := "Active image ID", ty := .u32, acc := .ro, role := 0, dflt := 0 },
   { sub := 0x03, cnt := 1, name := "Active format", ty := .u8, acc := .ro, role := 0, dflt := 0 },
   { sub := 0x04, cnt := 1, name := "Patch count", ty := .u32, acc := .ro, role := 0, dflt := 0 },
   { sub := 0x05, cnt := 1, name := "Shadow image ID", ty := .u32, acc := .ro, role := 0, dflt := 0 },
   { sub := 0x06, cnt := 1, name := "Shadow format", ty := .u8, acc := .ro, role := 0, dflt := 0 },
   { sub := 0x07, cnt := 1, name := "Shadow state", ty := .u8, acc := .ro, role := 0, dflt := 0 },
   { sub := 0x08, cnt := 1, name := "Validation result", ty := .u16, acc := .ro, role := 0, dflt := 0 },
   { sub := 0x09, cnt := 1, name := "Failing table", ty := .u8, acc := .ro, role := 0, dflt := 0 },
   { sub := 0x0A, cnt := 1, name := "Failing index", ty := .u32, acc := .ro, role := 0, dflt := 0 },
   { sub := 0x0B, cnt := 1, name := "Swap", ty := .u32, acc := .rws, role := 2, dflt := 0 },
   { sub := 0x0C, cnt := 1, name := "Swap count", ty := .u32, acc := .ro, role := 0, dflt := 0 },
   { sub := 0x0D, cnt := 1, name := "Last swap tread", ty := .tread, acc := .ro, role := 0, dflt := 0 },
   { sub := 0x0E, cnt := 1, name := "Active description", ty := .str 32, acc := .ro, role := 0, dflt := 0, prof := 2 }]

/-- Rows of index 0x4021. -/
def rowsLoad : List ObjRow :=
  [{ sub := 0x02, cnt := 1, name := "Declared format", ty := .u8, acc := .rwl, role := 2, dflt := 3 },
   { sub := 0x03, cnt := 1, name := "Declared length", ty := .u32, acc := .rwl, role := 2, dflt := 0 },
   { sub := 0x04, cnt := 1, name := "Load offset", ty := .u32, acc := .rwl, role := 2, dflt := 0 },
   { sub := 0x05, cnt := 1, name := "Load data", ty := .octVar, acc := .rwl, role := 2, dflt := 0 },
   { sub := 0x06, cnt := 1, name := "Bytes received", ty := .u32, acc := .ro, role := 0, dflt := 0 },
   { sub := 0x07, cnt := 1, name := "Load command", ty := .u8, acc := .rwl, role := 2, dflt := 0 }]

/-- Rows of index 0x4022. -/
def rowsPatch : List ObjRow :=
  [{ sub := 0x01, cnt := 254, name := "Patch slot 1–254", ty := .oct 8, acc := .wo, role := 2, dflt := 0 }]

/-- Rows of index 0x4023. -/
def rowsReadWindow : List ObjRow :=
  [{ sub := 0x01, cnt := 1, name := "Read selector", ty := .u32, acc := .rw, role := 0, dflt := 0, per := true },
   { sub := 0x02, cnt := 1, name := "Read window", ty := .oct 64, acc := .ro, role := 0, dflt := 0 },
   { sub := 0x03, cnt := 1, name := "Entry-point name", ty := .str 8, acc := .ro, role := 0, dflt := 0, prof := 2 }]

/-- Rows of index 0x5000 + k, k below 512. -/
def rowsSatellite : List ObjRow :=
  [{ sub := 0x01, cnt := 1, name := "Node ID", ty := .u32, acc := .rwl, role := 2, dflt := 0, prof := 2 },
   { sub := 0x02, cnt := 1, name := "Direction", ty := .u8, acc := .rwl, role := 2, dflt := 0, prof := 2 },
   { sub := 0x03, cnt := 1, name := "Value", ty := .f32, acc := .rws, role := 1, dflt := 0, prof := 2 },
   { sub := 0x04, cnt := 1, name := "Status", ty := .u8, acc := .ro, role := 0, dflt := 0x06, prof := 2 },
   { sub := 0x05, cnt := 1, name := "Bound association", ty := .u8, acc := .ro, role := 0, dflt := 0, prof := 2 },
   { sub := 0x06, cnt := 1, name := "Last delivery", ty := .tread, acc := .ro, role := 0, dflt := 0, prof := 2 }]

/-- Rows of index 0x6000 + k, k below 64. -/
def rowsImageMap : List ObjRow :=
  [{ sub := 0x01, cnt := 1, name := "Direction", ty := .u8, acc := .rwl, role := 2, dflt := 0 },
   { sub := 0x02, cnt := 1, name := "Association", ty := .u8, acc := .rwl, role := 2, dflt := 0 },
   { sub := 0x03, cnt := 1, name := "Period", ty := .u32, acc := .rwl, role := 2, dflt := 100 },
   { sub := 0x04, cnt := 1, name := "Phase", ty := .u32, acc := .rwl, role := 2, dflt := 0 },
   { sub := 0x05, cnt := 1, name := "Entry count", ty := .u8, acc := .rwl, role := 2, dflt := 0 },
   { sub := 0x06, cnt := 1, name := "Enable", ty := .bool, acc := .rw, role := 2, dflt := 0 },
   { sub := 0x07, cnt := 1, name := "State", ty := .u8, acc := .ro, role := 0, dflt := 0 },
   { sub := 0x08, cnt := 1, name := "Images", ty := .u32, acc := .ro, role := 0, dflt := 0 },
   { sub := 0x09, cnt := 1, name := "Failures", ty := .u32, acc := .ro, role := 0, dflt := 0 },
   { sub := 0x0A, cnt := 1, name := "Last failure status", ty := .u8, acc := .ro, role := 0, dflt := 0 },
   { sub := 0x0B, cnt := 1, name := "Last failure position", ty := .u16, acc := .ro, role := 0, dflt := 0xFFFF },
   { sub := 0x0C, cnt := 1, name := "Data size", ty := .u16, acc := .ro, role := 0, dflt := 0 },
   { sub := 0x0D, cnt := 1, name := "Node ID", ty := .u32, acc := .rwl, role := 2, dflt := 0, prof := 2 },
   { sub := 0x10, cnt := 128, name := "Entries 0–127", ty := .u32, acc := .rwl, role := 2, dflt := 0 }]

/-- The rows of a family. -/
def rowsOf : Fam → List ObjRow
  | .identity => rowsIdentity
  | .versions => rowsVersions
  | .descriptor => rowsDescriptor
  | .link => rowsLink
  | .commit => rowsCommit
  | .timebase => rowsTimebase
  | .tpo => rowsTpo
  | .reset => rowsReset
  | .softReset => rowsSoftReset
  | .remoteReset => rowsRemoteReset
  | .blockReset => rowsBlockReset
  | .gallery => rowsGallery
  | .galleryCode => rowsGalleryCode
  | .tokens => rowsTokens
  | .pulseTest => rowsPulseTest
  | .firmware => rowsFirmware
  | .mapped => rowsMapped
  | .engine => rowsEngine
  | .loop => rowsLoop
  | .coefA => rowsCoefA
  | .coefB => rowsCoefA
  | .profile => rowsProfile
  | .repet => rowsRepet
  | .input => rowsInput
  | .conv => rowsConv
  | .sequence => rowsSequence
  | .tile => rowsTile
  | .inputs => rowsInputs
  | .ao => rowsAo
  | .aoGroup => rowsAoGroup
  | .di => rowsDi
  | .dout => rowsDout
  | .bank => rowsBank
  | .field => rowsField
  | .safety => rowsSafety
  | .safeIn => rowsSafeIn
  | .safeOut => rowsSafeOut
  | .axis => rowsAxis
  | .axisLink => rowsAxisLink
  | .canObject => rowsCanObject
  | .canPort => rowsCanPort
  | .record => rowsRecord
  | .stream => rowsStream
  | .ringWindow => rowsRingWindow
  | .mapWindow => rowsMapWindow
  | .dataPort => rowsDataPort
  | .trigger => rowsTrigger
  | .capture => rowsCapture
  | .chains => rowsChains
  | .track => rowsTrack
  | .seqCounters => rowsSeqCounters
  | .event => rowsEvent
  | .banks => rowsBanks
  | .load => rowsLoad
  | .patch => rowsPatch
  | .readWindow => rowsReadWindow
  | .satellite => rowsSatellite
  | .imageMap => rowsImageMap

/-- A place in the dictionary: its family, the member's number, its row and the position inside the row. -/
structure Place where
  fam : Fam
  k : Nat
  row : ObjRow
  at_ : Nat
deriving DecidableEq, Repr

/-- The family that an index belongs to, and the member's number. -/
def famOf (idx : Nat) : Option (Fam × Nat) :=
  match families.find? fun f => decide (f.1 ≤ idx ∧ idx < f.1 + f.2.1) with
  | some f => some (f.2.2, idx - f.1)
  | none => none

/-- The row of an index's family that covers a subindex. -/
def rowOf (f : Fam) (sub : Nat) : Option ObjRow :=
  (rowsOf f).find? fun r => decide (r.sub ≤ sub ∧ sub < r.sub + r.cnt)

/-- The subindex at which a CAN message object's table begins: CAN1 lies 16 higher (R409). -/
def canSub (f : Fam) (sub : Nat) : Nat := if f = .canObject ∧ 0x10 < sub then sub - 0x10 else sub

/-- The place of an object, if the dictionary has it; subindex 0 is not in a table (R410). -/
def place (idx sub : Nat) : Option Place :=
  match famOf idx with
  | none => none
  | some (f, k) =>
    match rowOf f (canSub f sub) with
    | some r => some { fam := f, k := k, row := r, at_ := canSub f sub - r.sub }
    | none => none

/-- The highest subindex that an index has in a profile (R410). -/
def highestSub (f : Fam) (prof : Nat) : Nat :=
  let m := (rowsOf f).foldl (fun n r => if r.prof ≤ prof then Max.max n (r.sub + r.cnt - 1) else n) 0
  if f = .canObject then m + 0x10 else m

/-- The lowest profile that has the family. -/
def famProf : Fam → Nat
  | .satellite => 2
  | _ => 1

/-- Size of a type in bytes, none for a variable length (R411). -/
def Ty.size : Ty → Option Nat
  | .bool | .u8 | .i8 => some 1
  | .u16 | .i16 | .sig => some 2
  | .u32 | .i32 | .f32 | .bf24 => some 4
  | .u64 | .i64 | .tread => some 8
  | .str n | .oct n => some n
  | .octVar => none

/-- Type code (R411). -/
def Ty.code : Ty → Nat
  | .bool => 1 | .u8 => 2 | .u16 => 3 | .u32 => 4 | .u64 => 5
  | .i8 => 6 | .i16 => 7 | .i32 => 8 | .i64 => 9
  | .f32 => 10 | .bf24 => 11 | .tread => 12 | .sig => 13 | .str _ => 14 | .oct _ | .octVar => 15

/-- Access code (R413). -/
def Acc.code : Acc → Nat
  | .ro => 1 | .rw => 2 | .wo => 3 | .rws => 4 | .rwl => 5

/-- The default of an object (object tables). The supplies of safety input pair k are 2k and 2k + 1, modulo 16. -/
def defaultAt (p : Place) : Raw :=
  match p.fam, p.row.sub with
  | .safeIn, 4 => 2 * p.k % 16
  | .safeIn, 5 => (2 * p.k + 1) % 16
  | _, _ => p.row.dflt

/-- The default of the object at an index and subindex; 0 where there is none. -/
def defaultOf (idx sub : Nat) : Raw :=
  match place idx sub with
  | some p => defaultAt p
  | none => 0

end Sys2Proof.Machine
end

