-- ==== Sys2Proof/Machine/Planner.lean ====
section
/-! DEFINITION. Motion plans in continuous time, shared by the profile generators (R142 to R146) and the axes (R239
to R243): phases of constant jerk, the quickest change of velocity, the stopping path, the quickest path to rest at a
target. The arithmetic is exact to 256 binary places (log entry 20). -/

namespace Sys2Proof.Machine

/-- A state of motion: position, velocity, acceleration. -/
structure Motion where
  y : Fx
  v : Fx
  a : Fx
deriving DecidableEq, Repr

/-- Limits of a motion; none means not limited (R142). -/
structure Lim where
  vel : Option Fx
  acc : Option Fx
  jerk : Option Fx
deriving DecidableEq, Repr

/-- A phase of a plan: velocity and acceleration set at once where named, then constant jerk for `t` seconds. -/
structure Phase where
  t : Fx
  v : Option Fx
  a : Option Fx
  j : Fx
deriving DecidableEq, Repr

/-- Motion after `t` seconds at constant jerk. -/
def Motion.glide (s : Motion) (j t : Fx) : Motion :=
  let at1 := Fx.mul s.a t
  let jt := Fx.mul j t
  let jt2 := Fx.mul jt t
  { y := s.y + Fx.mul s.v t + Fx.mul at1 t / 2 + Fx.mul jt2 t / 6
    v := s.v + at1 + jt2 / 2
    a := s.a + jt }

/-- Motion after the at-once changes of a phase. -/
def Motion.enter (s : Motion) (p : Phase) : Motion := { s with v := p.v.getD s.v, a := p.a.getD s.a }

/-- Motion after `t` seconds of a plan; past its end the last motion stands. -/
def follow (s : Motion) : List Phase → Fx → Motion
  | [], _ => s
  | p :: l, t =>
    let s' := s.enter p
    if t < p.t then s'.glide p.j t else follow (s'.glide p.j p.t) l (t - p.t)

/-- Motion at the end of a plan. -/
def finish (s : Motion) (l : List Phase) : Motion := l.foldl (fun s p => (s.enter p).glide p.j p.t) s
/-- Length of a plan in seconds. -/
def planTime (l : List Phase) : Fx := l.foldl (fun n p => n + p.t) 0
/-- A plan seen in the other direction of motion. -/
def Phase.flip (k : Int) (p : Phase) : Phase := { p with v := p.v.map (k * ·), a := p.a.map (k * ·), j := k * p.j }

/-- The first `t` seconds of a plan. -/
def planTake : List Phase → Fx → List Phase
  | [], _ => []
  | p :: l, t => if t ≤ p.t then [{ p with t := t }] else p :: planTake l (t - p.t)

/-- Velocity change with acceleration and jerk limited: ramp to a peak, hold it where it is the limit, ramp to 0. -/
def rampPeak (amax jmax : Fx) (a dv : Fx) : List Phase :=
  let peak := if amax < a then amax else Min.min amax (Fx.sqrt (Fx.mul jmax dv + Fx.mul a a / 2))
  let up := Fx.div (Int.natAbs (peak - a)) jmax
  let gained := Fx.mul (a + peak) up / 2
  let down := Fx.div peak jmax
  let rest := dv - gained - Fx.mul peak down / 2
  let hold := if 0 < peak ∧ 0 < rest then Fx.div rest peak else 0
  [⟨up, none, none, Fx.sgn (peak - a) * jmax⟩, ⟨hold, none, some peak, 0⟩, ⟨down, none, none, -jmax⟩,
   ⟨0, none, some 0, 0⟩]

/-- The quickest path from velocity `v` and acceleration `a` to velocity `w` with acceleration 0 (R142). -/
def toVelocity (lim : Lim) (v a w : Fx) : List Phase :=
  match lim.acc with
  | none => [⟨0, some w, some 0, 0⟩]
  | some amax =>
    match lim.jerk with
    | none =>
      let k := Fx.sgn (w - v)
      [⟨Fx.div (k * (w - v)) amax, none, some (k * amax), 0⟩, ⟨0, some w, some 0, 0⟩]
    | some jmax =>
      let vn := v + Fx.div (Fx.mul a (Int.natAbs a)) (2 * jmax)
      let k := Fx.sgn (w - vn)
      let l := (rampPeak amax jmax (k * a) (k * (w - v))).map (Phase.flip k)
      l ++ [⟨0, some w, some 0, 0⟩]

/-- The stopping path (R144). -/
def stopPath (lim : Lim) (s : Motion) : List Phase := toVelocity lim s.v s.a 0
/-- The stopping point. -/
def stopPoint (lim : Lim) (s : Motion) : Fx := (finish s (stopPath lim s)).y

/-- The path of quickest advance in the positive direction: to V, or to A where V is not limited, and then on. -/
def advance (lim : Lim) (s : Motion) : List Phase :=
  let far : Fx := Fx.one * (2 ^ 200 : Nat)
  match lim.vel, lim.acc, lim.jerk with
  | some w, _, _ => toVelocity lim s.v s.a w ++ [⟨far, none, none, 0⟩]
  | none, some amax, some jmax =>
    [⟨Fx.div (Int.natAbs (amax - s.a)) jmax, none, none, Fx.sgn (amax - s.a) * jmax⟩, ⟨far, none, some amax, 0⟩]
  | none, some amax, none => [⟨far, none, some amax, 0⟩]
  | none, none, _ => [⟨far, none, none, 0⟩]

/-- Halving of an interval: the largest instant found at which `ok` holds, `ok` holding at `lo`. -/
def halve (ok : Fx → Bool) : Nat → Fx → Fx → Fx
  | 0, lo, _ => lo
  | n + 1, lo, hi =>
    let mid := (lo + hi) / 2
    if ok mid then halve ok n mid hi else halve ok n lo mid

/-- Doubling of an instant while `ok` holds. -/
def doubleWhile (ok : Fx → Bool) : Nat → Fx → Fx
  | 0, t => t
  | n + 1, t => if ok t then doubleWhile ok n (2 * t) else t

/-- The largest instant up to about 2^120 s at which the monotone condition `ok` holds. -/
def lastInstant (ok : Fx → Bool) : Fx :=
  let hi := doubleWhile ok 140 (Fx.one / (2 ^ 20 : Nat))
  halve ok 400 0 hi

/-- The quickest path to velocity `w` (acceleration 0) at position `d`, at or beyond where it can be had, motion
positive: advance as long as the change to `w` still ends at or before `d`. -/
def reachAt (lim : Lim) (s : Motion) (d w : Fx) : List Phase :=
  let adv := advance lim s
  let ok := fun t =>
    let m := follow s adv t
    decide ((finish m (toVelocity lim m.v m.a w)).y ≤ d)
  let t := lastInstant ok
  let m := follow s adv t
  planTake adv t ++ toVelocity lim m.v m.a w

/-- A motion and a plan mirrored. -/
def Motion.flip (k : Int) (s : Motion) : Motion := ⟨k * s.y, k * s.v, k * s.a⟩

/-- Direction of motion; at rest the direction of the target. -/
def Motion.dir (s : Motion) (target : Fx) : Int :=
  if s.v ≠ 0 then Fx.sgn s.v else if s.a ≠ 0 then Fx.sgn s.a else Fx.sgn (target - s.y)

/-- Whether a target lies behind the stopping point (R145). -/
def isReversal (lim : Lim) (s : Motion) (target : Fx) : Bool :=
  if s.v = 0 ∧ s.a = 0 then false else
  let k := s.dir target
  decide (k * (target - stopPoint lim s) < 0)

/-- A plan: its phases, the length of its stopping path (R145), and of the part that brings the state within its
limits (R146). -/
structure Plan where
  phases : List Phase
  stopFor : Fx
  reduceFor : Fx
deriving DecidableEq, Repr

/-- Whether a state lies within limits. -/
def Lim.within (lim : Lim) (s : Motion) : Bool :=
  (match lim.vel with | none => true | some w => decide ((Int.natAbs s.v : Int) ≤ w)) &&
  (match lim.acc with | none => true | some w => decide ((Int.natAbs s.a : Int) ≤ w))

/-- Time until the state of a plan lies within the limits. -/
def reduceTime (lim : Lim) (s : Motion) (l : List Phase) : Fx :=
  if lim.within s then 0 else
  let out := fun t => !lim.within (follow s l t)
  lastInstant fun t => decide (t ≤ planTime l) && out t

/-- The plan from a state to rest at a target (R144, R145). -/
def planTo (lim : Lim) (s : Motion) (target : Fx) : Plan :=
  if lim.vel.isNone && lim.acc.isNone then ⟨[], 0, 0⟩ else
  let rev := isReversal lim s target
  let stop := if rev then stopPath lim s else []
  let s1 : Motion := if rev then { y := stopPoint lim s, v := 0, a := 0 } else s
  let k := s1.dir target
  let go := if s1.v = 0 ∧ s1.a = 0 ∧ s1.y = target then [] else
    (reachAt lim (s1.flip k) (k * target) 0).map (Phase.flip k)
  let l := stop ++ go
  ⟨l, planTime stop, reduceTime lim s l⟩

/-- Seconds in `n` treads. -/
def treadTime (n : Nat) : Fx := (n : Int) * Fx.one / 100000
/-- Instants closer than this to a plan's end count as its end: about a nanosecond (log entry 20). -/
def planSlack : Fx := Fx.one / (2 ^ 30 : Nat)

end Sys2Proof.Machine
end

