-- ==== Sys2Proof/Machine/Records.lean ====
section
/-! DEFINITION. The typed records of the machine's hidden state: what the chapters name and the dictionary does not
hold as an object. Each is plain data. -/

namespace Sys2Proof.Machine

/-! ### Loops, profiles and learning (05, 06) -/

/-- A profile generator (R142 to R149). `start` and `plan` give the path, `clock` the treads of the plan already
advanced, `target` and the limits those that the plan was made for; `moved` whether a jump has moved it since, `touched` whether
target or limits have changed since, `jumped` whether a jump has come after the loop left CASCADE. -/
structure ProfSt where
  mot : Motion := ⟨0, 0, 0⟩
  target : Nat := 0
  vlim : Nat := 0
  alim : Nat := 0
  jlim : Nat := 0
  start : Motion := ⟨0, 0, 0⟩
  plan : Plan := ⟨[], 0, 0⟩
  clock : Nat := 0
  state : Nat := 0
  limited : Bool := false
  moved : Bool := false
  touched : Bool := false
  jumped : Bool := false
deriving DecidableEq, Repr

/-- A repetitive controller (R150 to R156). -/
structure RepSt where
  index : Nat := 0
  next : Nat := 0
  locked : Bool := false
  enabled : Bool := false
  period : Nat := 0
  prevPeriod : Nat := 0
  lastEdge : Option Nat := none
  cycle : Int := 0
  seen : Nat := 0
  level : Bool := false
  bump : Bool := false
  frozen : Bool := false
deriving DecidableEq, Repr

/-- The states and internals of a loop (R111, R115), every value at the exponent of its stage. -/
structure LoopSt where
  x : Dy := Dy.zero
  pvf : Dy := Dy.zero
  is1 : Dy := Dy.zero
  is2 : Dy := Dy.zero
  sp : Dy := Dy.zero
  sp1 : Dy := Dy.zero
  sp2 : Dy := Dy.zero
  e : Dy := Dy.zero
  p : Dy := Dy.zero
  i : Dy := Dy.zero
  d : Dy := Dy.zero
  df : Dy := Dy.zero
  pvfLast : Dy := Dy.zero
  ff : Dy := Dy.zero
  xff : Dy := Dy.zero
  r : Dy := Dy.zero
  v : Dy := Dy.zero
  w : Dy := Dy.zero
  os1 : Dy := Dy.zero
  os2 : Dy := Dy.zero
  u : Dy := Dy.zero
  uLast : Dy := Dy.zero
  mode : Nat := 0
  formed : Bool := false
  retune : Bool := false
  manTake : Bool := false
  manAt : Tread := 0
  modeAt : Tread := 0
  dwell : Nat := 0
  settled : Bool := false
  high : Bool := false
  low : Bool := false
  rate : Bool := false
  tracking : Bool := false
  lost : Bool := false
  lostFf : Bool := false
  lostTr : Bool := false
  invalid : Bool := false
  sat : Bool := false
  restart : Bool := false
  landed : Bool := false
  prof : ProfSt := {}
  rep : RepSt := {}
deriving DecidableEq, Repr

/-! ### Stairwell (03, 04) -/

/-- A bank (R95): its tables by entry number, an empty entry being 0, and what its header says. -/
structure Bank where
  steps : SMap Nat := []
  actions : SMap Nat := []
  consts : SMap Nat := []
  patterns : SMap Nat := []
  sets : SMap Nat := []
  landings : SMap Nat := []
  entries : SMap Nat := []
  actionCount : Nat := 0
  constCount : Nat := 0
  landingCount : Nat := 0
  entryCount : Nat := 0
  id : Nat := 0
  format : Nat := 0
  desc : Nat := 0
  ok : Bool := false
deriving DecidableEq, Repr

/-- A transition decided in one tread for the next boundary (R60 to R65): entry of a step with the exit taken and the
host event flags it clears, or a landing with its cause and whether the landing's CRC matched. -/
inductive Trans where
  | enter (step exit clear : Nat)
  | land (landing cause : Nat) (crcOk : Bool)
deriving DecidableEq, Repr

/-- A track (R77, 0x4000+t). `wait` is the exit it is waiting for a wake to take (R66), `next` the transition decided
for the next boundary; `acted` the timer value up to which delayed actions are done, `seen` the tread evaluated last,
`catchUp` whether the next evaluation takes exits that the timer has passed (R93, R302), `full` whether the timer has stood
saturated for longer than a tread (R64). -/
structure TrackSt where
  state : Nat := 0
  step : Nat := 0xFFFF
  entryTread : Tread := 0
  timer : Nat := 0
  entryPoint : Nat := 0xFF
  dfltLanding : Nat := 0xFF
  curLanding : Nat := 0xFF
  cause : Nat := 0
  lastExit : Nat := 0
  owner : Nat := 0
  entered : Nat := 0
  countA : Nat := 0
  countB : Nat := 0
  paused : Nat := 0
  heldMask : Nat := 0
  wait : Option Trans := none
  next : Option Trans := none
  refused : Bool := false
  acted : Nat := 0
  seen : Option Tread := none
  catchUp : Bool := false
  full : Bool := false
deriving DecidableEq, Repr

/-- A PULSE_DO in progress: its output and the boundary at which it ends (R67). -/
structure Pulse where
  out : Nat
  ends : Tread
deriving DecidableEq, Repr

/-- A former value kept until a checkpoint covers its patch (R106): commit tread, bank (0 A, 1 B), selector, value. -/
structure Undo where
  tread : Tread
  bank : Nat
  sel : Nat
  val : Nat
deriving DecidableEq, Repr

/-! ### Transactions (02) -/

/-- Where a write comes from: an association's message, or the cyclic image of a map (R47). -/
inductive Origin where
  | message
  | image (map : Nat)
  | satellite
deriving DecidableEq, Repr

/-- A staged or sealed write (R32, R33): the boundary it commits at, its entries, and the swap count of the bank that a
patch was validated against (R100). -/
structure Staged where
  assoc : Nat
  seq : Nat
  tag : Nat
  due : Tread
  entries : List Entry
  arrived : Nat := 0
  early : Bool := false
  journalled : Bool := false
  named : Bool := false
  swaps : Nat := 0
  origin : Origin := .message
deriving DecidableEq, Repr

/-- A read that waits for service or is being served (R42, R43); the queue entries that it has claimed, by port and
sequence (R46, R372). -/
structure ReadSt where
  assoc : Nat
  seq : Nat
  tag : Nat
  due : Tread
  entries : List Entry
  named : Bool := false
  arrived : Nat := 0
  begun : Bool := false
  fail : Option (Nat × Nat) := none
  vals : List (Nat × Nat) := []
  claimed : List (Nat × Nat) := []
deriving DecidableEq, Repr

/-- A reply (R331): status, first failing or superseded position, tread, values as length and number; whether it
answers a write, is interim, is sent again; and the place of its transaction in the order of arrivals (R50). -/
structure Reply where
  assoc : Nat
  seq : Nat
  tag : Nat
  status : Nat
  pos : Nat := 0xFFFF
  tread : Tread := 0
  vals : List (Nat × Nat) := []
  write : Bool := true
  interim : Bool := false
  again : Bool := false
  arrived : Nat := 0
deriving DecidableEq, Repr

/-! ### The hall (13) -/

/-- What NEGOTIATE agrees and reserves (R323): class, versions, profile, image format, features, authentication, node,
nonces; the address it is for and the tread of the response. -/
structure Agreed where
  src : Src
  cls : Nat := 0
  major : Nat := 1
  minor : Nat := 0
  profile : Nat := 1
  format : Nat := 2
  features : Nat := 0
  auth : Bool := false
  node : Nat := 0
  partnerNonce : Nat := 0
  moduleNonce : Nat := 0
  at_ : Tread := 0
deriving DecidableEq, Repr

/-- A message being assembled from segments (R318): its first frame, the segments that have arrived, the tread of the
first. -/
structure Partial where
  seq : Nat
  tag : Nat
  count : Nat
  parts : List (Nat × List Nat) := []
  since : Tread
  refused : Bool := false
  authOk : Bool := true
  versionOk : Bool := true
deriving DecidableEq, Repr

/-- What a fully received message asks: a transaction with its control bits; a request refused before its entries are
looked at, by status and position; the image of a map, by its data; nothing more, where it has been answered. -/
inductive Req where
  | txn (write : Bool) (named : Option Tread) (early journalled : Bool) (entries : List Entry)
  | bad (status pos : Nat) (write : Bool)
  | image (map : Nat) (bytes : List Nat)
  | done
deriving DecidableEq, Repr

/-- A message that is ahead of its sequence (R320): the request, whether its trailer and version were right, and the
tread in which it arrived. -/
structure Msg where
  seq : Nat
  tag : Nat
  req : Req
  authOk : Bool := true
  versionOk : Bool := true
  since : Tread := 0
deriving DecidableEq, Repr

/-- An association (R325, hall record). `state` is 0 while it waits for its association tread, 1 in the hall, 2 when it
leaves at the next boundary, for the reason `leaving`: 0 declared lost, 1 evicted, 2 BYE with reason 0, 3 BYE with
reason 1. `declared` is the tread of that, `key` the role key in use, `last` is t_last, `resync` whether the next message sets the expected sequence (R342), `cache` the last 16
final replies, `held` the messages ahead of their sequence, `part` the one being assembled; the last three fields are
the report of R333. -/
structure Partner where
  id : Nat
  agreed : Agreed
  role : Nat
  lossAction : Nat
  heartbeat : Nat
  state : Nat := 0
  leaving : Nat := 0
  declared : Tread := 0
  key : Nat := 0
  since : Tread
  last : Tread
  expect : Nat := 1
  resync : Bool := false
  gaps : Nat := 0
  authFails : Nat := 0
  dups : Nat := 0
  seqOut : Nat := 0
  cache : List Reply := []
  held : List Msg := []
  part : Option Partial := none
  imgFail : Nat := 0xFF
  imgStatus : Nat := 0
  imgPos : Nat := 0
  imgCount : Nat := 0
deriving DecidableEq, Repr

/-- A two-step event message that waits for the message that carries its correction (R350): identity, whether it is a
Delay_Req, the correction by egress port, the tread in which it passed. -/
structure PtpWait where
  id : Nat
  request : Bool := false
  corrections : List Nat := []
  at_ : Tread := 0
deriving DecidableEq, Repr

/-- The switch (R312, R313, R350): bytes in the egress queues by port and priority (2 · port + 1 the high one), learned
addresses with their ports and the tread they were last seen, flights in a row without and with the own test frame,
whether it has returned in this flight, and event messages that wait for their Follow_Up or Delay_Resp. -/
structure SwitchSt where
  queues : SMap Nat := []
  table : List (Nat × Nat × Tread) := []
  silentFlights : Nat := 0
  goodFlights : Nat := 0
  returned : Bool := false
  ptp : List PtpWait := []
deriving DecidableEq, Repr

/-- What the module sends of its own accord (R313, R321, R337, R341, R47): a NOTIFY with its code and data fields, and
the other messages by kind, association and body; a message to an address instead of an association. Kinds are
those of R317, and 256 upward for what is no Spasia frame. -/
inductive Out where
  | notify (assoc code : Nat) (data : List Nat)
  | msg (kind assoc : Nat) (data : List Nat)
  | send (dest : Src) (kind assoc : Nat) (data : List Nat)
deriving DecidableEq, Repr

/-! ### Engine pairs (05) -/

/-- The pair-and-spare arrangement (R137 to R140): treads of recent miscompares, failed resynchronisations in a row,
start of a resynchronisation, by pair; for how many further treads a loss of lock counts as a miscompare (R398); and whether a loop that has not been evaluated
since the last restore restarts its histories (R136) or takes its output history from its destination (R303). -/
structure EngineSt where
  missA : List Tread := []
  missB : List Tread := []
  failsA : Nat := 0
  failsB : Nat := 0
  startA : Tread := 0
  startB : Tread := 0
  forceA : Nat := 0
  forceB : Nat := 0
  restart : Bool := false
  landed : Bool := false
deriving DecidableEq, Repr

/-! ### Analog inputs (07) -/

/-- A completed window waiting for the latch (R169, R170). -/
structure Pres where
  r : Int
  tread : Tread
  count : Nat
  shift : Nat
  incomplete : Bool
  bad : Bool
deriving DecidableEq, Repr

/-- A window being summed (R169): its last tread, the sum of its codes, samples landed and missed. -/
structure Win where
  ends : Tread
  sum : Int := 0
  got : Nat := 0
  missed : Nat := 0
deriving DecidableEq, Repr

/-- An analog input: its open windows, oldest first (a result may land after the next boundary, R163), the first tread
of which a window may hold samples (R170), its latest code with the cycle at which it was sampled, the completed window
waiting for the latch, and whether the presented value came from a bad window or has no linearisation (R172). -/
structure InpSt where
  wins : List Win := []
  since : Tread := 0
  last : Int := 0
  lastAt : Nat := 0
  pend : Option Pres := none
  bad : Bool := false
  linBad : Bool := false
deriving DecidableEq, Repr

/-- A converter inside a tread (R163 to R167): next regular slot, cycle at which it is free, injection state (0 none,
2 started until `injEnd`, 3 deferred to the next tread, 4 due at 0.5 us of this tread), requests still to come as ns of
this tread, cycle of the latest request that arrived in it, flight of the last check, tread of an abandoned one, failed
checks in a row, boundary since which it calibrates, the first and last tread of its last calibration that has ended. -/
structure ConvSt where
  next : Nat := 1
  free : Nat := 32
  inj : Nat := 0
  injEnd : Nat := 0
  asked : List Nat := []
  reqAt : Option Nat := none
  checked : Option Nat := none
  abandoned : Option Tread := none
  fails : Nat := 0
  calSince : Option Tread := none
  calPast : Option (Tread × Tread) := none
deriving DecidableEq, Repr

/-! ### Field side (08) -/

/-- An image (R11): commanded output states, duty fractions by output, AO values by output, request sets by pair. -/
structure Img where
  dos : Nat := 0
  duty : SMap Nat := []
  ao : SMap Nat := []
  requests : SMap Nat := []
deriving DecidableEq, Repr

/-- A bank on the field side (R196, R197, R200): its state; the fault of a low supply, the supply below 19.2 V now, and qualified; whether its latch comes from a
cut (R199); its outputs with a readback disagreement, an overtemperature, one that has cooled, one commanded off since,
and a failed dark test; the dark test running, its boundary, the next output and the period, the tread in which the last
test ended; what the logic side has asked for and not yet sent. -/
structure BankSt where
  state : Nat := 0
  low : Bool := false
  under : Bool := false
  qualified : Bool := true
  byCut : Bool := false
  bad : Nat := 0
  hot : Nat := 0
  cooled : Nat := 0
  hotOff : Nat := 0
  darkBad : Nat := 0
  darkOut : Option Nat := none
  darkSince : Tread := 0
  darkNext : Nat := 0
  darkPeriod : Nat := 0
  darkLast : Option Tread := none
  req : Option Nat := none
  ack : Bool := false
deriving DecidableEq, Repr

/-- The field side and its link (R188 to R207): the levels driven, AO values and codes latched, the image applied and
the one built for the next boundary, debounced and raw inputs, the snapshot of the logic side, frames received badly
and well in a row by each side, the path of each, what holds and what stands at its fail state (outputs by bank), the
fail states kept there, the boundary at which each output last changed, running comparisons (R196), duty outputs on in
their period, parallel maps in force, the output pulse test, the tread at which an input's debounce count restarted
(R188), the boundary of the last main-link image and of each bank's last image (R203), the supplies that the snapshot
shows low. -/
structure FieldSt where
  powered : Bool := true
  doOn : Nat := 0
  aoCode : SMap Int := []
  aoVal : SMap Nat := []
  image : Img := {}
  built : Option Img := none
  di : Nat := 0
  diRaw : Nat := 0
  snapDi : Nat := 0
  snapRaw : Nat := 0
  snapRead : Nat := 0
  diStale : Bool := false
  badOut : Nat := 0
  badIn : Nat := 0
  goodOut : Nat := 0
  goodIn : Nat := 0
  fallOut : Bool := false
  fallIn : Bool := false
  aoHeld : Bool := false
  doHeld : Nat := 0
  aoFailed : Bool := false
  doFailed : Nat := 0
  holdValid : Bool := false
  failDo : Nat := 0
  failAo : SMap Nat := []
  changed : SMap Tread := []
  differ : SMap Nat := []
  agree : SMap Nat := []
  dutyOn : Nat := 0
  parallel : SMap Nat := []
  pulse : Option (Nat × Nat × Tread) := none
  bounce : SMap Tread := []
  aoAt : Tread := 0
  doAt : SMap Tread := []
  snapLow : Nat := 0
deriving DecidableEq, Repr

/-! ### Safety (09) -/

/-- A channel of a safety input pair (R213 to R216), which a restart of the domain starts in demand (log entry 60): its level after masking, the ms its demand level has differed from
its demand state, its demand state, pattern faults seen in the present test-pulse cycle and in the last one (bit 0
missing, 1 wrong slot), whether it has been open in the present one, whether it is faulted. -/
structure SafChSt where
  level : Bool := false
  held : Option Nat := none
  demand : Bool := true
  now : Nat := 0
  seen : Nat := 0
  opened : Bool := false
  fault : Bool := false
deriving DecidableEq, Repr

/-- A safety input pair (R213 to R217, R226): its channels, fault code, latch, rest of the degraded window in ms, ms of
a running discrepancy, test-pulse cycles passed in a row. -/
structure SafInSt where
  a : SafChSt := {}
  b : SafChSt := {}
  fault : Nat := 0
  latched : Bool := false
  left : Nat := 0
  discrepancy : Nat := 0
  passes : Nat := 0
deriving DecidableEq, Repr

/-- A channel of a safe output pair (R224, R225, R227): whether it is faulted, cycles it has read low while on, cycle of
its last dark test, whether it has passed one since its fault. -/
structure SafSwSt where
  fault : Bool := false
  low : Nat := 0
  test : Option Nat := none
  tested : Bool := false
deriving DecidableEq, Repr

/-- A safe output pair (R218 to R226): its channels, on, restart needed, off delay left in ms, fault code, latch, rest of
the degraded window in ms, the request set applied, logic loss, cycle of the last switch-off. -/
structure SafOutSt where
  a : SafSwSt := {}
  b : SafSwSt := {}
  on : Bool := false
  needRestart : Bool := true
  delay : Option Nat := none
  fault : Nat := 0
  latched : Bool := false
  left : Nat := 0
  requests : Nat := 0
  loss : Bool := false
  offAt : Option Nat := none
deriving DecidableEq, Repr

/-- An arm in progress (R211): association, challenge, ms since. -/
structure Arm where
  assoc : Nat
  challenge : Nat
  ms : Nat := 0
deriving DecidableEq, Repr

/-- The safety domain (R208 to R212, R214, R343). The pending configuration stands in the store of objects. `dom` is its
state, `active` the configuration in force, `stored…` its MRAM area, `pulse` the ms of the test-pulse cycle, `cutHold`
the banks that a confirmed safety reset keeps cut until the domain runs again. -/
structure SafetySt where
  dom : Nat := 0
  active : SMap Nat := []
  storedActive : SMap Nat := []
  storedPending : SMap Nat := []
  storedOk : Bool := true
  pendingOk : Bool := true
  arm : Option Arm := none
  disagree : Nat := 0
  cycle : Nat := 0
  pulse : Nat := 0
  cutHold : Nat := 0
  lastTest : Option Nat := none
  alive : Bool := false
  inputs : SMap SafInSt := []
  outputs : SMap SafOutSt := []
deriving DecidableEq, Repr

/-! ### Axes (10) -/

/-- An axis (R236 to R247). Positions are in units of 2^-16 microstep. `start`, `plan` and `clock` give the path in
progress, `ends` when each queued move ends on it and the velocity there, `limits` the limits it was made for;
`stopFault` the code of the fault that a stop in progress ends in; `still` the tread since which it stands still; `stopped`
whether its pairs being off has stopped it already (R245); `silent`, `differ` and `held` returns in a row that were missing,
mismatched, or in loss hold after a release. -/
structure AxisSt where
  pos : Int := 0
  phi : Int := 0
  state : Nat := 0
  mot : Motion := ⟨0, 0, 0⟩
  start : Motion := ⟨0, 0, 0⟩
  plan : List Phase := []
  ends : List (Fx × Fx) := []
  clock : Nat := 0
  queue : List Int := []
  replan : Bool := false
  limits : List Nat := []
  tier : Nat := 0
  lastM : Int := 0
  moving : Bool := false
  fault : Nat := 0
  refLost : Bool := false
  suspended : Bool := false
  stopFault : Nat := 0
  still : Tread := 0
  stopped : Bool := false
  holdCurrent : Bool := false
  clearFault : Bool := false
  cleared : Bool := false
  release : Bool := false
  released : Bool := false
  silent : Nat := 0
  differ : Nat := 0
  held : Nat := 0
  status : Nat := 0
  statusDue : Option (Tread × Nat) := none
  addr : Nat := 0
  addrBefore : Nat := 0
  change : Int := 0
deriving DecidableEq, Repr

/-- An axis link (R230, R235): link fault, good frames in a row, whether a stage answered in this frame, the 40 bytes of
the last frame. -/
structure AxisLinkSt where
  fault : Bool := false
  good : Nat := 0
  answered : Bool := false
  frame : List Nat := []
deriving DecidableEq, Repr

/-! ### Gallery (16) and recording (11) -/

/-- A gallery record that is due (R377 to R380): tread, code, source number, event words, and the snapshot words once they
have been taken. -/
structure GalDue where
  tread : Tread
  code : Nat
  source : Nat
  recipe : Bool := false
  words : List Nat
  snap : Option (List Nat) := none
  power : Nat := 0
  opTime : Nat := 0
deriving DecidableEq, Repr

/-- Per-code counts (R378, R379); the settings stand in the store of objects. -/
structure GalCode where
  pending : Nat := 0
  total : Nat := 0
  written : Nat := 0
  opened : Option Nat := none
  inWindow : Nat := 0
deriving DecidableEq, Repr

/-- The gallery (R376 to R384): records as 2 048-bit numbers by index, the chain of due records, counts by code, who cleared it, how many records the present flight
has written, and the flight up to which the operating time is counted. -/
structure GalSt where
  recs : SMap Nat := []
  queue : List GalDue := []
  codes : SMap GalCode := []
  clearBy : Nat := 0
  clearRole : Nat := 0
  flight : Nat := 0
  wrote : Nat := 0
  counted : Nat := 0
deriving DecidableEq, Repr

/-- A reader word of a chain (R271): bytes as a number, valid count, end mark, gap flag. -/
structure ReaderWord where
  bytes : Nat
  valid : Nat
  last : Bool
  gap : Bool
deriving DecidableEq, Repr

/-- Tiles (R18 to R22): awake, waking, and treads outside the awake set, by bit of the wake mask. -/
structure TileSt where
  awake : Nat := 0
  waking : Nat := 0
  idle : SMap Nat := []
deriving DecidableEq, Repr

/-! ### Timebase (14) -/

/-- The servo and its masters (R345 to R353): straps, time set, a step waiting for the next boundary, the integrator
and the last correction, offsets in a row within 20 ns and beyond 100 ns, the sum and count for the holdover frequency,
the masters heard with the tread of their last Announce, the grandmaster selected and the clock it is heard from, valid offsets from it, whether it is followed, REFIN lost, the flight of the last
record of a master behind, and the treads that the step of the time has skipped (R345). -/
structure TimeSt where
  clkmode : Nat := 0
  timeSet : Bool := false
  stepTo : Option Tread := none
  acc : Dy := Dy.zero
  adj : Dy := Dy.zero
  near : Nat := 0
  far : Nat := 0
  sum : Dy := Dy.zero
  flights : Nat := 0
  masters : List (AnnounceIn × Tread) := []
  master : Option Nat := none
  heard : Option Nat := none
  valid : Nat := 0
  following : Bool := false
  refLost : Bool := false
  behind : Option Nat := none
  shift : Nat := 0
deriving DecidableEq, Repr

/-- A time output (R354 to R356): the next instant in ns while armed, whether single, the end of a pulse in progress. -/
structure TpoSt where
  next : Option Nat := none
  single : Bool := false
  ends : Option Nat := none
deriving DecidableEq, Repr

/-! ### CAN (15) -/

/-- A CAN message object (R360 to R369): pending, attempts left, held by bus-off, failed; stale until its first frame,
lost until its first valid one (R135); the tread of the last one and the boundary since which its stale time counts; whether the last frame was too short for
the mapping; the frame received in this tread for the next boundary (data, length); the boundary of
the last periodic request. -/
structure CanObjSt where
  pend : Bool := false
  tries : Nat := 0
  held : Bool := false
  failed : Bool := false
  stale : Bool := true
  lost : Bool := true
  since : Tread := 0
  short : Bool := false
  rx : Option (Nat × Nat) := none
  sentAt : Option Tread := none
deriving DecidableEq, Repr

/-- An entry of a receive queue (R371, R372), owner 0 for none. -/
structure CanRx where
  seq : Nat
  id : Nat
  mo : Nat
  len : Nat
  dropped : Nat
  tread : Tread
  data : Nat
  owner : Nat := 0
deriving DecidableEq, Repr

/-- A response of the access service that waits for the bus (R373, R374). -/
structure CanResp where
  bytes : List Nat
  tries : Nat := 16
  held : Bool := false
deriving DecidableEq, Repr

/-- What a port offers to the bus. -/
inductive Offer where
  | none
  | mo (k : Nat)
  | resp
deriving DecidableEq, Repr

/-- A CAN port (R357 to R375): the queue, frames received in this tread that enter it at the next boundary, the next
sequence, frames dropped since the last entry, responses, the error counters, the service's association and its tags
in order, the frame that the port last sent well (R364, R374), what it has offered to the bus since its last attempt, the latest
first, each from the tread given (R365, R366), and the boundary at which it was disabled with a frame in progress (R359). -/
structure CanPortSt where
  queue : List CanRx := []
  arriving : List CanRx := []
  seq : Nat := 1
  dropped : Nat := 0
  resp : List CanResp := []
  tec : Nat := 0
  rec_ : Nat := 0
  assoc : Nat := 0
  issue : Nat := 0
  frame : Option CanFrame := none
  offers : List (Tread × Offer × CanFrame) := []
  offAt : Option Tread := none
deriving DecidableEq, Repr

/-- A peapod chain (R270 to R273): its occupied stages, the reader's end first. -/
structure Chain where
  words : List ReaderWord := []
  packets : Nat := 0
deriving DecidableEq, Repr

/-- A group of a recording block (R259): its tread, kind and words, the place of each entry in the order of its kind,
and the index, in the group's full order, of its first entry. -/
structure Group where
  tread : Tread
  kind : Nat
  words : List Nat
  keys : List Nat := []
  from_ : Nat := 0
deriving DecidableEq, Repr

/-- A block that has closed and drains to the ring, or stands in it (R256, R257): stream, first tread, span, gap in
treads, whether it continues, its 4 096 bytes, the expected first tread of the block after it, and its place in the
order in which blocks close. -/
structure Block where
  stream : Nat
  first : Tread
  span : Nat
  gap : Nat
  cause : Nat
  bytes : Nat
  next : Tread
  no : Nat := 0
deriving DecidableEq, Repr

/-- A recording stream (R257 to R261, R269, R270): the open block's groups and its first tread, the first tread
expected by the collector (of the block that is filling, and after the last one in the ring), the block sequence, the gap
cause to report, gaps counted, whether the start or new-map flag is due, the flight boundary from which a change of its
channel map counts, the map ID that the open block carries with the first tread of a newer map, the block that drains;
for a capture window its number and flags. -/
structure StreamSt where
  groups : List Group := []
  first : Option Tread := none
  expect : Tread := 0
  ringExpect : Tread := 0
  seq : Nat := 0
  cause : Nat := 0
  gaps : Nat := 0
  start : Bool := true
  newMap : Bool := true
  mapDue : Option Tread := none
  mapId : Nat := 0
  mapEnds : Option Tread := none
  drain : Option Block := none
  capture : Nat := 0
  capFirst : Bool := false
  short : Bool := false
  lost : Bool := false
deriving DecidableEq, Repr

/-- A trigger (R277 to R279): the value of the tread before or of the raw
conversion before, the last raw conversion, whether the value has
stood the hysteresis below and above the threshold since it was armed or fired, the tread of its last firing, when its
hold-off began, events left to let pass, captures taken. -/
structure TrigSt where
  prev : Option Nat := none
  last : Option Nat := none
  wasLow : Bool := false
  wasHigh : Bool := false
  fired : Option Tread := none
  holdFrom : Tread := 0
  left : Nat := 0
  taken : Nat := 0
deriving DecidableEq, Repr

/-- An open capture window (R280): its trigger, its stream, first and last tread. -/
structure Window where
  trig : Nat
  slot : Nat
  first : Tread
  last : Tread
deriving DecidableEq, Repr

/-- The recording beyond its streams: the ring by sequence number (R256), the next sequence, bytes written in the last
second, blocks closed, maps by stream and ID (R269), the levels before the first edge of the open block of S2 (R265),
triggers, firings of the present tread that wait for a window with their offsets (R281), windows, the buffer of conversions by tread (R280), the tread since which it is held, the next capture number, the tread until which PAUSE holds the data port, the flight of the last
status frame (R274, R275). -/
structure RecSt where
  ring : SMap Block := []
  next : Nat := 0
  bytes : Nat := 0
  closed : Nat := 0
  maps : SMap Nat := []
  base : Nat := 0
  trigs : SMap TrigSt := []
  fires : List (Nat × Nat) := []
  windows : List Window := []
  buffer : List Group := []
  bufSince : Tread := 0
  captures : Nat := 0
  pausedTo : Tread := 0
  status : Option Nat := none
deriving DecidableEq, Repr

/-! ### Journal and resets (12) -/

/-- What a checkpoint holds (R296): the control state of the module at the end of a flight; `duty` the duty outputs that are
on in their running period. -/
structure Saved where
  objs : SMap Nat := []
  ro : SMap Nat := []
  loops : SMap LoopSt := []
  tracks : SMap TrackSt := []
  pulses : List Pulse := []
  undo : List Undo := []
  active : Nat := 0
  axes : SMap AxisSt := []
  tiles : TileSt := {}
  hall : SMap Partner := []
  inputs : SMap InpSt := []
  canObjs : SMap CanObjSt := []
  tpos : SMap TpoSt := []
  trigs : SMap TrigSt := []
  duty : Nat := 0
  image : Img := {}
deriving DecidableEq, Repr

/-- A journal slot (R296 to R298): its flight, flags, state, configuration delta and the flight of the newest earlier
delta; `ok` whether its CRC passes. -/
structure Slot where
  flight : Nat
  requested : Bool := false
  final : Bool := false
  saved : Saved
  delta : List (Nat × Nat) := []
  prev : Option Nat := none
  ok : Bool := true
deriving DecidableEq, Repr

/-- A configuration copy (R298): the newest flight folded in, and the values. -/
structure CfgCopy where
  fc : Nat := 0
  objs : SMap Nat := []
  ok : Bool := false
deriving DecidableEq, Repr

/-- The journal (R159, R296 to R299, R309): slots by flight mod 32, the checkpoint being written, the state captured at
the end of the last flight and its delta, the delta of the present flight, the flight of the newest delta, the two configuration
copies, the configuration at the end of the last flight, the pool mirror's copies by slice with their flights, PFAIL
low and the ns since, whether the next checkpoint is final. -/
structure JournalSt where
  slots : SMap Slot := []
  writing : Option Slot := none
  ending : Option (Saved × SMap Int) := none
  slice : Option (Nat × Nat × SMap Int) := none
  ended : List (Nat × Nat) := []
  delta : List (Nat × Nat) := []
  lastDelta : Option Nat := none
  copyA : CfgCopy := {}
  copyB : CfgCopy := {}
  cfgEnd : SMap Nat := []
  cfgFlight : Nat := 0
  mirrorA : SMap (Nat × SMap Int) := []
  mirrorB : SMap (Nat × SMap Int) := []
  pfail : Option Tread := none
  finalDue : Bool := false
deriving DecidableEq, Repr

/-- A restore point found by the journal scan (R299): with the flight of the newest delta up to it. -/
structure Restore where
  flight : Nat
  lastDelta : Option Nat := none
  saved : Saved
  cfg : SMap Nat
deriving DecidableEq, Repr

/-- Resets (R284 to R295): the cause that took hold and its tread, the requested reset waiting or acting as cause, flag
and commit tread, the straps, the bring-up's report, N, the restore point, service mode, the outcome to announce at N
with the outputs-off form, whether firmware over P3 is awaited, whether a power-on reset has happened since the last
resumed tread, how many outputs differ and the first of them (R308), the stored options while the factory's are in force (R292), the
EtherType and UDP port that this bring-up took from the option block (R314). -/
structure ResetSt where
  cause : Nat := 1
  por : Bool := true
  at_ : Tread := 0
  request : Option (Nat × Nat × Tread) := none
  flag : Nat := 0
  bootsel : Nat := 0
  report : Option BringUp := none
  first : Tread := 0
  restore : Option Restore := none
  service : Bool := false
  outcome : Nat := 2
  off : Bool := false
  needP3 : Bool := false
  diff : Option (Nat × Nat) := none
  stored : Option (SMap Nat) := none
  etherType : Nat := 0x88B5
  udpPort : Nat := 34980
deriving DecidableEq, Repr

/-- Power states (R389 to R396): the boundary at which a standby request committed, the boundary B of the entry, the
state left, whether a wake came by its timer, and whether the last request only cancelled a standby. -/
structure PowerSt where
  standby : Option Tread := none
  entry : Tread := 0
  prior : Nat := 0
  timed : Bool := false
  stays : Bool := false
  early : Option (Nat × Nat) := none
deriving DecidableEq, Repr

/-- A frame that waits for the housekeeping processor (R290). -/
inductive Ask where
  | hello (src : Src) (hd : FrameHead := {})
  | negotiate (src : Src) (r : NegReq) (hd : FrameHead := {})
  | associate (src : Src) (r : AssocReq) (hd : FrameHead := {})
deriving DecidableEq, Repr

/-- The sender of a frame that waits. -/
def Ask.src : Ask → Src
  | .hello src _ | .negotiate src _ _ | .associate src _ _ => src
/-- Its header. -/
def Ask.hd : Ask → FrameHead
  | .hello _ hd | .negotiate _ _ hd | .associate _ _ hd => hd

/-- Firmware (R407, R408): the bytes of the slot that is not running and how many have come, the slot that runs and the
one of higher priority, the tread since which an image is on trial, and whether an activation waits for the next start. -/
structure FirmwareSt where
  image : Nat := 0
  received : Nat := 0
  top : Nat := 0
  running : Nat := 0
  priority : Nat := 0
  trial : Option Tread := none
deriving DecidableEq, Repr

/-- What the committed state of a tread keeps of the parts that move inside the tread (R26, R27): loops, tracks, gallery,
ring and maps, tiles, links, the field side, the active safety configuration, firmware, the transactions outstanding by
association, and whether PFAIL stood. -/
structure Kept where
  loops : SMap LoopSt := []
  tracks : SMap TrackSt := []
  gal : GalSt := {}
  record : RecSt := {}
  tiles : TileSt := {}
  links : SMap AxisLinkSt := []
  field : FieldSt := {}
  fbanks : SMap BankSt := []
  safety : SMap Nat := []
  trial : Option Tread := none
  trg : Nat := 0
  outstanding : SMap Nat := []
  pfail : Option Tread := none
deriving DecidableEq, Repr

end Sys2Proof.Machine
end

