-- ==== Sys2Proof/Machine/State.lean ====
section
/-! DEFINITION. The state of the block: the module with every register, memory, queue and timer that the chapters
give it, and the queue of waiting commands. Plain data throughout. -/

namespace Sys2Proof.Machine

/-- Why the block stops. No meaning answers with one of these: the spec gives every refused command an answer or no
effect. -/
inductive Fault where
  /-- Never raised; it stands so that the type has a name. Safe. -/
  | none
deriving DecidableEq, Repr

/-- Why a command is refused. -/
inductive Refusal where
  /-- A command without a meaning in this model, by the table's mnemonic. Raised by no arm of a complete table. Safe. -/
  | notModelled (mnemonic : String)
deriving DecidableEq, Repr

/-- What the module is doing (R284, R294, R295, R391). -/
inductive Life where
  /-- No supply, or the supply lost (R307). -/
  | off
  /-- A logic reset or power-on reset holds (R284 to R288). -/
  | held
  /-- Bring-up done up to step 7; the next flight boundary is known (R294). -/
  | ready
  /-- The preparation tread has run; the next boundary is N (R295). -/
  | prepared
  /-- In service (R11). -/
  | run
  /-- In STANDBY (R391). -/
  | standby
  /-- Waking from STANDBY (R394). -/
  | waking
deriving DecidableEq, Repr

/-- The module. -/
structure Mod where
  /-- Values of the objects that partners write, by key; an unlisted one stands at its default. -/
  objs : SMap Nat := []
  /-- Values of the objects that the module writes. -/
  ro : SMap Nat := []
  /-- The values of `ro` in the committed state of the tread (R26). -/
  com : SMap Nat := []
  /-- What else moves inside a tread, as the committed state of the tread has it (R26). -/
  kept : Kept := {}
  life : Life := .held
  tread : Tread := 0
  /-- Free values drawn so far (log entry 12). -/
  fresh : Nat := 0
  /-- The flight whose FLIGHT_BOUNDARY has run. -/
  flown : Option Nat := none
  -- commit (02)
  staged : List Staged := []
  reads : List ReadSt := []
  /-- Replies queued for sending since the last boundary, oldest first. -/
  replies : List Reply := []
  /-- Final replies that wait: for a checkpoint (true, R52) or behind an earlier one of their association (R50). -/
  waiting : List (Bool × Reply) := []
  /-- Arrivals so far (R32). -/
  arrivals : Nat := 0
  /-- Messages queued for sending since the last boundary. -/
  out : List Out := []
  -- link (13)
  hall : SMap Partner := []
  /-- The hall as the committed state of the tread has it (R26). -/
  hallCom : SMap Partner := []
  /-- Association IDs reserved by NEGOTIATE, and IDs barred since a tread (R323). -/
  reserved : SMap Agreed := []
  barred : SMap Tread := []
  switch : SwitchSt := {}
  /-- Frames that wait for the housekeeping processor (R290). -/
  asks : List Ask := []
  -- stairwell (03, 04)
  tracks : SMap TrackSt := []
  pulses : List Pulse := []
  /-- Landings of the present boundary whose effects wait for their place in R39: track, landing, and the number of the bank
  that was active when they were decided (R101). -/
  landings : List (Nat × Nat × Nat) := []
  /-- Axis actions refused in the tread that ends, by track, action index and opcode (R68, R240). -/
  axRefused : List (Nat × Nat × Nat) := []
  bankA : Bank := {}
  bankB : Bank := {}
  /-- The bytes of the load in progress (R98), the selector record (R102), the values kept for patches (R106). -/
  load : Nat := 0
  /-- The highest offset that a chunk of the load was written at (R98). -/
  loadTop : Nat := 0
  selector : Nat := 0xFF
  undo : List Undo := []
  -- loops (05, 06)
  loops : SMap LoopSt := []
  released : SMap LoopSt := []
  poolDue : List (Nat × Int) := []
  pool : SMap Int := []
  engine : EngineSt := {}
  -- inputs (07)
  inputs : SMap InpSt := []
  convs : SMap ConvSt := []
  /-- The values in force of objects whose changes wait for a flight boundary (R182, R185, R188, R191). -/
  eff : SMap Nat := []
  /-- The values in force before the last change of them, and the boundary at which they changed: a result sampled before it
  lands under them (R163, R182). -/
  effWas : SMap Nat := []
  effAt : Tread := 0
  /-- The boundary since which a skew calibration runs, and the first and last tread of the last one that has ended (R175). -/
  skewSince : Option Tread := none
  skewPast : Option (Tread × Tread) := none
  scans : SMap (Nat × Nat) := []
  cal : SMap (Nat × Nat) := []
  calDue : SMap (Nat × Nat) := []
  -- field (08), safety (09), axes (10)
  field : FieldSt := {}
  fbanks : SMap BankSt := []
  safety : SafetySt := {}
  snapSafety : Nat := 0
  snapPairs : Nat := 0
  snapFault : Nat := 0
  /-- The rest of the snapshot (R26): bank states, safety pairs and domain, AO held and at fail states. -/
  snapBanks : List Nat := []
  snapIn : SMap SafInSt := []
  snapOut : SMap SafOutSt := []
  snapDom : Nat := 0
  snapAo : Nat := 0
  /-- Request sets as the logic side commands them (R221). -/
  reqs : SMap Nat := []
  /-- Levels of the signals 0x940 to 0xB03 as S2 has recorded them (R265). -/
  levels : Nat := 0
  axes : SMap AxisSt := []
  /-- The axes as the committed state of the tread has them (R26). -/
  axesCom : SMap AxisSt := []
  links : SMap AxisLinkSt := []
  -- gallery (16)
  gal : GalSt := {}
  trg : Nat := 0
  tpoLevel : Nat := 0
  tiles : TileSt := {}
  -- recording (11)
  streams : SMap StreamSt := []
  record : RecSt := {}
  chain2 : Chain := {}
  chain4 : Chain := {}
  -- CAN (15)
  canObjs : SMap CanObjSt := []
  canPorts : SMap CanPortSt := []
  -- journal and resets (12)
  journal : JournalSt := {}
  reset : ResetSt := {}
  -- power states (17), firmware (18)
  power : PowerSt := {}
  firmware : FirmwareSt := {}
  /-- Grant slots whose holder has left while what it started runs, a bit each, and the checks that run again after a reset, under
  no grant: bit 0 a validation, bit 1 a firmware verification (R404). -/
  orphans : Nat := 0
  reruns : Nat := 0
  -- timebase (14)
  time : TimeSt := {}
  tpos : SMap TpoSt := []
  /-- Levels of the time outputs now; `tpoLevel` holds those of the boundary (R355). -/
  tpoNow : Nat := 0
  -- the writes of the present boundary (R34, R40, R69): who wrote which key, and the values before
  wlog : List (Nat × Nat) := []
  wold : SMap Nat := []
deriving DecidableEq, Repr

/-- The block: the module and the commands that wait for it, first in, first out. -/
structure State where
  m : Mod
  pending : List Instr
deriving DecidableEq, Repr

/-- The block right after reset: just powered, every object at its default, no command waiting. -/
def State.reset : State := { m := {}, pending := [] }

end Sys2Proof.Machine
end

