-- ==== Sys2Proof/Machine/Store.lean ====
section
/-! DEFINITION. Named operations over the sparse tables and the object store: look up, put in canonical form, and the
plain reads and writes of dictionary values that the module makes itself. -/

namespace Sys2Proof.Machine

variable {α : Type}

/-- The entry of a table at `k`. -/
def look : SMap α → Nat → Option α
  | [], _ => none
  | (a, v) :: l, k => if a = k then some v else look l k

/-- The entry at `k`, or `d`. -/
def lookD (l : SMap α) (k : Nat) (d : α) : α := (look l k).getD d

/-- The table with `v` at `k`, keys kept rising. -/
def put : SMap α → Nat → α → SMap α
  | [], k, v => [(k, v)]
  | (a, w) :: l, k, v =>
    if k < a then (k, v) :: (a, w) :: l
    else if a = k then (k, v) :: l
    else (a, w) :: put l k v

/-- The table without `k`. -/
def drop : SMap α → Nat → SMap α
  | [], _ => []
  | (a, w) :: l, k => if a = k then drop l k else (a, w) :: drop l k

/-- The table with `v` at `k` where an unlisted key reads as `d`: `d` itself is not listed. -/
def putD [DecidableEq α] (d : α) (l : SMap α) (k : Nat) (v : α) : SMap α :=
  if v = d then drop l k else put l k v

/-- Keys strictly rising and at least `n`. -/
def rising : Nat → SMap α → Bool
  | _, [] => true
  | n, (a, _) :: l => decide (n ≤ a) && rising (a + 1) l

/-- The canonical form of a table whose unlisted keys read as `d`. -/
def SMap.wf [DecidableEq α] (d : Nat → α) (l : SMap α) : Bool :=
  rising 0 l && l.all fun p => decide (p.2 ≠ d p.1)

/-- The key of an object: association (0 for the shared objects), index, subindex. -/
def okey (assoc idx sub : Nat) : Nat := assoc * 2 ^ 24 + idx * 256 + sub % 256
/-- The default at a key. -/
def keyDefault (k : Nat) : Nat := defaultOf (k / 256 % 65536) (k % 256)

/-- A value of a store of objects. -/
def stGet (l : SMap Nat) (k : Nat) : Nat := (look l k).getD (keyDefault k)
/-- A store with a value written. -/
def stPut (l : SMap Nat) (k v : Nat) : SMap Nat := putD (keyDefault k) l k v

/-- The value of an object that partners write (RW, RWS, RWL). -/
def Mod.cfg (m : Mod) (idx sub : Nat) : Nat := stGet m.objs (okey 0 idx sub)
/-- The same for an object that each association holds for itself (R415). -/
def Mod.cfgOf (m : Mod) (a idx sub : Nat) : Nat := stGet m.objs (okey a idx sub)
/-- The value of an object that the module writes. -/
def Mod.rov (m : Mod) (idx sub : Nat) : Nat := stGet m.ro (okey 0 idx sub)

/-- An object of the partners' store set. -/
def Mod.setCfg (m : Mod) (idx sub v : Nat) : Mod := { m with objs := stPut m.objs (okey 0 idx sub) v }
/-- The same for one association. -/
def Mod.setCfgOf (m : Mod) (a idx sub v : Nat) : Mod := { m with objs := stPut m.objs (okey a idx sub) v }
/-- An object of the module's store set. -/
def Mod.setRo (m : Mod) (idx sub v : Nat) : Mod := { m with ro := stPut m.ro (okey 0 idx sub) v }

/-- Width in bits at which a counter wraps. -/
def counterBits (idx sub : Nat) : Nat :=
  match place idx sub with
  | some p => 8 * (p.row.ty.size.getD 4)
  | none => 32

/-- A counter raised by `n`, wrapping at its width (R416). -/
def Mod.bumpBy (m : Mod) (idx sub n : Nat) : Mod := m.setRo idx sub ((m.rov idx sub + n) % 2 ^ counterBits idx sub)
/-- A counter raised by 1. -/
def Mod.bump (m : Mod) (idx sub : Nat) : Mod := m.bumpBy idx sub 1
/-- One bit of an object of the module set. -/
def Mod.setRoBit (m : Mod) (idx sub bit : Nat) (b : Bool) : Mod := m.setRo idx sub (setBit (m.rov idx sub) bit b)

/-- The members of a family whose object `sub` does not stand at its default: number and value. -/
def Mod.members (m : Mod) (base count sub : Nat) : List (Nat × Nat) :=
  m.objs.filterMap fun p =>
    if base * 256 ≤ p.1 ∧ p.1 < (base + count) * 256 ∧ p.1 % 256 = sub then some (p.1 / 256 - base, p.2) else none

/-- A store without the keys that satisfy `f`. -/
def without (f : Nat → Bool) (l : SMap Nat) : SMap Nat := l.filter fun p => !f p.1

/-- The treads that have run, by which phases count (R345). -/
def Mod.phaseTread (m : Mod) : Tread := m.tread - m.time.shift
/-- Whether the fabric runs: in service, and from step 4 of a bring-up on, the wait for an image over P3 included (R293,
R294). -/
def Mod.started (m : Mod) : Bool :=
  decide (m.life = .run ∨ m.life = .ready ∨ m.life = .prepared) || (decide (m.life = .held) && m.reset.needP3)
/-- A loop's states. -/
def Mod.loop (m : Mod) (j : Nat) : LoopSt := lookD m.loops j { restart := m.engine.restart, landed := m.engine.landed }
/-- A loop's states set. -/
def Mod.setLoop (m : Mod) (j : Nat) (s : LoopSt) : Mod := { m with loops := put m.loops j s }
/-- A track. -/
def Mod.track (m : Mod) (t : Nat) : TrackSt := lookD m.tracks t {}
/-- A track set. -/
def Mod.setTrack (m : Mod) (t : Nat) (s : TrackSt) : Mod := { m with tracks := put m.tracks t s }
/-- An analog input. -/
def Mod.inp (m : Mod) (x : Nat) : InpSt := lookD m.inputs x {}
/-- An analog input set. -/
def Mod.setInp (m : Mod) (x : Nat) (s : InpSt) : Mod := { m with inputs := put m.inputs x s }
/-- A converter. -/
def Mod.conv (m : Mod) (c : Nat) : ConvSt := lookD m.convs c {}
/-- A converter set. -/
def Mod.setConv (m : Mod) (c : Nat) (s : ConvSt) : Mod := { m with convs := put m.convs c s }
/-- A bank on the field side. -/
def Mod.fbank (m : Mod) (b : Nat) : BankSt := lookD m.fbanks b {}
/-- A bank on the field side set. -/
def Mod.setFbank (m : Mod) (b : Nat) (s : BankSt) : Mod := { m with fbanks := put m.fbanks b s }
/-- An axis. -/
def Mod.axis (m : Mod) (a : Nat) : AxisSt := lookD m.axes a {}
/-- An axis set. -/
def Mod.setAxis (m : Mod) (a : Nat) (s : AxisSt) : Mod := { m with axes := put m.axes a s }
/-- An axis link. -/
def Mod.link (m : Mod) (k : Nat) : AxisLinkSt := lookD m.links k {}
/-- An axis link set. -/
def Mod.setLink (m : Mod) (k : Nat) (s : AxisLinkSt) : Mod := { m with links := put m.links k s }
/-- A safety input pair. -/
def Mod.safIn (m : Mod) (k : Nat) : SafInSt := lookD m.safety.inputs k {}
/-- A safety input pair set. -/
def Mod.setSafIn (m : Mod) (k : Nat) (s : SafInSt) : Mod := { m with safety := { m.safety with inputs := put m.safety.inputs k s } }
/-- A safe output pair. -/
def Mod.safOut (m : Mod) (p : Nat) : SafOutSt := lookD m.safety.outputs p {}
/-- A safe output pair set. -/
def Mod.setSafOut (m : Mod) (p : Nat) (s : SafOutSt) : Mod := { m with safety := { m.safety with outputs := put m.safety.outputs p s } }

/-- The module with what its committed state keeps in place of what has moved since the boundary (R26, R27): what reads,
images and snapshots of the tread see. The gallery's records are read from MRAM as they stand (R46, R383). -/
def Mod.frozen (m : Mod) : Mod :=
  { m with
    ro := m.com, axes := m.axesCom, hall := m.hallCom, loops := m.kept.loops, tracks := m.kept.tracks,
    gal := { m.kept.gal with recs := m.gal.recs },
    record := m.kept.record, tiles := m.kept.tiles, links := m.kept.links, field := m.kept.field, fbanks := m.kept.fbanks,
    safety := { m.safety with active := m.kept.safety }, firmware := { m.firmware with trial := m.kept.trial },
    trg := m.kept.trg, journal := { m.journal with pfail := m.kept.pfail } }

/-- A change made once per element of a list, in order. -/
def overAll {β γ : Type} (l : List β) (f : γ → β → γ) (m : γ) : γ := l.foldl f m

/-- Insertion into a list kept in order. -/
def insertBy {β : Type} (lt : β → β → Bool) (x : β) : List β → List β
  | [] => [x]
  | y :: l => if lt x y then x :: y :: l else y :: insertBy lt x l
/-- A list put in order, equal elements kept in theirs. -/
def sortBy {β : Type} (lt : β → β → Bool) (l : List β) : List β := l.foldl (fun acc x => insertBy lt x acc) []

end Sys2Proof.Machine
end

