-- ==== Sys2Proof/Machine/Frames.lean ====
section
/-! DEFINITION. What stands around the module's frames on the wire (R274, R314): its addresses, Ethernet II and UDP over IPv4,
in the byte order of those standards. -/

namespace Sys2Proof.Machine

/-- A number's low `n` bytes, the most significant first. -/
def beBytes (n v : Nat) : List Nat := (leBytes n v).reverse

/-- The one's complement sum of 16-bit words, the first byte of each the higher one. -/
def sum16 : List Nat → Nat
  | [] => 0
  | [a] => 256 * a
  | a :: b :: l =>
    let s := 256 * a + b + sum16 l
    s % 65536 + s / 65536

/-- The flags and fragment offset of an IPv4 header with DF set (R274, R314). -/
def dfFlag : Nat := 0x4000

/-- The UDP checksum over pseudo-header, header and payload (R274); a sum that gives 0 is sent as all ones (RFC 768). The
addresses stand in it as on the wire (log entry 70). -/
def udpChecksum (src dst sport dport : Nat) (payload : List Nat) : Nat :=
  let n := 8 + payload.length
  let l := leBytes 4 src ++ leBytes 4 dst ++ beBytes 2 17 ++ beBytes 2 n ++ beBytes 2 sport ++ beBytes 2 dport ++
    beBytes 2 n ++ [0, 0] ++ payload
  let c := 0xFFFF - sum16 l
  if c = 0 then 0xFFFF else c

/-- The module's own IPv4 address on a port: P0 to P2 share one, P3 and DP have theirs. -/
def Mod.ownIp (m : Mod) (port : Nat) : Nat :=
  if port < 3 then m.cfg 0x1100 9 % 2 ^ 32 else if port = 3 then m.cfg 0x1100 0xA % 2 ^ 32 else m.cfg 0x3838 5

/-- Its own MAC address on a port. -/
def ownMac (port : Nat) : Nat :=
  if port < 3 then Config.macSwitch.toNat else if port = 3 then Config.macP3.toNat else Config.macData.toNat

/-- What stands before a Spasia frame on its way to an address (R314): for Ethernet II both MAC addresses and the EtherType; for
UDP over IPv4 the MAC addresses, the EtherType of IPv4, the flags with DF set, both addresses, both ports and the checksum. -/
def Mod.framing (m : Mod) (d : Src) (frame : List Nat) : List Nat :=
  let ip := m.ownIp d.port
  let port := m.reset.udpPort
  if d.udp then [d.mac, ownMac d.port, 0x0800, dfFlag, ip, d.ip, port, d.udpPort, udpChecksum ip d.ip port d.udpPort frame]
  else [d.mac, ownMac d.port, m.reset.etherType]

/-- Whether a frame is addressed to the Spasia link by its EtherType or its UDP port (R314). -/
def Mod.spoken (m : Mod) (s : Src) : Bool :=
  match s.proto with
  | some k => decide (k = if s.udp then m.reset.udpPort else m.reset.etherType)
  | none => true

/-- Bytes of a frame on the wire: Ethernet header and FCS, the IPv4 and UDP headers where they stand, at least 64. -/
def wireLen (udp : Bool) (n : Nat) : Nat := Max.max 64 (n + 18 + 28 * b2n udp)

end Sys2Proof.Machine
end

