-- ==== Sys2Proof/Machine/LoopEval.lean ====
section
/-! DEFINITION. One loop evaluation as numbers: the fixed computation of R111 in the arithmetic of R116, the
advance of a profile generator (R143 to R148), and the candidate of a repetitive controller (R154). What the
evaluation reads from the rest of the machine comes as arguments. -/

namespace Sys2Proof.Machine

/-- The coefficients of the bank in use (subindices 01 to 17 of 0x2400+j), as the engine holds them (R117). -/
structure Coefs where
  kp : Dy
  ki : Dy
  kd : Dy
  alpha : Dy
  kaw : Dy
  beta : Dy
  kf1 : Dy
  kf2 : Dy
  kfx : Dy
  ib0 : Dy
  ib1 : Dy
  ib2 : Dy
  ia1 : Dy
  ia2 : Dy
  ob0 : Dy
  ob1 : Dy
  ob2 : Dy
  oa1 : Dy
  oa2 : Dy
  rup : Dy
  rdn : Dy
  omin : Dy
  omax : Dy
deriving DecidableEq, Repr

/-- The coefficients read through a subindex. -/
def Coefs.of (g : Nat → Nat) : Coefs :=
  let c := fun n => bfOfF32 (g n)
  { kp := c 1, ki := c 2, kd := c 3, alpha := c 4, kaw := c 5, beta := c 6, kf1 := c 7, kf2 := c 8, kfx := c 9,
    ib0 := c 10, ib1 := c 11, ib2 := c 12, ia1 := c 13, ia2 := c 14, ob0 := c 15, ob1 := c 16, ob2 := c 17,
    oa1 := c 18, oa2 := c 19, rup := c 20, rdn := c 21, omin := c 22, omax := c 23 }

/-- Element `n` of a rounded stage, at the stage's exponent. -/
def stageAt (st : Int × List Int × Bool) (n : Nat) : Dy := ⟨st.2.1.getD n 0, st.1 - 23⟩

/-- Stage 1, the input biquad (R111): `x` is the source value, or the last one. -/
def evalInput (c : Coefs) (s : LoopSt) (x : Dy) (invalid : Bool) : LoopSt :=
  let pvf := (c.ib0.mul x).add s.is1
  let is1 := ((c.ib1.mul x).sub (c.ia1.mul pvf)).add s.is2
  let is2 := (c.ib2.mul x).sub (c.ia2.mul pvf)
  let st := bfStage [x, pvf, is1, is2]
  { s with x := stageAt st 0, pvf := stageAt st 1, is1 := stageAt st 2, is2 := stageAt st 3,
           invalid := invalid, sat := s.sat || st.2.2 }

/-- What stages 2 to 9 read besides the loop's own state. -/
structure EvalIn where
  mode : Nat
  reverse : Bool
  sp : Dy
  xff : Dy
  r : Dy
  dest : Option Dy
  held : Dy
  forms : Bool
  base : Option Dy
deriving DecidableEq, Repr

/-- The unrounded terms of the control stage (R111, parts 2 to 5 and v). -/
structure CtlTerms where
  e : Dy
  p : Dy
  d : Dy
  df : Dy
  ff : Dy
  r : Dy
  i : Dy
  v : Dy
  sp1 : Dy
deriving DecidableEq, Repr

/-- Parts 2 to 5 and the sum v. -/
def evalControl (c : Coefs) (s : LoopSt) (a : EvalIn) : CtlTerms :=
  let pl := if s.restart then s.pvf else s.pvfLast
  let df0 := if s.restart then Dy.zero else s.df
  let sp1 := if s.restart then a.sp else s.sp1
  let sp2 := if s.restart then a.sp else s.sp2
  let sg := fun (d : Dy) => if a.reverse then d.neg else d
  let e := sg (a.sp.sub s.pvf)
  let p := c.kp.mul (sg ((c.beta.mul a.sp).sub s.pvf))
  let df := df0.add (c.alpha.mul ((s.pvf.sub pl).sub df0))
  let d := (c.kd.mul (sg df)).neg
  let ff := ((c.kf1.mul (a.sp.sub sp1)).add
    (c.kf2.mul ((a.sp.sub (sp1.add sp1)).add sp2))).add (c.kfx.mul a.xff)
  let r := if a.mode = 2 ∨ a.mode = 3 then a.r else Dy.zero
  let i0 := if a.mode = 0 ∧ s.mode ≠ 0 then Dy.zero else s.i
  let rest := Dy.sum [p, d, ff, r]
  let i := match a.base with
    | some b => if a.forms then b.sub rest else i0
    | none => i0
  { e, p, d, df, ff, r, i, v := if a.forms then rest.add i else s.v, sp1 }

/-- The unrounded output stage (R111, parts 6 to 8) and its limit flags. -/
structure OutTerms where
  w : Dy
  u : Dy
  os1 : Dy
  os2 : Dy
  high : Bool
  low : Bool
  rate : Bool
deriving DecidableEq, Repr

/-- The steady states of the output biquad for `u`. -/
def steady (c : Coefs) (u : Dy) : Dy × Dy := ((Dy.one.sub c.ob0).mul u, (c.ob2.sub c.oa2).mul u)

/-- Parts 6 to 8. -/
def evalOutput (c : Coefs) (s : LoopSt) (a : EvalIn) (v : Dy) : OutTerms :=
  if a.mode = 0 then
    let u := a.dest.getD s.uLast
    { w := u, u, os1 := (steady c u).1, os2 := (steady c u).2, high := false, low := false, rate := false }
  else
    let w := if a.forms then (c.ob0.mul v).add s.os1 else a.held
    let up := s.uLast.add c.rup
    let dn := s.uLast.sub c.rdn
    let u1 := if Dy.zero.lt c.rup then w.min up else w
    let u2 := if Dy.zero.lt c.rdn then u1.max dn else u1
    let u := (u2.max c.omin).min c.omax
    let os := if a.forms then
        (((c.ob1.mul v).sub (c.oa1.mul w)).add s.os2, (c.ob2.mul v).sub (c.oa2.mul w))
      else steady c u
    { w, u, os1 := os.1, os2 := os.2, high := c.omax.lt u2, low := u2.lt c.omin, rate := !(u2.eqv w) }

/-- One evaluation after its input stage (R111): each stage rounded once, the control stage with the integrator
after its update (log entry 21). -/
def evalRest (c : Coefs) (s : LoopSt) (a : EvalIn) : LoopSt :=
  let k := evalControl c s a
  let o := evalOutput c s a k.v
  let so := bfStage [o.w, o.os1, o.os2, o.u]
  let u := stageAt so 3
  let w := stageAt so 0
  let i := if a.mode ≠ 0 ∧ a.forms then
      (k.i.add (c.ki.mul k.e)).add (c.kaw.mul (u.sub w))
    else k.i
  let sc := bfStage [a.sp, a.sp, k.sp1, k.e, k.p, i, k.d, k.df, s.pvf, k.ff, a.xff, k.r, k.v]
  { s with
    sp := stageAt sc 0, sp1 := stageAt sc 1, sp2 := stageAt sc 2, e := stageAt sc 3, p := stageAt sc 4,
    i := stageAt sc 5, d := stageAt sc 6, df := stageAt sc 7, pvfLast := stageAt sc 8, ff := stageAt sc 9,
    xff := stageAt sc 10, r := stageAt sc 11, v := stageAt sc 12,
    w := w, os1 := stageAt so 1, os2 := stageAt so 2, u := u, uLast := u,
    mode := a.mode, formed := a.forms, retune := false, restart := false, landed := false,
    high := o.high, low := o.low, rate := o.rate,
    sat := s.sat || so.2.2 || sc.2.2 }

/-- The settled flag (R133): `band` the settle band, `dwell` the settle dwell, `rest` whether the generator stands at
its target. The count of evaluations within the band runs in AUTO and CASCADE whether or not the output is formed. -/
def settle (s : LoopSt) (old : LoopSt) (band : Dy) (dwell : Nat) (rest : Bool) : LoopSt :=
  let auto := decide (s.mode = 2) || decide (s.mode = 3)
  let inBand := auto && Dy.zero.lt band && s.e.abs.le band
  let n := if inBand then (if old.mode ≠ s.mode then 1 else satAdd 65535 old.dwell 1) else 0
  { s with dwell := n, settled := s.formed && inBand && decide (dwell ≤ n) && (decide (s.mode = 3) || rest) }

/-! ### The profile generator -/

/-- A limit object as a limit: 0.0 is none (R142). -/
def limOf (w : Nat) : Option Fx := if (f32D w).m = 0 then none else some (Fx.ofDy (f32D w))
/-- The limits of a generator; the jerk limit counts only with an acceleration limit (R142). -/
def limsOf (v a j : Nat) : Lim := ⟨limOf v, limOf a, if (limOf a).isNone then none else limOf j⟩

/-- The generator at rest at a value (R147, R143). -/
def ProfSt.rest (g : ProfSt) (y : Fx) : ProfSt := { g with mot := ⟨y, 0, 0⟩, plan := ⟨[], 0, 0⟩, clock := 0, state := 0 }

/-- Treads to the plan's end, rounded up (R148). -/
def ProfSt.toGo (g : ProfSt) : Nat :=
  if g.state = 0 ∨ g.state = 4 then 0 else
  let left := planTime g.plan.phases - planSlack - treadTime g.clock
  Min.min 0xFFFFFFFF (if left ≤ 0 then 0 else (-((-(left * 100000)) / Fx.one)).toNat)

/-- One advance of the generator by `k` treads (R144): the target and limits as committed. Answers the generator and
whether the limited count rises (R148): it replans for committed changes, a jump that another target follows among them,
and does not reach the target. -/
def ProfSt.advance (g : ProfSt) (k target v a j : Nat) : ProfSt × Bool :=
  let changed := decide (g.target ≠ target ∨ g.vlim ≠ v ∨ g.alim ≠ a ∨ g.jlim ≠ j) || g.touched || g.moved
  let goal := Fx.ofDy (f32D target)
  let replan := changed || decide (g.state = 4)
  let g1 := if replan then
      { g with target := target, vlim := v, alim := a, jlim := j, start := g.mot, clock := 0, moved := false, touched := false,
               state := 1, plan := planTo (limsOf v a j) g.mot goal }
    else g
  let clock := g1.clock + k
  let t := treadTime clock
  let total := planTime g1.plan.phases
  if total - planSlack ≤ t then
    ({ g1.rest goal with limited := false }, false)
  else
    let m := follow g1.start g1.plan.phases t
    let st := if t < g1.plan.reduceFor - planSlack then 3 else if t < g1.plan.stopFor - planSlack then 2 else 1
    let m' : Motion := ⟨Fx.f64 m.y, Fx.f64 m.v, Fx.f64 m.a⟩
    ({ g1 with mot := m', clock := clock, state := st, limited := decide (m'.y ≠ goal) }, changed)

/-- The generator under set-point tracking (R143). -/
def ProfSt.track (g : ProfSt) (y : Fx) (target : Nat) : ProfSt :=
  { g.rest y with target := target, moved := false, touched := false, jumped := false, limited := false }

/-- The generator bypassed in CASCADE (R143). -/
def ProfSt.bypass (g : ProfSt) : ProfSt := { g with state := 4, limited := false, jumped := false }

/-! ### The repetitive controller -/

/-- The term r of an entry (R151). -/
def repTerm (q : Int) (s : Dy) : Dy := ⟨q * s.m, s.e - 15⟩

/-- The candidate of R154 from the three entries around t: exact, rounded to nearest with ties to even, saturated.
The division by the scale is exact to 256 binary places before it is rounded. -/
def repCand (qm q0 qp g s e : Dy) (pm p0 pp : Int) : Int :=
  let f := Dy.sum [qm.mul (Dy.ofInt pm), q0.mul (Dy.ofInt p0), qp.mul (Dy.ofInt pp)]
  let num := (g.mul e).mul ⟨1, 15⟩
  let corr := (Fx.div (num.unitsAt (-512)) (Max.max 1 (s.unitsAt (-512)))).toDy
  let cand := (f.add corr).round
  Min.min (Max.max cand (-32768)) 32767

end Sys2Proof.Machine
end

