-- ==== Sys2Proof/Machine/Read.lean ====
section
/-! DEFINITION. What the machine shows: the schedule, destinations and cascades as configured (05), the values of the
objects that are views of hidden state (R26), and the signals of R6. -/

namespace Sys2Proof.Machine

/-! ### Loop configuration -/

/-- Period of a rate class in treads; none where unscheduled or not a class (R118). -/
def classPeriod : Nat → Option Nat
  | 0 => some 1 | 1 => some 2 | 2 => some 4 | 3 => some 10 | 4 => some 20 | 5 => some 100 | _ => none

/-- Period and phase of a schedule word (R118). -/
def schedOf (w : Nat) : Option (Nat × Nat) := (classPeriod (bits w 8 3)).map fun k => (k, w % 256)

/-- Period and phase of loop `j`. -/
def Mod.sched (m : Mod) (j : Nat) : Option (Nat × Nat) := schedOf (m.cfg (0x2200 + j) 0x0E)

/-- The scheduled loops, by number. -/
def Mod.scheduled (m : Mod) : List (Nat × Nat × Nat) :=
  (m.members 0x2200 512 0x0E).filterMap fun p => (schedOf p.2).map fun s => (p.1, s.1, s.2)

/-- Evaluations due in a tread of residue `q` under a list of schedules (R119). -/
def dueCount (l : List (Nat × Nat × Nat)) (q : Nat) : Nat :=
  l.foldl (fun n p => if q % p.2.1 = p.2.2 then n + 1 else n) 0
/-- The largest count over the 100 residues (R119). -/
def worstLoad (l : List (Nat × Nat × Nat)) : Nat := (List.range 100).foldl (fun n q => Max.max n (dueCount l q)) 0

/-- A loop's destination signal. -/
def Mod.dest (m : Mod) (j : Nat) : Sig := m.cfg (0x2200 + j) 0x11
/-- A loop's mode. -/
def Mod.mode (m : Mod) (j : Nat) : Nat := m.cfg (0x2200 + j) 0x01
/-- The loop that names a signal as its destination. -/
def Mod.namer (m : Mod) (sig : Sig) : Option Nat :=
  ((m.members 0x2200 512 0x11).find? fun p => decide (p.2 = sig)).map (·.1)
/-- The loop that drives a signal: it names it and is not in OFF (R110). -/
def Mod.driver (m : Mod) (sig : Sig) : Option Nat :=
  match m.namer sig with
  | some j => if m.mode j ≠ 0 then some j else none
  | none => none
/-- The mode of a loop as the present boundary found it. -/
def Mod.modeWas (m : Mod) (j : Nat) : Nat := (look m.wold (okey 0 (0x2200 + j) 0x01)).getD (m.mode j)
/-- The loop that drove a signal as the present boundary came: an action on the field is built into the image before the
boundary's own mode changes are known (R67, R110; log entry 82). -/
def Mod.driverWas (m : Mod) (sig : Sig) : Option Nat :=
  match m.namer sig with
  | some j => if m.modeWas j ≠ 0 then some j else none
  | none => none
/-- Whether a mapped signal of an object is among the destinations that `drv` finds driven (R424). -/
def Mod.mappedBy (m : Mod) (drv : Sig → Option Nat) (idx sub : Nat) : Bool :=
  (m.members 0x1700 240 1).any fun p => decide (p.2 = idx + 65536 * sub) && (drv (0xF00 + p.1)).isSome
/-- Whether a loop drove an object through a mapped signal as the present boundary came (R110, R424). -/
def Mod.mappedDriven (m : Mod) (idx sub : Nat) : Bool := m.mappedBy m.driverWas idx sub
/-- The inner loop that a destination names. -/
def innerOf (sig : Sig) : Option Nat := if 0x200 ≤ sig ∧ sig < 0x400 then some (sig - 0x200) else none
/-- The outer loop of loop `j` (R128). -/
def Mod.outer (m : Mod) (j : Nat) : Option Nat := m.namer (0x200 + j)

/-- Depth of loop `j` in its chain, the innermost 1, followed for at most `n` links (R128). -/
def Mod.depthGo (m : Mod) : Nat → Nat → Nat
  | 0, _ => 1
  | n + 1, j => match innerOf (m.dest j) with
    | some i => 1 + m.depthGo n i
    | none => 1
/-- Cascade depth (0x2200+j:0F). -/
def Mod.depth (m : Mod) (j : Nat) : Nat := m.depthGo 5 j

/-! ### Digital outputs and groups -/

/-- The lead of output `o` under a bank's parallel map in force (R191): go down while joined. -/
def leadGo (map base : Nat) : Nat → Nat
  | 0 => base
  | i + 1 => if tb map (i + 1) then leadGo map base i else base + i + 1
/-- The lead of an output's group; the output itself where it is in none. -/
def Mod.lead (m : Mod) (o : Nat) : Nat := leadGo (lookD m.field.parallel (o / 32) 0) (o / 32 * 32) (o % 32)
/-- The members of the group that `o` leads. -/
def Mod.group (m : Mod) (o : Nat) : List Nat :=
  (List.range 32).filterMap fun i => if m.lead (o / 32 * 32 + i) = o then some (o / 32 * 32 + i) else none
/-- Whether an output is in duty mode (R190). -/
def Mod.isDuty (m : Mod) (o : Nat) : Bool := decide (m.cfg (0x3400 + m.lead o) 2 = 1)

/-! ### Banks of the stairwell -/

/-- A bank by its number, as 0x4020:01 gives it. -/
def Mod.bankNo (m : Mod) : Nat → Bank
  | 0 => m.bankA
  | 1 => m.bankB
  | _ => {}
/-- The active bank; empty where none is (R102). -/
def Mod.bank (m : Mod) : Bank := m.bankNo (m.rov 0x4020 1)
/-- The shadow bank. -/
def Mod.shadow (m : Mod) : Bank := if m.rov 0x4020 1 = 0 then m.bankB else m.bankA
/-- Which bank is the shadow: bank 1 while bank 0 is active, else bank 0. -/
def Mod.shadowIsB (m : Mod) : Bool := decide (m.rov 0x4020 1 = 0)
/-- The shadow bank set. -/
def Mod.setShadow (m : Mod) (b : Bank) : Mod := if m.shadowIsB then { m with bankB := b } else { m with bankA := b }
/-- The active bank set. -/
def Mod.setBank (m : Mod) (b : Bank) : Mod :=
  match m.rov 0x4020 1 with
  | 0 => { m with bankA := b }
  | 1 => { m with bankB := b }
  | _ => m

/-- Word `i` of an entry. -/
def wordOf (e i : Nat) : Nat := bits e (32 * i) 32
/-- A step entry of a bank; 0 where empty. -/
def Bank.step (b : Bank) (n : Nat) : Nat := lookD b.steps n 0
/-- An action of a bank. -/
def Bank.action (b : Bank) (n : Nat) : Nat := lookD b.actions n 0
/-- A constant of a bank. -/
def Bank.const (b : Bank) (n : Nat) : Nat := lookD b.consts n 0

/-- The loops named by the valid entries of a loop-mode set. -/
def setLoops (set : Nat) : List Nat :=
  (List.range 32).filterMap fun i => if tb (wordOf set i) 31 then some (bits (wordOf set i) 0 9) else none
/-- The loop-mode set of a step; 0 for none (W10). -/
def Bank.stepSet (b : Bank) (step : Nat) : Nat :=
  let n := bits (wordOf (b.step step) 10) 0 16
  if n = 0xFFFF then 0 else lookD b.sets n 0

/-! ### Views -/

/-- F32 of a loop internal (R117). -/
def repF32 (d : Dy) : Nat := toF32 d

/-- The status flags of a loop (0x2200+j:17). -/
def LoopSt.flags (s : LoopSt) : Nat :=
  b2n s.settled + 2 * b2n s.high + 4 * b2n s.low + 8 * b2n s.rate + 16 * b2n s.tracking + 32 * b2n s.lost +
  64 * b2n s.invalid + 128 * b2n s.sat + 256 * b2n s.prof.limited + 512 * b2n s.rep.frozen +
  1024 * b2n (s.lostFf || s.lostTr)

/-- Views of index 0x2200+j. -/
def Mod.viewLoop (m : Mod) (j sub : Nat) : Option Nat :=
  let s := m.loop j
  match sub with
  | 0x03 => some (repF32 s.pvf)
  | 0x04 => some (repF32 s.u)
  | 0x05 => some (repF32 s.sp)
  | 0x06 => some (repF32 s.e)
  | 0x08 => some (repF32 s.p)
  | 0x09 => some (repF32 s.i)
  | 0x0A => some (repF32 s.d)
  | 0x0B => some (repF32 s.ff)
  | 0x0C => some (repF32 s.r)
  | 0x0F => some (m.depth j)
  | 0x17 => some s.flags
  | 0x18 => some (repF32 s.x)
  | _ => none

/-- Views of index 0x2800+j. -/
def Mod.viewProfile (m : Mod) (j sub : Nat) : Option Nat :=
  let g := (m.loop j).prof
  match sub with
  | 0x04 => some (toF32 g.mot.y.toDy)
  | 0x05 => some (toF32 g.mot.v.toDy)
  | 0x06 => some (toF32 g.mot.a.toDy)
  | 0x07 => some g.toGo
  | 0x08 => some g.state
  | _ => none

/-- A pool entry, 0 where none is listed (R150). -/
def Mod.poolAt (m : Mod) (n : Nat) : Int := lookD m.pool n 0

/-- The table window (R157): 128 entries from the offset, beyond N as 0. -/
def Mod.tableWindow (m : Mod) (j : Nat) : Nat :=
  let base := m.cfg (0x2A00 + j) 0x04
  let n := m.cfg (0x2A00 + j) 0x05
  let off := m.cfg (0x2A00 + j) 0x13
  ofLe ((List.range 128).foldr (fun i acc =>
    leBytes 2 (ofSigned 16 (if off + i < n then m.poolAt (base + off + i) else 0)) ++ acc) [])

/-- Controller state (R155); a fixed period needs no lock (R152). -/
def Mod.repState (m : Mod) (j : Nat) : Nat :=
  let s := (m.loop j).rep
  if m.cfg (0x2A00 + j) 1 = 0 then 0 else if m.cfg (0x2A00 + j) 2 ≠ 0 ∧ !s.locked then 1 else if s.frozen then 3 else 2

/-- Views of index 0x2A00+j. -/
def Mod.viewRep (m : Mod) (j sub : Nat) : Option Nat :=
  let s := (m.loop j).rep
  match sub with
  | 0x0F => some (m.repState j)
  | 0x10 => some s.index
  | 0x11 => some (if m.cfg (0x2A00 + j) 2 = 3 then toF32 (Dy.ofInt s.period) else 0)
  | 0x14 => some (m.tableWindow j)
  | _ => none

/-- Views of index 0x2000. -/
def Mod.viewEngine (m : Mod) (sub : Nat) : Option Nat :=
  match sub with
  | 0x01 => some (worstLoad m.scheduled)
  | 0x0B => some m.scheduled.length
  | 0x10 => some ((m.members 0x2A00 512 5).foldl (fun n p => n + p.2) 0)
  | _ => none

/-- Views of index 0x4000+t (R77 table). -/
def Mod.viewTrack (m : Mod) (t sub : Nat) : Option Nat :=
  let s := m.track t
  match sub with
  | 0x02 => some s.state
  | 0x03 => some s.step
  | 0x04 => some s.entryTread
  | 0x05 => some s.timer
  | 0x06 => some s.entryPoint
  | 0x07 => some s.dfltLanding
  | 0x08 => some s.curLanding
  | 0x09 => some s.cause
  | 0x0A => some s.lastExit
  | 0x0B => some s.owner
  | 0x0D => some s.entered
  | _ => none

/-- How many tracks are RUNNING or PAUSED (0x4010:01; log entry 22). -/
def Mod.running (m : Mod) : Nat :=
  m.tracks.foldl (fun n p => if p.2.state = 1 ∨ p.2.state = 2 then n + 1 else n) 0

/-- Views of index 0x4020. -/
def Mod.viewBanks (m : Mod) (sub : Nat) : Option Nat :=
  let valid := decide (m.rov 0x4020 7 = 3)
  match sub with
  | 0x02 => some m.bank.id
  | 0x03 => some m.bank.format
  | 0x05 => some (if valid then m.shadow.id else 0)
  | 0x06 => some (if valid then m.shadow.format else 0)
  | 0x0E => some m.bank.desc
  | _ => none

/-- The entry that a read selector names (R444); 0 beyond its table (log entry 93). -/
def Mod.readWindow (m : Mod) (sel : Nat) : Nat :=
  let b := if tb sel 31 then m.shadow else m.bank
  let n := bits sel 0 28
  match bits sel 28 3 with
  | 1 => b.step n
  | 2 => b.action n
  | 3 => b.const n
  | 4 => lookD b.patterns n 0
  | 5 => bits (lookD b.sets (n % 65536) 0) (512 * bits sel 16 1) 512
  | 6 => lookD b.landings n 0
  | 7 => lookD b.entries n 0
  | _ => 0
/-- The name of the entry point that a selector names. -/
def Mod.entryName (m : Mod) (sel : Nat) : Nat := if bits sel 28 3 = 7 then bits (m.readWindow sel) 64 64 else 0

/-- The link state (R194). -/
def FieldSt.linkState (f : FieldSt) : Nat := b2n f.fallOut + 2 * b2n f.fallIn

/-- Views of the digital inputs (R188, R189, R193). -/
def Mod.viewDi (m : Mod) (i sub : Nat) : Option Nat :=
  match sub with
  | 0x02 => some (b2n (tb m.field.snapDi i))
  | 0x03 => some (b2n (tb m.field.snapRaw i))
  | 0x04 => some (b2n m.field.diStale + 2 * b2n m.field.fallIn + 4 * b2n (tb m.field.snapLow (i / 32)))
  | _ => none

/-- Views of the digital outputs: a member of a group reads its lead's values (R191). -/
def Mod.viewDo (m : Mod) (o sub : Nat) : Option Nat :=
  match sub with
  | 0x06 => some (b2n (tb m.field.snapRead o))
  | 0x08 => if m.lead o = o then none else some (m.rov (0x3400 + m.lead o) 8)
  | _ => if m.lead o = o then none else some (m.cfg (0x3400 + m.lead o) sub)

/-- Signatures of the safety configuration (R211). -/
def isSafetyCfg (k : Nat) : Bool :=
  let idx := k / 256 % 65536
  decide (0x3500 ≤ idx ∧ idx < 0x3538) &&
  (match place idx (k % 256) with
   | some p => decide (p.row.acc = .rwl)
   | none => false)
/-- The pending safety configuration, as it stands in the store. -/
def Mod.pendingSafety (m : Mod) : SMap Nat := m.objs.filter fun p => isSafetyCfg p.1
/-- A value of the active safety configuration. -/
def Mod.act (m : Mod) (idx sub : Nat) : Nat := stGet m.safety.active (okey 0 idx sub)

/-- Whether a channel of an input pair is faulted. -/
def SafInSt.faulted (s : SafInSt) : Bool := s.a.fault || s.b.fault
/-- Whether a channel of an output pair is faulted. -/
def SafOutSt.faulted (s : SafOutSt) : Bool := s.a.fault || s.b.fault
/-- The fault code that an output pair reports (R223, R226): logic loss until a restart ends it, unless the pair is latched; the
code of a degraded pair otherwise. -/
def SafOutSt.code (s : SafOutSt) : Nat := if s.loss ∧ !s.latched then 11 else s.fault
/-- Whether an input pair is in demand (R217). -/
def Mod.inDemand (m : Mod) (s : SafInSt) (k : Nat) : Bool :=
  decide (m.act (0x3510 + k) 1 ≠ 0) && (s.a.demand || s.b.demand || s.latched)

/-- Views of a safety input pair, from the snapshot (R26). -/
def Mod.viewSafeIn (m : Mod) (k sub : Nat) : Option Nat :=
  let s := lookD m.snapIn k {}
  let used := decide (m.act (0x3510 + k) 1 ≠ 0)
  match sub with
  | 6 => some (if used then
      b2n (m.inDemand s k) + 2 * b2n s.a.fault + 4 * b2n s.b.fault + 8 * b2n (s.faulted && !s.latched) +
        16 * b2n s.latched + 32 * b2n (decide (0 < s.discrepancy) && !s.latched)
    else 0)
  | 7 => some (b2n s.a.level + 2 * b2n s.b.level)
  | 8 => some s.fault
  | 0x0A => some (s.left / 1000)
  | _ => none

/-- State of an output pair (0x3530+p:10). -/
def SafOutSt.state (s : SafOutSt) : Nat :=
  if s.latched then 4 else if !s.on then 0 else if s.delay.isSome then 2 else if s.faulted then 3 else 1

/-- Views of a safe output pair, from the snapshot (R26). -/
def Mod.viewSafeOut (m : Mod) (p sub : Nat) : Option Nat :=
  let s := lookD m.snapOut p {}
  match sub with
  | 0x0B => some s.requests
  | 0x0C => some s.code
  | 0x0E => some (s.left / 1000)
  | 0x10 => some s.state
  | _ => none

/-- The loop that drives an axis (R110, R242). -/
def Mod.axisLoop (m : Mod) (a : Nat) : Option Nat := m.driver (0xB10 + a)

/-- Whether an axis follows its loop (R242). -/
def Mod.follows (m : Mod) (s : AxisSt) (a : Nat) : Bool :=
  (m.axisLoop a).isSome && !s.suspended && (decide (s.state = 1) || decide (s.state = 2))

/-- Views of an axis, from the committed state (R26). -/
def Mod.viewAxis (m : Mod) (a sub : Nat) : Option Nat :=
  let s := lookD m.axesCom a {}
  match sub with
  | 0x02 => some s.state
  | 0x03 => some (ofSigned 64 s.pos)
  | 0x04 => some (toF32 s.mot.v.toDy)
  | 0x18 => some s.queue.length
  | 0x19 => some (b2n (m.follows s a) + 2 * b2n s.suspended +
      4 * b2n (decide (s.state = 2) && (match s.ends with | e :: _ => decide (e.2 ≠ 0) | [] => false)) +
      8 * b2n s.holdCurrent + 16 * b2n s.refLost)
  | 0x1A => some s.status
  | 0x1B => some s.fault
  | 0x1D => some (ofSigned 64 s.phi)
  | 0x1E => some (ofSigned 32 s.change)
  | 0x1F => some s.tier
  | _ => none

/-- Link state (0x3640+k:02). -/
def Mod.linkOf (m : Mod) (k : Nat) : Nat :=
  if (lookD m.links k {}).fault then 2 else if tb m.tiles.awake (8 + k) then 1 else 0

/-! ### What stands in several chapters' objects -/

/-- Size of an object's value, 0 where it is variable. -/
def sizeOf_ (p : Place) : Nat := p.row.ty.size.getD 0

/-- Seconds of trial left (0x1620:07). -/
def Mod.trialLeft (m : Mod) : Nat :=
  match m.firmware.trial with
  | some t => (60000000 - (m.tread - t)) / 100000
  | none => 0

/-- Whether the hold-window rule is broken (R206). -/
def Mod.holdShort (m : Mod) : Bool := decide (m.cfg 0x34D0 1 < m.cfg 0x1400 8 + 10)

/-- The association in the hall that declares a node ID (R335). -/
def Mod.byNode (m : Mod) (node : Nat) : Nat :=
  if node = 0 then 0 else
  match m.hall.find? fun p => decide (p.2.state ≠ 0 ∧ p.2.agreed.cls = 1 ∧ p.2.agreed.node = node) with
  | some p => p.1
  | none => 0

/-- The association to which satellite entry `k` is bound, 0 for none (R335). -/
def Mod.boundTo (m : Mod) (k : Nat) : Nat := m.byNode (m.cfg (0x5000 + k) 1)

/-- The partner of image map `k` (R332): the association named, or the satellite with the node ID. -/
def Mod.mapPartner (m : Mod) (k : Nat) : Nat :=
  if m.cfg (0x6000 + k) 0x0D = 0 then m.cfg (0x6000 + k) 2 else m.byNode (m.cfg (0x6000 + k) 0x0D)

/-- Image data size of map `k` (0x6000+k:0C). -/
def Mod.imageSize (m : Mod) (k : Nat) : Nat :=
  (List.range (m.cfg (0x6000 + k) 5)).foldl (fun n i =>
    let e := m.cfg (0x6000 + k) (0x10 + i)
    n + (match place (e % 65536) (bits e 16 8) with
      | some p => sizeOf_ p
      | none => if bits e 16 8 = 0 then 1 else 0)) 0

/-- State of image map `k` (R332). -/
def Mod.mapState (m : Mod) (k : Nat) : Nat :=
  if m.cfg (0x6000 + k) 6 = 0 then 0
  else match look m.hall (m.mapPartner k) with
    | some p => if m.mapPartner k ≠ 0 ∧ p.state ≠ 0 then 1 else 2
    | none => 2

/-- Whether a mapped signal may be written by actions and loops (R424): its object is RWS and not 64-bit. -/
def mappedWritable (o : Nat) : Bool :=
  match place (o % 65536) (bits o 16 8) with
  | some p => decide (p.row.acc = .rws) && decide (sizeOf_ p ≤ 4) && decide (sizeOf_ p ≠ 0) && !p.row.per
  | none => false

/-- Status of satellite entry `k` (R336): bound, lost, never delivered, the last two kept in the module's store; an unmapped
in-direction entry shows both of these. -/
def Mod.satStatus (m : Mod) (ro : SMap Nat) (k : Nat) : Nat :=
  let bound := b2n (decide (m.boundTo k ≠ 0))
  if m.cfg (0x5000 + k) 2 = 1 then bound
  else if m.cfg (0x5000 + k) 1 = 0 then 6 else
  let s := stGet ro (okey 0 (0x5000 + k) 4)
  bound + 2 * b2n (tb s 1 || decide (bound = 0)) + 4 * b2n (tb s 2)

/-- Blocks that the ring holds (0x3800:02). -/
def ringSize : Nat := 1966080
/-- The oldest ring sequence held. -/
def Mod.ringOldest (m : Mod) : Nat := if m.record.next ≤ ringSize then 0 else m.record.next - ringSize
/-- The pre-trigger treads that the buffer holds for a firing at the present tread. -/
def Mod.preHeld (m : Mod) (pre : Nat) : Nat := Min.min pre (m.tread - m.record.bufSince)

/-! ### Signals (R6) -/

/-- A signal's value: F32 as stored, or an exact number. -/
inductive SigV where
  | f (w : Nat)
  | d (x : Dy)
deriving DecidableEq, Repr

/-- As an exact number; none for a NaN or an infinity. -/
def SigV.num : SigV → Option Dy
  | .f w => Machine.f32 w
  | .d x => some x
/-- As F32 (R59). -/
def SigV.toF : SigV → Nat
  | .f w => w
  | .d x => toF32 x

/-- A whole number as a signal value. -/
def SigV.n (n : Nat) : SigV := .d (Dy.ofInt n)

/-- Whether a signal ID is assigned (R6); 0xFFF is not. -/
def assigned (s : Sig) : Bool :=
  decide (s < 0xAEE) || decide (0xAF0 ≤ s ∧ s < 0xB04) || decide (0xB10 ≤ s ∧ s < 0xB80) ||
  decide (0xC00 ≤ s ∧ s < 0xFF0)

/-- The signals whose value is 0 or 1, for operators 6 and 7 and for S2. -/
def digital (s : Sig) : Bool :=
  decide (0x940 ≤ s ∧ s ≤ 0xAED) || decide (0xAF0 ≤ s ∧ s ≤ 0xB03) || decide (0xB60 ≤ s ∧ s ≤ 0xB7F)

end Sys2Proof.Machine
end

