-- ==== Sys2Proof/Machine/Signals.lean ====
section
/-! DEFINITION. The value of every signal of R6 in the committed state, its validity (R112) and whether it is lost
(R134), and the values of dictionary objects as signals (R423). -/

namespace Sys2Proof.Machine

/-- A CAN message object, CAN0 as 0 to 127, CAN1 as 128 to 255. -/
def Mod.canObj (m : Mod) (k : Nat) : CanObjSt := lookD m.canObjs k {}
/-- A CAN message object set. -/
def Mod.setCanObj (m : Mod) (k : Nat) (s : CanObjSt) : Mod := { m with canObjs := put m.canObjs k s }
/-- A configured value of a message object. -/
def Mod.canCfg (m : Mod) (k sub : Nat) : Nat := m.cfg (0x3700 + k % 128) (sub + 16 * (k / 128))

/-- Size in bytes of a mapping's type (0x3700+m:05). -/
def mapSize : Nat → Nat
  | 1 | 2 => 1
  | 3 | 4 => 2
  | 5 | 6 | 7 => 4
  | _ => 0

/-- The mapped value of a message object (R362): raw × scale + offset; none where there is no finite raw value. -/
def Mod.canValue (m : Mod) (k : Nat) : Option Dy :=
  let map := m.canCfg k 5
  let n := mapSize (bits map 8 4)
  let raw := m.canCfg k 8 / 256 ^ (map % 256) % 256 ^ n
  let v := match bits map 8 4 with
    | 1 | 3 | 5 => some (Dy.ofInt raw)
    | 2 => some (Dy.ofInt (toSigned 8 raw))
    | 4 => some (Dy.ofInt (toSigned 16 raw))
    | 6 => some (Dy.ofInt (toSigned 32 raw))
    | 7 => f32 raw
    | _ => none
  v.map fun x => (x.mul (f32D (m.canCfg k 6))).add (f32D (m.canCfg k 7))

/-- The value of an object as a signal (R423), by its type. -/
def tyValue (t : Ty) (w : Nat) : SigV :=
  match t with
  | .f32 => .f w
  | .bf24 => .d (bfVal w)
  | .i8 => .d (Dy.ofInt (toSigned 8 w))
  | .i16 => .d (Dy.ofInt (toSigned 16 w))
  | .i32 => .d (Dy.ofInt (toSigned 32 w))
  | .i64 => .d (Dy.ofInt (toSigned 64 w))
  | _ => .n w

/-- Views that need no association, from the states of the chapters. -/
def Mod.view (m : Mod) (ro : SMap Nat) (p : Place) (sub : Nat) : Option Nat :=
  match p.fam with
  | .identity => match sub with
    | 5 => some Config.serial.toNat
    | 6 => some Config.made.toNat
    | 7 => some Config.macSwitch.toNat
    | 8 => some Config.macP3.toNat
    | _ => none
  | .loop => m.viewLoop p.k sub
  | .profile => m.viewProfile p.k sub
  | .repet => m.viewRep p.k sub
  | .engine => m.viewEngine sub
  | .track => m.viewTrack p.k sub
  | .seqCounters => if sub = 1 then some m.running else none
  | .banks => m.viewBanks sub
  | .di => m.viewDi p.k sub
  | .dout => m.viewDo p.k sub
  | .commit => match sub with
    | 1 | 2 => some m.tread
    | 3 => some (m.tread / 100)
    | 4 => some m.tiles.awake
    | _ => none
  | .field => if sub = 3 then some m.field.linkState else if sub = 6 then some (b2n m.holdShort) else none
  | .link => match sub with
    | 1 => some (m.hallCom.filter fun p => decide (p.2.state ≠ 0)).length
    | 2 => some (m.hallCom.filter fun p => decide (p.2.state ≠ 0 ∧ p.2.agreed.cls = 0)).length
    | _ => none
  | .tokens => match sub with
    | 5 => some (((List.range 16).map fun s => stGet ro (okey 0 0x1600 (0x10 + s)) % 2 ^ 32).foldl orBits 0)
    | 6 => some ((List.range 16).filter fun s => decide (stGet ro (okey 0 0x1600 (0x10 + s)) ≠ 0)).length
    | _ => none
  | .firmware => if sub = 7 then some m.trialLeft else none
  | .mapped => if sub = 3 then
      some (b2n (decide (m.cfg (0x1700 + p.k) 1 = 0)) + 2 * b2n (mappedWritable (m.cfg (0x1700 + p.k) 1))) else none
  | .reset => if sub = 0x2F then some (stGet ro (okey 0 0x1400 0x2F) % 8 + 8 * b2n m.journal.pfail.isSome) else none
  | .record => match sub with
    | 2 => some ringSize
    | 3 => some (m.record.next - 1)
    | 4 => some m.ringOldest
    | _ => none
  | .capture => if sub = 0x15 then some (m.preHeld 16384) else none
  | .safety => match sub with
    | 1 => some m.snapDom
    | 2 => some (Config.signature m.safety.active).toNat
    | 3 => some (Config.signature m.pendingSafety).toNat
    | _ => none
  | .ao => if sub = 5 then some (stGet ro (okey 0 (0x3200 + p.k) 5) % 8 + 8 * m.snapAo) else none
  | .bank => match sub with
    | 1 => some (m.snapBanks.getD p.k 0)
    | 4 => some (b2n (tb m.snapFault p.k))
    | _ => none
  | .axis => m.viewAxis p.k sub
  | .axisLink => if sub = 2 then some (m.linkOf p.k) else none
  | .safeIn => m.viewSafeIn p.k sub
  | .safeOut => m.viewSafeOut p.k sub
  | .satellite => match sub with
    | 4 => some (m.satStatus ro p.k)
    | 5 => some (m.boundTo p.k)
    | _ => none
  | .imageMap => match sub with
    | 2 => if m.cfg (0x6000 + p.k) 0x0D = 0 then none else some (m.mapPartner p.k)
    | 7 => some (m.mapState p.k)
    | 0xC => some (m.imageSize p.k)
    | _ => none
  | _ => none

/-- The value of an object that is not per association, the module's own objects read from `ro` (live or committed). -/
def Mod.shared (m : Mod) (ro : SMap Nat) (idx sub : Nat) : Nat :=
  match place idx sub with
  | none => 0
  | some p =>
    match m.view ro p (canSub p.fam sub) with
    | some v => v
    | none => if p.row.acc = .ro then stGet ro (okey 0 idx sub) else stGet m.objs (okey 0 idx sub)

/-- The signal value of a mapped object (R422, R423): a NaN where nothing is mapped. -/
def Mod.mappedValue (m : Mod) (k : Nat) : SigV :=
  let o := m.cfg (0x1700 + k) 1
  if o = 0 then .f f32NaN else
  match place (o % 65536) (bits o 16 8) with
  | some p =>
    if p.row.per then tyValue p.row.ty (defaultAt p)
    else tyValue p.row.ty (m.shared m.com (o % 65536) (bits o 16 8))
  | none => if bits o 16 8 = 0 then
      (match famOf (o % 65536) with
       | some (f, _) => .n (highestSub f 3)
       | none => .f f32NaN)
    else .f f32NaN

/-- The value of a signal in the committed state (R6). -/
def Mod.sig (m : Mod) (s : Sig) : SigV :=
  if s < 0x200 then .d (m.loop s).pvf
  else if s < 0x400 then .d (m.loop (s - 0x200)).sp
  else if s < 0x600 then .d (m.loop (s - 0x400)).u
  else if s < 0x800 then .d (m.loop (s - 0x600)).e
  else if s < 0x900 then .f (m.rov (0x3000 + (s - 0x800)) 5)
  else if s < 0x940 then .f (m.cfg (0x3200 + (s - 0x900)) 2)
  else if s < 0xA00 then .n (b2n (tb m.field.snapDi (s - 0x940)))
  else if s < 0xAC0 then .n (m.cfg (0x3400 + m.lead (s - 0xA00)) 1)
  else if s < 0xAE0 then .n (b2n (tb m.snapSafety (s - 0xAC0)))
  else if s < 0xAE8 then .n (b2n (tb m.snapPairs (s - 0xAE0)))
  else if s < 0xAEE then .n (b2n (tb m.snapFault (s - 0xAE8)))
  else if s < 0xAF0 then .f f32NaN
  else if s < 0xB00 then .n (b2n (tb m.tpoLevel (s - 0xAF0)))
  else if s < 0xB04 then .n (b2n (tb m.trg (s - 0xB00)))
  else if s < 0xB10 then .f f32NaN
  else if s < 0xB30 then .d ⟨(lookD m.axesCom (s - 0xB10) {}).pos, -16⟩
  else if s < 0xB50 then .n (lookD m.axesCom (s - 0xB30) {}).state
  else if s < 0xB60 then .n (m.track (s - 0xB50)).state
  else if s < 0xB80 then .n (m.cfg 0x4011 (s - 0xB60 + 1))
  else if s < 0xC00 then .f f32NaN
  else if s < 0xD00 then match m.canValue (s - 0xC00) with | some d => .f (toF32 d) | none => .f f32NaN
  else if s < 0xF00 then .f (m.cfg (0x5000 + (s - 0xD00)) 3)
  else if s < 0xFF0 then .f (m.mappedValue (s - 0xF00)).toF
  else .f f32NaN

/-- Whether a source is lost (R134, R336, R363). -/
def Mod.lost (m : Mod) (s : Sig) : Bool :=
  if 0xC00 ≤ s ∧ s < 0xD00 then decide (m.canCfg (s - 0xC00) 1 = 2) && (m.canObj (s - 0xC00)).lost
  else if 0xD00 ≤ s ∧ s < 0xF00 then tb (m.shared m.ro (0x5000 + (s - 0xD00)) 4) 1
  else false

/-- Whether the chapter that owns a source marks its sample valid (R112). -/
def Mod.sigOk (m : Mod) (s : Sig) : Bool :=
  if 0x800 ≤ s ∧ s < 0x900 then !tb (m.rov (0x3000 + (s - 0x800)) 8) 0
  else if 0xC00 ≤ s ∧ s < 0xD00 then !(m.canObj (s - 0xC00)).short
  else true

/-- A source value as the engine takes it: none where it is invalid (R112, R117). -/
def Mod.source (m : Mod) (s : Sig) : Option Dy :=
  if m.sigOk s then (m.sig s).num.map bfConv else none

end Sys2Proof.Machine
end

