-- ==== Sys2Proof/Machine/Ops.lean ====
section
/-! DEFINITION. Shared operations: free values, the peapod chains and the step log (R267, R271 to R273), the gallery's
chain of due records (R378 to R381), and the writes of a boundary with their log (R34, R39, R40). -/

namespace Sys2Proof.Machine

/-- The next free value, and the module with the counter advanced (log entry 12). -/
def Mod.draw (m : Mod) : Nat × Mod := ((Config.free m.fresh).toNat, { m with fresh := m.fresh + 1 })

/-! ### Chains -/

/-- Writer words packed into reader words (R271): eight to a word, the last with the end mark and its byte count; `tail` bytes
of the last writer word count, those after them are 0. -/
def packWords (tail : Nat) : Nat → List Nat → List ReaderWord
  | 0, _ => []
  | n + 1, l =>
    let now := l.take 8
    let rest := l.drop 8
    let len := 4 * now.length + tail - 4
    { bytes := if rest.isEmpty then ofWords now % 256 ^ len else ofWords now,
      valid := if rest.isEmpty then len % 32 else 0, last := rest.isEmpty, gap := false } ::
      (if rest.isEmpty then [] else packWords tail n rest)

/-- A gap marker (R273). -/
def gapMarker (count : Nat) (t : Tread) : ReaderWord :=
  { bytes := count % 2 ^ 32 + 2 ^ 32 * (t % 2 ^ 64), valid := 16, last := true, gap := true }

/-- A marker with one more dropped packet. -/
def ReaderWord.raise (w : ReaderWord) : ReaderWord := { w with bytes := w.bytes - w.bytes % 2 ^ 32 + (w.bytes + 1) % 2 ^ 32 }

/-- A packet of at most 1 024 bytes entering a chain of 64 stages, its last writer word with `tail` bytes; the Bool tells
whether it was dropped (R271 to R273). -/
def Chain.enter (c : Chain) (t : Tread) (packet : List Nat) (tail : Nat := 4) : Chain × Bool :=
  let ws := packWords tail 32 packet
  if packet.isEmpty then (c, false)
  else if c.words.length + ws.length ≤ 63 then
    ({ words := c.words ++ ws, packets := c.packets + 1 }, false)
  else match c.words.getLast? with
    | some w => if w.gap then ({ c with words := c.words.dropLast ++ [w.raise] }, true)
      else ({ c with words := c.words ++ [gapMarker 1 t], packets := c.packets + 1 }, true)
    | none => ({ c with words := [gapMarker 1 t], packets := c.packets + 1 }, true)

/-- A packet entering the chain of stream S2 or S4; a drop is counted in 0x3860:01 or :02. -/
def Mod.chainPut (m : Mod) (stream : Nat) (packet : List Nat) (tail : Nat := 4) : Mod :=
  if stream = 2 then
    let r := m.chain2.enter m.tread packet tail
    let m := { m with chain2 := r.1 }
    if r.2 then m.bump 0x3860 1 else m
  else if stream = 4 then
    let r := m.chain4.enter m.tread packet tail
    let m := { m with chain4 := r.1 }
    if r.2 then m.bump 0x3860 2 else m
  else m

/-- An entry of the step log (R267). -/
def Mod.logS4 (m : Mod) (kind source w1 w2 w3 : Nat) : Mod :=
  m.chainPut 4 [m.tread % 2 ^ 32, kind % 256 + 256 * (source % 256), w1 % 2 ^ 32, w2 % 2 ^ 32, w3 % 2 ^ 32]

/-- The boundary that comes next. -/
def Mod.nextTread (m : Mod) : Tread := Max.max (m.tread + 1) (m.time.stepTo.getD 0)

/-! ### The gallery's due records -/

/-- The key of a code's setting: each code has its own (R378, R379), told apart above the association numbers. -/
def codeKey (code sub : Nat) : Nat := okey (256 + code) 0x1510 sub
/-- A setting of a code. -/
def Mod.galSet (m : Mod) (code sub : Nat) : Nat := stGet m.objs (codeKey code sub)
/-- Counts of a code. -/
def Mod.galCode (m : Mod) (c : Nat) : GalCode := lookD m.gal.codes c {}
/-- Counts of a code set. -/
def Mod.setGalCode (m : Mod) (c : Nat) (g : GalCode) : Mod := { m with gal := { m.gal with codes := put m.gal.codes c g } }

/-- The objects of a snapshot list, up to its first zero entry (R378). -/
def snapList : Nat → Nat → List (Nat × Nat)
  | 0, _ => []
  | n + 1, l => if l % 2 ^ 32 = 0 then [] else (l % 65536, bits l 16 8) :: snapList n (l / 2 ^ 32)

/-- Size of an object of fixed size in 32-bit words, rounded up (R378). -/
def wordsOf (idx sub : Nat) : Nat :=
  match place idx sub with
  | some p => ((p.row.ty.size.getD 0) + 3) / 4
  | none => if sub = 0 then 1 else 0

/-- The low `n` words of a number. -/
def lowWords : Nat → Nat → List Nat
  | 0, _ => []
  | n + 1, v => (v % 2 ^ 32) :: lowWords n (v / 2 ^ 32)

/-- A record suppressed (R379): pending count and total of its code. -/
def Mod.suppress (m : Mod) (code : Nat) : Mod :=
  let g := m.galCode code
  m.setGalCode code { g with pending := satAdd 0xFFFFFFFF g.pending 1, total := (g.total + 1) % 2 ^ 32 }

/-- Order in which records that are due are handled (R380). -/
def GalDue.before (a b : GalDue) : Bool :=
  decide (a.tread < b.tread) || (decide (a.tread = b.tread) &&
    (decide (a.code < b.code) || (decide (a.code = b.code) && decide (a.source < b.source))))

/-- Whether a block is in per-block reset (0x1410:02, R290). -/
def Mod.blockIn (m : Mod) (bit : Nat) : Bool := tb (m.rov 0x1410 2) bit

/-- A record enters the chain of 256 (R380); of those in a full one and itself, the last in their order finds it full and is
suppressed. -/
def Mod.enqueueDue (m : Mod) (d : GalDue) : Mod :=
  let q := insertBy GalDue.before d m.gal.queue
  let m := { m with gal := { m.gal with queue := q.take 256 } }
  match q.drop 256 with
  | x :: _ => m.suppress x.code
  | [] => m

/-- A record falls due (R380): it enters the chain, or is suppressed when the gallery writer (block bit 17) is in reset; while the
gallery is full it only counts as a full loss (R381). -/
def Mod.logRecord (m : Mod) (d : GalDue) : Mod :=
  if m.rov 0x1500 5 = 1 then m.bump 0x1500 7
  else if m.blockIn 17 then m.suppress d.code
  else m.enqueueDue d

/-- A module record of a code with its source number and event words (R377). -/
def Mod.logGal (m : Mod) (code source : Nat) (words : List Nat) : Mod :=
  m.logRecord { tread := m.tread, code := code, source := source, words := words.map (· % 2 ^ 32),
                power := m.rov 0x1400 0x0E, opTime := m.rov 0x1500 8 }

/-- A record of a step entry (R377): track and step, the recipe bit set. -/
def Mod.logRecipe (m : Mod) (code track step : Nat) : Mod :=
  m.logRecord { tread := m.tread, code := code, source := track, recipe := true, words := [track, step],
                power := m.rov 0x1400 0x0E, opTime := m.rov 0x1500 8 }

/-- The operating time (0x1500:08) counted on to a flight: 1 ms each (R376, log entry 131). -/
def Mod.timeTo (m : Mod) (f : Nat) : Mod :=
  let m := m.bumpBy 0x1500 8 (f - m.gal.counted)
  { m with gal := { m.gal with counted := Max.max f m.gal.counted } }

/-- A tread as two event words, low first. -/
def treadWords (t : Tread) : List Nat := [t % 2 ^ 32, t / 2 ^ 32 % 2 ^ 32]

/-! ### Recording -/

/-- A stream. -/
def Mod.stream (m : Mod) (s : Nat) : StreamSt := lookD m.streams s {}
/-- A stream set. -/
def Mod.setStream (m : Mod) (s : Nat) (v : StreamSt) : Mod := { m with streams := put m.streams s v }

/-- Words of one entry of a group kind. -/
def entryWords : Nat → Nat
  | 2 | 6 => 2
  | 3 | 7 => 4
  | 9 => 6
  | _ => 1

/-- An entry put into a group at its place: after every entry whose key is not greater. -/
def Group.insert (g : Group) (key : Nat) (ws : List Nat) : Group :=
  let n := (g.keys.filter fun k => decide (k ≤ key)).length
  { g with words := g.words.take (n * ws.length) ++ ws ++ g.words.drop (n * ws.length),
           keys := g.keys.take n ++ key :: g.keys.drop n }

/-- An entry put into the group of its tread and kind. -/
def addEntry (l : List Group) (t : Tread) (kind key : Nat) (ws : List Nat) : List Group :=
  if l.any fun g => decide (g.tread = t ∧ g.kind = kind) then
    l.map fun g => if g.tread = t ∧ g.kind = kind then g.insert key ws else g
  else l ++ [{ tread := t, kind := kind, words := ws, keys := [key] }]

/-- An entry put at its place into the group of a tread and kind in a stream's open block (R259, R262, R263, R268);
nothing while none is open, and nothing of a tread before the block's first. Streams 5 and 6 are the two capture windows. -/
def Mod.recAt (m : Mod) (s : Nat) (t : Tread) (kind key : Nat) (words : List Nat) : Mod :=
  let v := m.stream s
  match v.first with
  | none => m
  | some f => if words.isEmpty ∨ t < f then m else m.setStream s { v with groups := addEntry v.groups t kind key words }

/-- An entry put last. -/
def Mod.rec_ (m : Mod) (s : Nat) (t : Tread) (kind : Nat) (words : List Nat) : Mod := m.recAt s t kind (2 ^ 32) words

/-! ### Values in force -/

/-- A comparison of two F32 values; false with a NaN (R59). -/
def cmpF (f : Dy → Dy → Bool) (a b : Nat) : Bool :=
  match f32Key a, f32Key b with
  | some x, some y => f x y
  | _, _ => false

/-- Whether changes of an object wait for the next flight boundary (R182, R185, R188, R191). -/
def deferred (k : Nat) : Bool :=
  let idx := k / 256 % 65536
  let sub := k % 256
  (decide (0x3000 ≤ idx ∧ idx < 0x3100) && (decide (1 ≤ sub ∧ sub ≤ 4) || decide (sub = 9))) ||
  (decide (0x3100 ≤ idx ∧ idx < 0x3140) && decide (sub = 1)) ||
  decide (0x3140 ≤ idx ∧ idx < 0x3180) ||
  (decide (0x3200 ≤ idx ∧ idx < 0x3240) && decide (sub = 1)) ||
  (decide (0x3300 ≤ idx ∧ idx < 0x33C0) && decide (sub = 1)) ||
  (decide (0x34C0 ≤ idx ∧ idx < 0x34C6) && decide (sub = 6)) ||
  (decide (0x3810 ≤ idx ∧ idx < 0x3816) && decide (sub = 2))

/-- The value in force of an object. -/
def Mod.inForce (m : Mod) (idx sub : Nat) : Nat := stGet m.eff (okey 0 idx sub)

/-- Whether a stream's selection in force names a resource (0x3810+s:02). -/
def Mod.selected (m : Mod) (s k : Nat) : Bool := tb (m.inForce (0x3810 + s) 2) k

/-- The span of an AO range: lowest and highest value (R184). -/
def aoSpan : Nat → Dy × Dy
  | 0 => (Dy.ofInt (-10), Dy.ofInt 10)
  | 1 => (Dy.zero, Dy.ofInt 10)
  | 2 => (Dy.zero, Dy.ofInt 20)
  | _ => (Dy.ofInt 4, Dy.ofInt 20)

/-! ### Writes of a boundary -/

/-- Writer numbers in the log of a boundary: transaction i of the sealed set is i. -/
def byStep (t : Nat) : Nat := 100000 + t
/-- Landing of track t. -/
def byLanding (t : Nat) : Nat := 200000 + t
/-- Source-lost and loss actions. -/
def byLoss : Nat := 300000

/-- The track behind a writer number. -/
def writerTrack (w : Nat) : Option Nat :=
  if byStep 0 ≤ w ∧ w < byStep 16 then some (w - byStep 0)
  else if byLanding 0 ≤ w ∧ w < byLanding 16 then some (w - byLanding 0) else none

/-- The value of an object that partners write, by key: the table window shows the table (R157). -/
def Mod.written (m : Mod) (key : Nat) : Nat :=
  let idx := key / 256 % 65536
  if 0x2A00 ≤ idx ∧ idx < 0x2C00 ∧ key % 256 = 0x14 then m.tableWindow (idx - 0x2A00) else stGet m.objs key

/-- A write of R39 entered in the boundary's log, with the value that stood before the boundary. -/
def Mod.note (m : Mod) (who key : Nat) : Mod :=
  { m with wlog := m.wlog ++ [(key, who)],
           wold := match look m.wold key with
             | some _ => m.wold
             | none => put m.wold key (m.written key) }

/-- A shared object written at the boundary by `who`. -/
def Mod.wr (m : Mod) (who idx sub v : Nat) : Mod := (m.note who (okey 0 idx sub)).setCfg idx sub v

/-- The last writer of a key in a log. -/
def lastWriter : List (Nat × Nat) → Nat → Option Nat
  | [], _ => none
  | (k, w) :: l, key => match lastWriter l key with
    | some x => some x
    | none => if k = key then some w else none

/-- Objects whose value at the boundary's end differs from the one before it (R34): of those that an item of R39 wrote.
What the module computes, such as a track's state and step, is not counted (log entry 86). -/
def Mod.changes (m : Mod) : Nat := m.wold.foldl (fun n p => if m.written p.1 ≠ p.2 then n + 1 else n) 0

/-- Objects that two different tracks wrote at this boundary (R69). -/
def Mod.conflicts (m : Mod) : Nat :=
  m.wold.foldl (fun n p =>
    let ts := m.wlog.filterMap fun e => if e.1 = p.1 then writerTrack e.2 else none
    if ts.any fun a => ts.any fun b => decide (a ≠ b) then n + 1 else n) 0

/-- The log emptied for a new boundary. -/
def Mod.clearLog (m : Mod) : Mod := { m with wlog := [], wold := [] }

/-! ### Triggers (R277) -/

/-- Recording state set. -/
def Mod.setRecord (m : Mod) (r : RecSt) : Mod := { m with record := r }

/-- A trigger. -/
def Mod.trig (m : Mod) (k : Nat) : TrigSt := lookD m.record.trigs k {}
/-- A trigger set. -/
def Mod.setTrig (m : Mod) (k : Nat) (t : TrigSt) : Mod := m.setRecord { m.record with trigs := put m.record.trigs k t }
/-- A trigger's state (0x3840+k:0F). -/
def Mod.trigState (m : Mod) (k : Nat) : Nat := m.rov (0x3840 + k) 0x0F
/-- A trigger's configuration. -/
def Mod.trigCfg (m : Mod) (k sub : Nat) : Nat := m.cfg (0x3840 + k) sub

/-- A value shifted by the hysteresis. -/
def shiftF (v h : Nat) (up : Bool) : Nat :=
  toF32 (if up then (f32D v).add (f32D h) else (f32D v).sub (f32D h))

/-- A trigger placed in hold-off from tread `t` on (R279, R283, R290); one without hold-off, or with nothing to hold off for, is
armed again at once. -/
def Mod.holdOff (m : Mod) (k : Nat) (t : Tread) : Mod :=
  if m.trigCfg k 0x0B = 0 ∨ m.trigCfg k 0x0C = 0 then m.setRo (0x3840 + k) 0x0F 1
  else (m.setTrig k { m.trig k with holdFrom := t, left := m.trigCfg k 0x0C }).setRo (0x3840 + k) 0x0F 3

/-- What a trigger remembers of a value (R277): the side it has stood on, and the value. -/
def Mod.remember (m : Mod) (k v : Nat) : Mod :=
  let s := m.trig k
  m.setTrig k { s with
    prev := some v,
    wasLow := s.wasLow || cmpF Dy.le v (shiftF (m.trigCfg k 5) (m.trigCfg k 7) false),
    wasHigh := s.wasHigh || cmpF Dy.le (shiftF (m.trigCfg k 5) (m.trigCfg k 7) true) v }

/-- A raw conversion of a capture slot, which the triggers that name the slot evaluate (R277): what they remember is the
conversions before it. -/
def Mod.noteRaw (m : Mod) (j : Nat) (code : Int) : Mod :=
  overAll ((List.range 8).filter fun k => decide (m.trigCfg k 3 = j ∧ m.trigState k ≠ 0 ∧ 1 ≤ m.trigCfg k 1 ∧ m.trigCfg k 1 ≤ 3))
    (fun (m : Mod) k =>
      let m := match (m.trig k).last with | some v => m.remember k v | none => m
      m.setTrig k { m.trig k with last := some (toF32 (Dy.ofInt code)) }) m

end Sys2Proof.Machine
end

