-- ==== Sys2Proof/Machine/Loops.lean ====
section
/-! DEFINITION. The loop engine on the beat (05, 06): modes and their checks, the evaluation of a tread with what it
reads from committed state, the release of its results, learning, and the pair-and-spare arrangement. -/

namespace Sys2Proof.Machine

/-! ### Modes -/

/-- Whether an input's converter is calibrating (R181). -/
def Mod.calibrating (m : Mod) (s : Sig) : Bool :=
  if 0x800 ≤ s ∧ s < 0x900 then (m.conv ((s - 0x800) / 4)).calSince.isSome || decide (m.rov 0x3190 2 = 1) else false

/-- Whether loop `j` may enter a mode (R123, R181, R390). -/
def Mod.modeOk (m : Mod) (j mode : Nat) : Bool :=
  let src := m.cfg (0x2200 + j) 0x10
  let trk := m.cfg (0x2200 + j) 0x13
  if mode = 0 then true
  else if 2 ≤ mode ∧ m.power.standby.isSome then false
  else if (m.sched j).isNone then false
  else if m.dest j = 0xFFF then false
  else if (mode = 2 ∨ mode = 3) ∧ (src = 0xFFF ∨ m.lost src ∨ m.calibrating src) then false
  else if mode = 3 ∧ (m.outer j).isNone then false
  else if mode = 4 ∧ (trk = 0xFFF ∨ m.lost trk) then false
  else true

/-- A mode entered at the present boundary (R122, R126). -/
def Mod.enterMode (m : Mod) (who j mode : Nat) : Mod :=
  let old := m.mode j
  let before := (look m.wold (okey 0 (0x2200 + j) 1)).getD old
  let s := m.loop j
  let m := m.wr who (0x2200 + j) 1 mode
  if old = mode then m else
  let s := { s with modeAt := m.tread, manTake := decide (mode = 1 ∧ (before = 2 ∨ before = 3 ∨ before = 4)),
                    dwell := if (mode = 2 ∨ mode = 3) ∧ before ≠ mode then 0 else s.dwell,
                    prof := if mode = 3 then { s.prof with jumped := false } else s.prof }
  m.setLoop j s

/-- The mode changes of a boundary in the recording stream S4 (R267): each loop whose mode the boundary's last writer left
other than it was; a value replaced within the boundary was never visible (R40). -/
def Mod.modeRecords (m : Mod) : Mod :=
  overAll (m.wold.filter fun p => decide (0x2200 ≤ p.1 / 256 ∧ p.1 / 256 < 0x2400 ∧ p.1 % 256 = 1 ∧ stGet m.objs p.1 ≠ p.2))
    (fun (m : Mod) p =>
      let src := match lastWriter m.wlog p.1 with
        | some w => if w = byLoss then 2 else if (writerTrack w).isSome then 1 else 0
        | none => 0
      m.logS4 7 src (p.1 / 256 - 0x2200) (stGet m.objs p.1) p.2) m

/-- A manual output written (R126). -/
def Mod.writeManual (m : Mod) (who j v : Nat) : Mod :=
  (m.wr who (0x2200 + j) 7 v).setLoop j { m.loop j with manAt := m.tread }

/-- The manual outputs of the loops that have left AUTO, CASCADE or TRACK for MANUAL at the boundary: u_last, unless a manual
output committed at the same boundary (R126). -/
def Mod.takeManuals (m : Mod) : Mod :=
  overAll (m.loops.filter fun p => p.2.manTake) (fun (m : Mod) p =>
    let m := if p.2.manAt = m.tread then m else m.setCfg (0x2200 + p.1) 7 (toF32 p.2.uLast)
    m.setLoop p.1 { m.loop p.1 with manTake := false }) m

/-- A coefficient bank selected (R48). -/
def Mod.selectBank (m : Mod) (who j b : Nat) : Mod := m.wr who (0x2200 + j) 0x0D b

/-- A coefficient written (R130). -/
def Mod.writeCoef (m : Mod) (who bank j sub v : Nat) : Mod :=
  m.wr who ((if bank = 0 then 0x2400 else 0x2600) + j) sub v

/-- The loop that a changed object retunes (R131): the bank in use, or a coefficient of that bank other than clamp and rate
limits. -/
def Mod.retuned (m : Mod) (idx sub : Nat) : Option Nat :=
  if 0x2200 ≤ idx ∧ idx < 0x2400 then (if sub = 0x0D then some (idx - 0x2200) else none)
  else if 0x2400 ≤ idx ∧ idx < 0x2800 ∧ sub < 0x14 ∧ m.cfg (0x2200 + idx % 512) 0x0D = (idx - 0x2400) / 512 then some (idx % 512)
  else none

/-- The loop whose generator a changed object concerns (R146, R148): target and limits. -/
def replanned (idx sub : Nat) : Option Nat :=
  if 0x2200 ≤ idx ∧ idx < 0x2400 ∧ sub = 2 then some (idx - 0x2200)
  else if 0x2800 ≤ idx ∧ idx < 0x2A00 ∧ sub < 4 then some (idx - 0x2800)
  else none

/-- What the boundary has changed in the end, noted for the loops' next evaluations: presets of a retuning (R131), changes of
target and limits (R148). -/
def Mod.loopChanges (m : Mod) : Mod :=
  overAll (m.wold.filter fun p => decide (p.1 < 2 ^ 24 ∧ stGet m.objs p.1 ≠ p.2)) (fun (m : Mod) p =>
    let m := match m.retuned (p.1 / 256) (p.1 % 256) with
      | some j => m.setLoop j { m.loop j with retune := true }
      | none => m
    match replanned (p.1 / 256) (p.1 % 256) with
    | some j => m.setLoop j { m.loop j with prof := { (m.loop j).prof with touched := true } }
    | none => m) m

/-- The generator placed at rest at a value, its target with it (R147); after the loop has left CASCADE the jump stands in
place of the set-point of the last CASCADE evaluation. -/
def Mod.jumpTo (m : Mod) (who j v : Nat) : Mod :=
  let s := m.loop j
  let y := Fx.ofDy (f32D v)
  (m.wr who (0x2200 + j) 2 v).setLoop j 
    { s with prof := { s.prof with mot := ⟨y, 0, 0⟩, moved := true, jumped := decide (m.mode j ≠ 3) } }

/-- A loop's table cleared (R157): every entry 0, the change of r made bumpless (R156). -/
def Mod.clearTableOf (m : Mod) (j : Nat) : Mod :=
  let b := m.cfg (0x2A00 + j) 4
  let n := m.cfg (0x2A00 + j) 5
  let s := m.loop j
  { m with pool := m.pool.filter fun p => !decide (b ≤ p.1 ∧ p.1 < b + n) }.setLoop j
    { s with rep := { s.rep with bump := true } }

/-- The allocation of a loop written (R150): the new table 0, the index restarted. -/
def Mod.restartTable (m : Mod) (j : Nat) : Mod :=
  let m := m.clearTableOf j
  let s := m.loop j
  m.setLoop j { s with rep := { s.rep with next := 0, index := 0, seen := 0 } }

/-! ### Learning -/

/-- Whether TPO `k` runs periodically (R153): periodic mode, running. -/
def Mod.tpoPeriodic (m : Mod) (k : Nat) : Bool :=
  decide (m.cfg (0x1340 + k) 1 = 2 ∧ m.rov (0x1340 + k) 7 = 2)

/-- Raises of the unlock count when a source leaves its lock (R153). -/
def Mod.setLocked (m : Mod) (j : Nat) (locked : Bool) : Mod :=
  let s := m.loop j
  let m' := m.setLoop j { s with rep := { s.rep with locked := locked, bump := s.rep.bump || decide (s.rep.locked ≠ locked) } }
  if s.rep.locked && !locked then m'.bump (0x2A00 + j) 0x15 else m'

/-- Whether two periods differ by at most a percentage of the first (R153). -/
def within (tol p q : Nat) : Bool := decide ((if p ≤ q then q - p else p - q) * 100 ≤ tol * p)

/-- The index input of loop `j` at a boundary: edges, periods and the lock (R153). -/
def Mod.indexEdge (m : Mod) (j : Nat) : Mod :=
  let sig := m.cfg (0x2A00 + j) 3
  let tol := m.cfg (0x2A00 + j) 7
  let s := m.loop j
  let r := s.rep
  let level := tb m.field.snapDi (sig - 0x940)
  if level && !r.level then
    match r.lastEdge with
    | none => m.setLoop j { s with rep := { r with level := true, lastEdge := some m.tread } }
    | some e =>
      let p := m.tread - e
      let ok := decide (r.period ≠ 0) && within tol r.period p
      let m := m.setLoop j { s with rep := { r with level := true, lastEdge := some m.tread, period := p,
                                                    prevPeriod := r.period } }
      m.setLocked j ok
  else m.setLoop j { s with rep := { r with level := level } }

/-- Whether the lock of an index input has run out: no edge within P × (1 + tolerance) treads (R153). -/
def Mod.lockOver (m : Mod) (j : Nat) : Bool :=
  let r := (m.loop j).rep
  let tol := m.cfg (0x2A00 + j) 7
  match r.lastEdge with
  | some e => decide (m.cfg (0x2A00 + j) 2 = 3 ∧ r.locked ∧ r.period * (100 + tol) < (m.tread - e) * 100)
  | none => false

/-- LOCK_TIMEOUT's effect (R153). -/
def Mod.lockTimeout (m : Mod) (j : Nat) : Mod := if m.lockOver j then m.setLocked j false else m

/-- A period source or its reference written (R150, R153): the measurement begins anew, from the level that the input has
now, and the change of r is made bumpless. -/
def Mod.restartLock (m : Mod) (j : Nat) : Mod :=
  let s := m.loop j
  m.setLoop j { s with rep := { s.rep with
    period := 0, prevPeriod := 0, lastEdge := none, level := tb m.field.snapDi (m.cfg (0x2A00 + j) 3 - 0x940), bump := true } }

/-- Locked sources at a boundary (R153): index inputs by their edges, time outputs and axes by their state. -/
def Mod.lockPass (m : Mod) : Mod :=
  overAll (m.members 0x2A00 512 2) (fun m p =>
    let j := p.1
    let ref := m.cfg (0x2A00 + j) 3
    match p.2 with
    | 1 => m.setLocked j (m.tpoPeriodic (ref - 0xAF0))
    | 2 => m.setLocked j (decide ((m.axis (ref - 0xB10)).fault = 0 ∧ m.linkOf ((ref - 0xB10) / 8) = 1))
    | 3 =>
      let m := (m.indexEdge j).lockTimeout j
      if (m.loop j).rep.period = 0 then m.setLocked j false else m
    | _ => m) m

/-- Index, cycle and lock of an evaluation (R152, R153). -/
structure RepAt where
  k : Nat
  cycle : Int
  locked : Bool
  every : Bool
deriving DecidableEq, Repr

/-- The index of loop `j`'s evaluation in the present tread. With an index input whose edge is late but within its tolerance,
the phase would be 1 or more: the last bin is held (log entry 118). -/
def Mod.repAt (m : Mod) (j : Nat) : RepAt :=
  let r := (m.loop j).rep
  let n := m.cfg (0x2A00 + j) 5
  let ref := m.cfg (0x2A00 + j) 3
  match m.cfg (0x2A00 + j) 2 with
  | 0 => { k := r.next, cycle := 0, locked := true, every := true }
  | 1 =>
    let per := m.cfg (0x1340 + (ref - 0xAF0)) 3
    let last := m.rov (0x1340 + (ref - 0xAF0)) 0x0A
    let t := m.tread * 10000 - last
    { k := t % per * n / per, cycle := (last + t / per * per : Nat), locked := r.locked, every := false }
  | 2 =>
    let rev : Int := m.cfg (0x2A00 + j) 6 * 65536
    let p := (lookD m.axesCom (ref - 0xB10) {}).pos
    { k := (p % rev).toNat * n / rev.toNat, cycle := p / rev, locked := r.locked, every := false }
  | _ =>
    let e := r.lastEdge.getD 0
    { k := Min.min (n - 1) ((m.tread - e) * n / r.period), cycle := (e : Nat), locked := r.locked, every := false }

/-! ### One evaluation with what it reads -/

/-- The present value of a destination in its own unit (R110); none where there is none. -/
def Mod.destValue (m : Mod) (j : Nat) : Option Dy :=
  let d := m.dest j
  if d = 0xFFF then none
  else if 0xA00 ≤ d ∧ d < 0xAC0 then some (bfOfF32 (m.cfg (0x3400 + m.lead (d - 0xA00)) 3))
  else some (bfConv ((m.sig d).num.getD Dy.zero))

/-- A feed-forward or tracking source: its value, `last` while it is lost, a free value where it is invalid. -/
def Mod.aux (m : Mod) (j : Nat) (s : Sig) (lost : Bool) (last : Dy) : Dy :=
  if lost then last else
  match m.source s with
  | some d => d
  | none => bfOfF32 (Config.auxValue j m.tread).toNat

/-- What loop `j`'s evaluation computes: the state to release, the counts it raises, and a pool entry to write. -/
structure EvalOut where
  s : LoopSt
  invalid : Bool
  limited : Bool
  entry : Option (Nat × Int)
deriving DecidableEq, Repr

/-- Evaluation of loop `j` with period `k` in the present tread (R111). `poolBad` are stored entries with an
uncorrectable error, `pathBad` those with an error in one pair's read path (R158). After OFF the preset starts from the
destination as the last evaluation in OFF found it (log entry 95); a loop that both tracks its inner loop and holds for a lost
source holds u_last (log entry 96). -/
def Mod.evalLoop (m : Mod) (j k : Nat) (poolBad pathBad : List Nat) : EvalOut :=
  let L := 0x2200 + j
  let s0 := m.loop j
  let mode := m.mode j
  let s0 := if mode = 0 ∧ s0.mode ≠ 0 then { s0 with sat := false } else s0
  let c := Coefs.of fun n => m.cfg ((if m.cfg L 0x0D = 0 then 0x2400 else 0x2600) + j) n
  let dest := m.destValue j
  -- the output history of a landed resumption (R303)
  let s0 := if s0.landed then
      let u := dest.getD s0.uLast
      { s0 with uLast := u, os1 := (steady c u).1, os2 := (steady c u).2, formed := false }
    else s0
  let src := m.cfg L 0x10
  let reads := decide (src ≠ 0xFFF) && !s0.lost
  let val := if reads then m.source src else none
  let invalid := reads && val.isNone
  let s := evalInput c s0 (val.getD s0.x) invalid
  let inner := innerOf (m.dest j)
  let auto := decide (mode = 2 ∨ mode = 3)
  let tracking := auto && (match inner with | some b => decide (m.mode b ≠ 3) | none => false)
  let hold := auto && s0.lost
  let forms := auto && !tracking && !hold
  -- working set-point (R121, R129, R142)
  let profSp : ProfSt × Dy × Bool :=
    if mode = 3 then
      (s.prof.bypass, (match m.outer j with | some o => (m.loop o).u | none => s.sp), false)
    else if m.cfg L 0x1B = 1 ∧ (mode = 0 ∨ mode = 1 ∨ mode = 4) then
      (s.prof.track (Fx.ofDy s.pvf) (toF32 s.pvf), s.pvf, false)
    else
      let g := if s0.mode = 3 ∧ !s.prof.jumped then { s.prof with mot := ⟨Fx.ofDy s0.sp, 0, 0⟩, state := 4 } else s.prof
      let r := g.advance k (m.cfg L 2) (m.cfg (0x2800 + j) 1) (m.cfg (0x2800 + j) 2) (m.cfg (0x2800 + j) 3)
      ({ r.1 with jumped := false }, bfConv r.1.mot.y.toDy, r.2)
  let sp := profSp.2.1
  -- feed-forward, held value
  let ffs := m.cfg L 0x12
  let trs := m.cfg L 0x13
  let xff := if ffs = 0xFFF then Dy.zero else m.aux j ffs s0.lostFf s0.xff
  let held :=
    if mode = 1 then bfOfF32 (m.cfg L 7)
    else if mode = 4 then (if trs = 0xFFF then s0.uLast else m.aux j trs s0.lostTr s0.uLast)
    else if hold then s0.uLast
    else match inner with | some b => (m.loop b).sp | none => s0.uLast
  -- learning (R150 to R156)
  let R := 0x2A00 + j
  let enabled := decide (m.cfg R 1 = 1)
  let base := m.cfg R 4
  let n := m.cfg R 5
  let scale := f32D (m.cfg R 0x0D)
  let ra := if n = 0 then { k := 0, cycle := 0, locked := true, every := false : RepAt } else m.repAt j
  let entry := fun (i : Nat) => if poolBad.contains (base + i) then (0 : Int) else m.poolAt (base + i)
  let active := enabled && ra.locked && decide (n ≠ 0)
  let r := if active && auto then repTerm (entry ra.k) scale else Dy.zero
  let rep := s0.rep
  let bump := rep.bump || decide (rep.enabled ≠ enabled)
  let baseV : Option Dy :=
    if !s0.formed then some s0.uLast
    else if (s0.retune && decide (m.cfg L 0x1A = 1)) || bump then some s0.v
    else none
  let s1 := evalRest c s
    { mode, reverse := decide (m.cfg L 0x19 = 1), sp, xff, r, dest, held, forms, base := baseV }
  let s2 := settle s1 s0 (f32D (m.cfg L 0x15)) (m.cfg L 0x16) (decide (profSp.1.state = 0))
  let limit := decide (m.cfg R 0x0E = 1) && (s2.high || s2.low || s2.rate)
  let frozen := enabled && (decide (mode ≠ 2) || !forms || !active || invalid || limit)
  let fresh := ra.every || decide (rep.cycle ≠ ra.cycle) || !tb rep.seen ra.k
  let t := if n = 0 then 0 else (ra.k + n - m.cfg R 0x0C % n) % n
  let meets := fun (l : List Nat) => active && [t, (t + n - 1) % n, (t + 1) % n, ra.k].any fun i => l.contains (base + i)
  let touched := meets poolBad
  let cand := if active && fresh && !frozen && !touched then
      some (base + t, repCand (f32D (m.cfg R 9)) (f32D (m.cfg R 0x0A)) (f32D (m.cfg R 0x0B)) (f32D (m.cfg R 8)) scale
        s2.e (entry ((t + n - 1) % n)) (entry t) (entry ((t + 1) % n)))
    else none
  let seen := if rep.cycle ≠ ra.cycle then setBit 0 ra.k true else setBit rep.seen ra.k true
  let rep' := { rep with
    index := ra.k, next := if n = 0 then 0 else (rep.next + 1) % n, enabled := enabled,
    cycle := ra.cycle, seen := if ra.every then 0 else seen,
    bump := (bump && !forms) || touched || meets pathBad, frozen := frozen }
  { s := { s2 with prof := profSp.1, rep := rep', tracking := tracking },
    invalid := invalid, limited := profSp.2.2, entry := cand }

/-- All evaluations due in the tread, against its committed state (R26, R49, R118): what is to be released, the pool entries to
write, those of stored errors 0 among them (R158), and the counts of R112 and R148. -/
def Mod.evaluate (m : Mod) (poolBad pathBad : List Nat) : Mod :=
  let w := m.frozen
  let due := m.scheduled.filter fun p => decide (m.tread % p.2.1 = p.2.2)
  overAll due (fun a p =>
    let o := w.evalLoop p.1 p.2.1 poolBad pathBad
    let a := { a with released := put a.released p.1 o.s,
                      poolDue := match o.entry with | some e => a.poolDue ++ [e] | none => a.poolDue }
    let a := if o.invalid then a.bump 0x2000 0x0C else a
    if o.limited then a.bump (0x2800 + p.1) 0x0A else a)
    { m with released := [], poolDue := poolBad.map fun n => (n, 0) }

/-! ### Release -/

/-- A number limited to a type's range, as the object's raw value (R424). -/
def satTo (t : Ty) (d : Dy) : Nat :=
  match t with
  | .f32 => toF32 d
  | .bf24 => bfWord d
  | .bool => (Min.min (Max.max d.round 0) 1).toNat
  | .i8 => ofSigned 8 (Min.min (Max.max d.round (-128)) 127)
  | .i16 => ofSigned 16 (Min.min (Max.max d.round (-32768)) 32767)
  | .i32 => ofSigned 32 (Min.min (Max.max d.round (-2147483648)) 2147483647)
  | .i64 => ofSigned 64 d.round
  | t => (Min.min (Max.max d.round 0) ((2 ^ (8 * (t.size.getD 4)) : Nat) - 1)).toNat

/-- A value encoded into the data of a CAN transmit object (R364). -/
def Mod.canEncode (m : Mod) (k : Nat) (d : Dy) : Nat :=
  let map := m.canCfg k 5
  let off := map % 256
  let n := mapSize (bits map 8 4)
  let num := d.sub (f32D (m.canCfg k 7))
  let sc := f32D (m.canCfg k 6)
  let q := (Fx.div (num.unitsAt (-512) * (if sc.m < 0 then -1 else 1)) (sc.abs.unitsAt (-512))).toDy
  let raw := match bits map 8 4 with
    | 1 => satTo .u8 q | 2 => satTo .i8 q | 3 => satTo .u16 q | 4 => satTo .i16 q
    | 5 => satTo .u32 q | 6 => satTo .i32 q | 7 => toF32 ((q.max (f32D 0xFF7FFFFF)).min (f32D 0x7F7FFFFF)) | _ => 0
  let data := m.canCfg k 8
  data - data / 256 ^ off % 256 ^ n * 256 ^ off + raw * 256 ^ off

/-- A loop's output written to an AO (R110, R185): the value as it is, with the flag of an AO that applies the nearest end of
its range. -/
def Mod.driveAo (m : Mod) (a w : Nat) (u : Dy) : Mod :=
  let sp := aoSpan (m.inForce (0x3200 + a) 1)
  (m.setCfg (0x3200 + a) 2 w).setRoBit (0x3200 + a) 5 1 (u.lt sp.1 || sp.2.lt u)

/-- A loop's output written to its destination at release (R110): an AO's value, a duty fraction clamped (R192), a satellite or CAN value, a mapped object. A set-point and an axis read the output themselves. -/
def Mod.drive (m : Mod) (d : Sig) (u : Dy) : Mod :=
  if 0x900 ≤ d ∧ d < 0x940 then
    m.driveAo (d - 0x900) (toF32 u) u
  else if 0xA00 ≤ d ∧ d < 0xAC0 then
    m.setCfg (0x3400 + (d - 0xA00)) 3 (toF32 ((u.max Dy.zero).min Dy.one))
  else if 0xC00 ≤ d ∧ d < 0xD00 then
    let k := d - 0xC00
    m.setCfg (0x3700 + k % 128) (8 + 16 * (k / 128)) (m.canEncode k u)
  else if 0xD00 ≤ d ∧ d < 0xF00 then m.setCfg (0x5000 + (d - 0xD00)) 3 (toF32 u)
  else if 0xF00 ≤ d ∧ d < 0xFF0 then
    let o := m.cfg (0x1700 + (d - 0xF00)) 1
    match place (o % 65536) (bits o 16 8) with
    | some p =>
      if p.row.acc ≠ .rws then m
      else if p.fam = .ao then m.driveAo p.k (satTo p.row.ty u) u
      else m.setCfg (o % 65536) (bits o 16 8) (satTo p.row.ty u)
    | none => m
  else m

/-- The clamped flag of an AO that no loop drives any more, itself or through a mapped signal (R185). -/
def Mod.undrive (m : Mod) (a : Nat) : Mod :=
  if tb (m.rov (0x3200 + a) 5) 1 ∧ (m.driver (0x900 + a)).isNone ∧ !m.mappedBy m.driver (0x3200 + a) 2 then
    m.setRoBit (0x3200 + a) 5 1 false
  else m

/-- The clamped flags as the boundary leaves the loops (R185). -/
def Mod.undriven (m : Mod) : Mod := overAll (List.range 64) (fun (m : Mod) a => m.undrive a) m

/-- The results released in the last tread become committed (R26, R49): states, destinations of loops that are not in
OFF, targets that follow the process value (R143), pool entries (R158). -/
def Mod.applyReleased (m : Mod) : Mod :=
  let rel := m.released
  let m := overAll rel (fun m p =>
    let s := p.2
    let m := m.setLoop p.1 s
    let m := if s.mode = 0 then m else m.drive (m.dest p.1) s.u
    if m.cfg (0x2200 + p.1) 0x1B = 1 ∧ (s.mode = 0 ∨ s.mode = 1 ∨ s.mode = 4) then
      m.setCfg (0x2200 + p.1) 2 (toF32 s.pvf) else m) m
  { m with released := [], poolDue := [],
           pool := m.poolDue.foldl (fun l e => putD 0 l e.1 e.2) m.pool }

/-! ### Lost sources -/

/-- Source-lost actions and restorations of a boundary (R134, R135; R39, item 4); the manual output follows as R126 gives. -/
def Mod.lostPass (m : Mod) : Mod :=
  let marked := (m.loops.filter fun p => p.2.lost || p.2.lostFf || p.2.lostTr).map (·.1)
  let js := sortBy (fun a b => decide (a < b))
    ((m.members 0x2200 512 0x10 ++ m.members 0x2200 512 0x12 ++ m.members 0x2200 512 0x13).map (·.1) ++ marked).eraseDups
  overAll js (fun m j =>
    let L := 0x2200 + j
    let f := fun sub => decide (m.cfg L sub ≠ 0xFFF) && m.lost (m.cfg L sub)
    let s := m.loop j
    let lost := f 0x10
    let mode := m.mode j
    let m := m.setLoop j { s with lost := lost, lostFf := f 0x12, lostTr := f 0x13 }
    if lost && !s.lost && decide (m.cfg L 0x14 = 1) && decide (mode = 2 ∨ mode = 3) then
      m.enterMode byLoss j 1
    else m) m

/-! ### Pair and spare -/

/-- A pair put into resynchronisation (R138). -/
def Mod.resync (m : Mod) (pair : Nat) : Mod :=
  let m := m.setRo 0x2000 (3 + pair) 1
  if pair = 0 then { m with engine := { m.engine with startA := m.tread + 1 } }
  else { m with engine := { m.engine with startB := m.tread + 1 } }

/-- A pair that miscompared: counted, and out of service after more than 8 within 100 000 treads (R137, R140). -/
def Mod.missed (m : Mod) (pair : Nat) : Mod :=
  let m := m.bump 0x2000 (5 + pair)
  let recent := fun (l : List Tread) => m.tread :: l.filter fun t => decide (m.tread < t + 100000)
  let l := recent (if pair = 0 then m.engine.missA else m.engine.missB)
  let m := if pair = 0 then { m with engine := { m.engine with missA := l } }
    else { m with engine := { m.engine with missB := l } }
  if 8 < l.length then m.setRo 0x2000 (3 + pair) 2 else m.resync pair

/-- A takeover by a pair (R138). -/
def Mod.takeover (m : Mod) (pair : Nat) : Mod :=
  ((m.setRo 0x2000 2 pair).bump 0x2000 7).logGal 0x010 pair (pair :: treadWords m.tread)

/-- What the pairs' comparators found in a tread (R120, R137 to R141, R158): the module with counts, takeover and
resynchronisations, and whether the tread's results are released. -/
def Mod.pairs (m : Mod) (i : TreadIn) : Mod × Bool :=
  let prim := m.rov 0x2000 2
  let inA := decide (m.rov 0x2000 3 = 0)
  let inB := decide (m.rov 0x2000 4 = 0)
  let path := fun n => i.poolPath.any fun p => decide (p.1 = n)
  let missA := inA && (i.missA || i.overrunA || path 0 || decide (0 < m.engine.forceA))
  let missB := inB && (i.missB || i.overrunB || path 1 || decide (0 < m.engine.forceB))
  let m := { m with engine := { m.engine with forceA := m.engine.forceA - 1, forceB := m.engine.forceB - 1 } }
  let m := m.bumpBy 0x2000 0x12 (i.poolPath.length + i.poolStored.length)
  let m := if i.overrunA || i.overrunB then m.bump 0x2000 0x0D else m
  let m := if i.overrunA then m.logGal 0x011 0 (0 :: treadWords m.tread) else m
  let m := if i.overrunB then m.logGal 0x011 1 (1 :: treadWords m.tread) else m
  let okA := inA && !missA
  let okB := inB && !missB
  let m := if missA then m.missed 0 else m
  let m := if missB then m.missed 1 else m
  if !okA && !okB then (m.bump 0x2000 0x0A, false)
  else
    let sel := if prim = 0 then (if okA then 0 else 1) else (if okB then 1 else 0)
    let m := if sel ≠ prim then m.takeover sel else m
    let m := if okA && okB && i.cross then (m.bump 0x2000 8).resync (1 - prim) else m
    (m, true)

/-- The end of a resynchronisation (R138, R140), its length counted as log entry 94 says. -/
def Mod.resyncEnd (m : Mod) (pair : Nat) (ok : Bool) : Mod :=
  if 1 < pair ∨ m.rov 0x2000 (3 + pair) ≠ 1 then m else
  let start := if pair = 0 then m.engine.startA else m.engine.startB
  let fails := (if pair = 0 then m.engine.failsA else m.engine.failsB) + 1
  let setFails := fun (m : Mod) n =>
    if pair = 0 then { m with engine := { m.engine with failsA := n } }
    else { m with engine := { m.engine with failsB := n } }
  if ok then setFails ((m.setRo 0x2000 (3 + pair) 0).setRo 0x2000 9 ((m.tread - start) % 256)) 0
  else if 3 ≤ fails then setFails (m.setRo 0x2000 (3 + pair) 2) 0
  else setFails (m.resync pair) fails

end Sys2Proof.Machine
end

