-- ==== Sys2Proof/Machine/Axes.lean ====
section
/-! DEFINITION. Axes and axis links (10): queues and plans, frames with their words, stops and faults, stage returns,
references. -/

namespace Sys2Proof.Machine

/-! ### Limits and plans -/

/-- Microsteps as the planner counts them, from units of 2^-16. -/
def axFx (p : Int) : Fx := p * (2 ^ 240 : Nat)
/-- Units of 2^-16, nearest with ties to even. -/
def fxAx (x : Fx) : Int := shrEven x 240

/-- The limits of an axis's moves (R241). -/
def Mod.axisLim (m : Mod) (a : Nat) : Lim :=
  let c := fun sub => Fx.ofDy (f32D (m.cfg (0x3600 + a) sub))
  ⟨some (c 5), some (c 6), if c 7 = 0 then none else some (c 7)⟩
/-- The limits of a stop: the programmed ramp (R243), or the emergency ramp (R245). -/
def Mod.stopLim (m : Mod) (a : Nat) (emergency : Bool) : Lim :=
  let c := fun sub => Fx.ofDy (f32D (m.cfg (0x3600 + a) sub))
  if emergency then ⟨none, some (c 0x0A), if c 0x0B = 0 then none else some (c 0x0B)⟩
  else ⟨none, some (if c 9 = 0 then c 6 else c 9), if c 7 = 0 then none else some (c 7)⟩
/-- The objects that a plan depends on. -/
def Mod.axisLimits (m : Mod) (a : Nat) : List Nat := [5, 6, 7, 8].map fun sub => m.cfg (0x3600 + a) sub

/-- Distance of a change of velocity at acceleration 0. -/
def changeDist (lim : Lim) (v w : Fx) : Fx := (finish ⟨0, v, 0⟩ (toVelocity lim v 0 w)).y

/-- The largest velocity up to `top` that satisfies a monotone condition. -/
def largest (ok : Fx → Bool) (top : Fx) : Fx := if ok top then top else halve ok 300 0 top

/-- The joint velocity at each target (R241), from the last backwards; acceleration is 0 at a joint (log entry 24). -/
def joints (lim : Lim) (cap : Fx) : Fx → List Fx → List (Fx × Fx)
  | _, [] => []
  | _, [q] => [(q, 0)]
  | p, q :: q' :: l =>
    let rest := joints lim cap q (q' :: l)
    let w' := match rest with | r :: _ => r.2 | [] => 0
    let w := if Fx.sgn (q' - q) ≠ Fx.sgn (q - p) ∨ q' = q ∨ q = p then 0
      else largest (fun w => decide (changeDist lim w (Min.min w w') ≤ Int.natAbs (q' - q))) cap
    (q, w) :: rest

/-- The path from a state to a target passed at velocity `w`, or as fast below it as the distance allows. -/
def pathTo (lim : Lim) (s : Motion) (q w : Fx) : List Phase :=
  if w = 0 then (planTo lim s q).phases else
  let rev := isReversal lim s q
  let stop := if rev then stopPath lim s else []
  let s1 : Motion := if rev then { y := stopPoint lim s, v := 0, a := 0 } else s
  let k := s1.dir q
  let f := s1.flip k
  let d := k * q
  let w1 := largest (fun w => decide ((finish f (toVelocity lim f.v f.a w)).y ≤ d)) w
  stop ++ (reachAt lim f d w1).map (Phase.flip k)

/-- The path through a queue: phases, and for each move when it ends and at which velocity. -/
def queuePath (lim : Lim) : Motion → Fx → List (Fx × Fx) → List Phase × List (Fx × Fx)
  | _, _, [] => ([], [])
  | s, t, (q, w) :: l =>
    let ph := pathTo lim s q w
    let e := finish s ph
    let t' := t + planTime ph
    let rest := queuePath lim { y := q, v := e.v, a := e.a } t' l
    (ph ++ rest.1, (t', e.v) :: rest.2)

/-! ### Commands of motion -/

/-- Whether every pair of an axis's mask is energised in the committed state (R245, R246). -/
def Mod.pairsOn (m : Mod) (a : Nat) : Bool := subBits 8 (m.cfg (0x3600 + a) 0x0D) m.snapPairs

/-- Target of a move in units of 2^-16 (R239). -/
def AxisSt.moveTarget (s : AxisSt) (kind : Nat) (target : Int) : Int :=
  if kind = 1 then target * 65536 else s.queue.getLast?.getD s.pos + target * 65536

/-- Whether a target lies in the range of R239. -/
def moveInRange (t : Int) : Bool := decide (-(2147483648 * 65536) ≤ t ∧ t ≤ 2147483647 * 65536)

/-- Whether an axis takes a move (R239), its target's range apart. -/
def Mod.moveOk (m : Mod) (a : Nat) : Bool :=
  let s := m.axis a
  (decide (s.state = 1) || decide (s.state = 2)) && decide (s.queue.length < 16) && (m.axisLoop a).isNone

/-- A move queued (R239). -/
def Mod.queueMove (m : Mod) (a : Nat) (t : Int) : Mod :=
  let s := m.axis a
  m.setAxis a { s with queue := s.queue ++ [t], replan := true }

/-- Whether an axis moves or will move. -/
def Mod.axisBusy (m : Mod) (a : Nat) : Bool :=
  let s := m.axis a
  decide (s.state = 2 ∨ s.state = 3 ∨ s.state = 4) || !s.queue.isEmpty

/-- A stop (R243): no effect at rest, stopping or faulted. -/
def Mod.stopAxis (m : Mod) (a : Nat) : Mod :=
  let s := m.axis a
  if s.state = 2 then
    m.setAxis a { s with state := 3, queue := [], ends := [], replan := true, stopFault := 0,
                         suspended := s.suspended || (m.axisLoop a).isSome }
  else m

/-- A fault condition found (R244): in states 1 to 4 only (log entry 25). -/
def Mod.axisFault (m : Mod) (a code : Nat) : Mod :=
  let s := m.axis a
  let lost := s.refLost || (decide (2 ≤ code ∧ code ≤ 5) || decide (code = 7))
  let s := { s with refLost := lost, suspended := s.suspended || (m.axisLoop a).isSome }
  match s.state with
  | 1 => m.setAxis a { s with state := 5, fault := code, queue := [], ends := [], replan := false }
  | 2 => m.setAxis a { s with state := 3, fault := code, stopFault := code, queue := [], ends := [], replan := true }
  | 3 | 4 => m.setAxis a { s with fault := code, stopFault := code }
  | _ => m

/-- A safety stop (R245): a cut in mode 1; in mode 0 the emergency ramp, or the fault where the axis stands still. -/
def Mod.safetyStopAxis (m : Mod) (a : Nat) : Mod :=
  let s0 := m.axis a
  let s := { s0 with fault := 6, stopped := true, queue := [], ends := [], suspended := s0.suspended || (m.axisLoop a).isSome }
  if m.cfg (0x3600 + a) 0x0C = 1 then
    m.setAxis a { s with state := 6, refLost := true, replan := false, plan := [], mot := { s.mot with v := 0, a := 0 } }
  else if s.state = 4 then m
  else if s.state = 1 ∨ s.state = 5 then m.setAxis a { s with state := 5, replan := false }
  else m.setAxis a { s with state := 4, stopFault := 6, replan := true }

/-- Safety stops at a boundary of every energised axis, by the signals of its snapshot (R245): at the first boundary at which a
pair of its mask is off, and again only once they have all been on, or the axis has been energised or its fault cleared. -/
def Mod.axesSafety (m : Mod) : Mod :=
  overAll m.axes (fun m p =>
    if m.pairsOn p.1 then (if p.2.stopped then m.setAxis p.1 { m.axis p.1 with stopped := false } else m)
    else if 1 ≤ p.2.state ∧ p.2.state ≤ 5 ∧ !p.2.stopped then m.safetyStopAxis p.1 else m) m

/-! ### Frames -/

/-- The quantum of a resolution code in microsteps (R236). -/
def quantum : Nat → Nat
  | 0 => 1 | 1 => 4 | 2 => 16 | 3 => 64 | 4 => 128 | _ => 256

/-- The tier for a velocity (R237): the coarsest one reached, or the present one and finer ones while they hold. -/
def tierFor (t : Nat → Dy) (v : Dy) (now : Nat) : Nat :=
  let has := fun k => decide ((t k).m ≠ 0)
  let up := ([1, 2, 3, 4, 5].filter fun k => has k && (t k).le v).foldl Max.max 0
  let keep := ([1, 2, 3, 4, 5].filter fun k => decide (k ≤ now) && has k && ((t k).mul ⟨7, -3⟩).le v).foldl Max.max 0
  Max.max up keep

/-- The address of a phase (R236). -/
def addressOf (mm last : Int) (moving : Bool) (q : Nat) : Nat :=
  let u := (q * 65536 : Nat)
  let r : Int := if !moving then (mm + 32768) / 65536
    else if last < mm then mm / u * q else -((-mm) / u) * q
  (r % 1024).toNat

/-- The end of a plan (R243, R244): at rest, or faulted after a stop that a fault caused. -/
def AxisSt.complete (s : AxisSt) (y : Fx) : AxisSt :=
  let code := s.stopFault
  { s with mot := ⟨y, 0, 0⟩, plan := [], ends := [], queue := [], clock := 0, replan := false, stopFault := 0,
           state := if (s.state = 3 ∨ s.state = 4) ∧ code ≠ 0 then 5 else 1 }

/-- The plan that a frame starts with, if it must be made anew (R240 to R243, R245). -/
def Mod.replanAxis (m : Mod) (a : Nat) (s : AxisSt) : AxisSt :=
  let fresh := fun (ph : List Phase) (ends : List (Fx × Fx)) =>
    { s with start := s.mot, plan := ph, ends := ends, clock := 0, replan := false, limits := m.axisLimits a }
  if s.state = 3 ∨ s.state = 4 then
    (if s.replan then fresh (stopPath (m.stopLim a (decide (s.state = 4))) s.mot) [] else s)
  else
  match (if m.follows s a then m.axisLoop a else none) with
  | some j =>
    let q : Fx := (m.loop j).u.round * Fx.one
    let s := { s with queue := [], ends := [] }
    if s.mot = ⟨q, 0, 0⟩ then s
    else { fresh (planTo (m.axisLim a) s.mot q).phases [] with state := 2, queue := [] }
  | none =>
    if s.queue.isEmpty then
      (if s.state = 2 ∧ s.replan then fresh (planTo (m.axisLim a) s.mot (finish s.start s.plan).y).phases [] else s)
    else if s.replan ∨ s.limits ≠ m.axisLimits a then
      let lim := m.axisLim a
      let cap := Min.min (Fx.ofDy (f32D (m.cfg (0x3600 + a) 8))) (lim.vel.getD 0)
      let r := queuePath lim s.mot 0 (joints lim cap s.mot.y (s.queue.map axFx))
      { fresh r.1 r.2 with state := 2 }
    else s

/-- Where an axis stands at a frame's apply instant (R240): 20 us further on its plan. -/
def AxisSt.advance (s : AxisSt) : AxisSt :=
  if s.state ≠ 2 ∧ s.state ≠ 3 ∧ s.state ≠ 4 then s else
  let clock := s.clock + 2
  let t := treadTime clock
  let total := planTime s.plan
  if total - planSlack ≤ t then
    s.complete (if s.state = 2 then (match s.queue.getLast? with
      | some q => axFx q
      | none => (finish s.start s.plan).y) else (finish s.start s.plan).y)
  else
    let mo := follow s.start s.plan t
    let done := (s.ends.filter fun e => decide (e.1 ≤ t)).length
    { s with clock := clock, mot := ⟨Fx.f64 mo.y, Fx.f64 mo.v, Fx.f64 mo.a⟩,
             ends := s.ends.drop done, queue := s.queue.drop done }

/-- Standing still in the frame of tread `n`, and the hold current after the hold delay (R238). -/
def AxisSt.settle (s : AxisSt) (moved : Bool) (ms : Nat) (n : Tread) : AxisSt :=
  if moved ∨ s.state = 2 ∨ s.state = 3 ∨ s.state = 4 then { s with still := n, holdCurrent := false }
  else { s with holdCurrent := decide (s.still + ms * 100 ≤ n) }

/-- One axis computed for the frame of the present tread (R230 to R238, R252): the axis and its word. -/
def Mod.frameAxis (m : Mod) (a : Nat) (valid : Bool) : AxisSt × Nat :=
  let s0 := m.axis a
  let s := (m.replanAxis a s0).advance
  let pos := if s.mot = s0.mot then s.pos else fxAx s.mot.y
  let moved := decide (pos ≠ s0.pos)
  let mm := pos + s.phi
  let v := (s.mot.v.toDy).abs
  let want := if moved then tierFor (fun k => f32D (m.cfg (0x3600 + a) (0x10 + k))) v s0.tier else 0
  let u := (quantum want * 65536 : Nat)
  let passed := decide (mm / u ≠ s0.lastM / u) || decide (mm % u = 0)
  let tier := if want ≤ s0.tier ∨ passed then want else s0.tier
  let addr := addressOf mm s0.lastM moved (quantum tier)
  let s := s.settle moved (m.cfg (0x3600 + a) 0x10) m.tread
  let release := valid && tb s.status 15 && decide (s.state = 1)
  let scale := m.cfg (0x3600 + a) (if s.holdCurrent then 0x0F else 0x0E)
  let enable := decide (1 ≤ s.state ∧ s.state ≤ 5)
  let word := addr + 2 ^ 10 * (scale % 64) + 2 ^ 16 * tier + 2 ^ 19 * b2n enable + 2 ^ 20 * b2n moved +
    2 ^ 21 * b2n s.clearFault + 2 ^ 22 * b2n release
  ({ s with pos := pos, tier := tier, moving := moved, lastM := mm, addr := addr, addrBefore := s.addr,
            clearFault := false, cleared := s.clearFault, release := release, released := s.release,
            held := if release || s.release then s.held else 0 }, if valid then word else 0)

/-- The 40 bytes of a command frame (R229, R230): preamble, start delimiter, header, axis words, and the CRC over the 36
bytes of header and words. -/
def commandFrame (header : Nat) (words : List Nat) : List Nat :=
  let body := leBytes 4 header ++ words.flatMap (leBytes 4)
  [0x55, 0xB3] ++ body ++ leBytes 2 (crc16 body)

/-- The frame of a link (R230, R231). -/
def Mod.frameLink (m : Mod) (k : Nat) : Mod :=
  let mask := m.cfg (0x3640 + k) 1
  let r := (List.range 8).foldl (fun (r : Mod × List Nat) s =>
    let a := 8 * k + s
    if (look m.axes a).isNone ∧ !tb mask s then (r.1, r.2 ++ [0]) else
    let f := r.1.frameAxis a (tb mask s)
    (r.1.setAxis a f.1, r.2 ++ [f.2])) (m, [])
  let n := m.tread / 2 % 256
  let header := n + 256 * k + 1024 * (m.cfg (0x3600 + 8 * k + n % 8) 0x0F % 64) + 2 ^ 16 * mask
  (r.1.setLink k { r.1.link k with frame := commandFrame header r.2 }).bump (0x3640 + k) 3

/-- An S3 group (R266): an entry per selected axis of an awake link. -/
def Mod.recordAxes (m : Mod) : Mod :=
  overAll ((List.range 32).filter fun a => m.selected 3 a && tb m.tiles.awake (8 + a / 8)) (fun m a =>
    let s := m.axis a
    m.rec_ 3 m.tread 6 (lowWords 2 (ofSigned 48 s.pos + 2 ^ 48 * s.state + 2 ^ 51 * s.tier))) m

/-- AXIS_FRAME: every awake link in an even tread (R230). -/
def Mod.axisFrames (m : Mod) : Mod :=
  if m.tread % 2 = 1 then m else
  (overAll ((List.range 4).filter fun k => tb m.tiles.awake (8 + k) && !m.blockIn (8 + k)) (fun m k => m.frameLink k) m).recordAxes

/-- PLAN_COMPLETE's effect: a plan whose end has passed, if a frame has not already ended it. -/
def Mod.planComplete (m : Mod) (a : Nat) : Mod :=
  let s := m.axis a
  if (s.state = 2 ∨ s.state = 3 ∨ s.state = 4) ∧ !s.replan ∧ planTime s.plan - planSlack ≤ treadTime s.clock then
    m.setAxis a (s.complete s.mot.y)
  else m

/-- HOLD_DELAY_EXPIRY's effect (R238). -/
def Mod.holdDelay (m : Mod) (a : Nat) : Mod :=
  let s := m.axis a
  if (look m.axes a).isSome ∧ s.state ≠ 2 ∧ s.state ≠ 3 ∧ s.state ≠ 4 ∧ !s.moving ∧ s.still + m.cfg (0x3600 + a) 0x10 * 100 ≤ m.tread then
    m.setAxis a { s with holdCurrent := true } else m

/-! ### Returns -/

/-- The last stage of a link's valid mask. -/
def lastStage (mask : Nat) : Nat := (onBits 8 mask).getLast?.getD 8

/-- A fault condition that has just been found, or that an axis at rest or moving meets (R244). -/
def Mod.axisFound (m : Mod) (a code : Nat) (new : Bool) : Mod :=
  if new ∨ (m.axis a).state = 1 ∨ (m.axis a).state = 2 then m.axisFault a code else m

/-- The judgement of a link's frame once its last return slot has passed (R235, R244): a link fault is one of every axis
in the valid mask; without one, a silent stage is one of its axis. -/
def Mod.judgeLink (m : Mod) (k : Nat) : Mod :=
  let stages := onBits 8 (m.cfg (0x3640 + k) 1)
  let l := m.link k
  let all := stages.all (fun s => decide (3 ≤ (m.axis (8 * k + s)).silent)) && !stages.isEmpty
  let good := if l.answered then l.good + 1 else 0
  let fault := all || l.fault && decide (good < 8)
  let m := m.setLink k { l with good := good, answered := false, fault := fault }
  let m := if all ∧ !l.fault then m.bump (0x3640 + k) 5 else m
  if fault then overAll stages (fun m s => m.axisFound (8 * k + s) 4 !l.fault) m
  else overAll (stages.filter fun s => decide (3 ≤ (m.axis (8 * k + s)).silent)) (fun m s =>
    m.axisFound (8 * k + s) 2 (decide ((m.axis (8 * k + s)).silent = 3))) m

/-- The status of the 32 bits that stage `a` returns (R234, R235), where their delimiter is 0x95 and their CRC, over the
axis number and the two status bytes, is right. -/
def returnStatus (a w : Nat) : Option Nat :=
  let st := bits w 8 16
  if bits w 0 8 = 0x95 ∧ bits w 24 8 = crc8 (a :: leBytes 2 st) then some st else none

/-- Whether return slot s of the frame of tread n falls in tread n+3 (R234): slots 5 to 7 start 30.2 µs after n or later. -/
def slotLate (s : Nat) : Bool := decide (5 ≤ s)

/-- STAGE_RETURN's effect (R234, R235, R244, R252): what a stage's return slot brings, none where it is missing. The slots
that fall in tread n+3 answer the frame before the last one. A return outside its slot is none. -/
def Mod.stageReturn (m : Mod) (a : Nat) (ret : Option Nat) : Mod :=
  let k := a / 8
  let mask := m.cfg (0x3640 + k) 1
  let late := slotLate (a % 8)
  if 32 ≤ a ∨ !tb mask (a % 8) ∨ !tb m.tiles.awake (8 + k) ∨ m.blockIn (8 + k) then m else
  let s := m.axis a
  let m := match (if m.tread % 2 = b2n late then ret.bind (returnStatus a) else none) with
    | none => (m.setAxis a { s with silent := satAdd 4 s.silent 1, differ := 0 }).bump (0x3640 + k) 4
    | some st =>
      let inHold := tb st 15
      let differ := if !inHold ∧ st % 1024 ≠ (if late then s.addrBefore else s.addr) then satAdd 4 s.differ 1 else 0
      let held := if inHold ∧ (if late then s.released else s.release) then s.held + 1 else 0
      let bad := tb st 10 && !(s.clearFault || late && s.cleared)
      let before := tb (match s.statusDue with | some d => d.2 | none => s.status) 10
      let m := m.setAxis a { s with silent := 0, differ := differ, held := held,
                                    statusDue := some (2 * (m.tread / 2) + 2, st) }
      let m := m.setLink k { m.link k with answered := true }
      let m := if bad then m.axisFound a 1 !before else m
      let m := if 3 ≤ differ then m.axisFound a 3 (decide (differ = 3)) else m
      if held = 3 then m.axisFault a 5 else m
  if a % 8 = lastStage mask then m.judgeLink k else m

/-- Stage statuses that enter the committed state (R235). -/
def Mod.axesStatus (m : Mod) : Mod :=
  overAll m.axes (fun m p => match p.2.statusDue with
    | some d => if d.1 ≤ m.tread then m.setAxis p.1 { p.2 with status := d.2, statusDue := none } else m
    | none => m) m

/-! ### Partner writes -/

/-- Whether a write of the enable object is accepted (R246). -/
def Mod.enableOk (m : Mod) (a v : Nat) : Bool :=
  let s := m.axis a
  if v = 1 then !(decide (s.state = 6) && !m.pairsOn a) else !decide (2 ≤ s.state ∧ s.state ≤ 4)

/-- The enable object written (R242, R246). -/
def Mod.enableAxis (m : Mod) (a v : Nat) : Mod :=
  let s := m.axis a
  if v = 1 then
    let s := { s with suspended := false, stopped := s.stopped && decide (s.state ≠ 0) }
    m.setAxis a (if s.state = 0 then { s with state := 1 }
      else if s.state = 6 then { s with state := 1, fault := 0 } else s)
  else if s.state = 1 ∨ s.state = 5 then m.setAxis a { s with state := 0, queue := [], replan := false }
  else m

/-- Whether the cause of an axis's fault is gone (R246; log entry 25). -/
def Mod.causeGone (m : Mod) (a : Nat) : Bool :=
  let s := m.axis a
  match s.fault with
  | 2 => decide (s.silent = 0)
  | 3 => decide (s.differ = 0)
  | 4 => !(m.link (a / 8)).fault
  | 5 | 7 => !s.refLost
  | 6 => m.pairsOn a
  | _ => true

/-- Whether a fault clear is accepted: STATE while the cause is present. -/
def Mod.clearOk (m : Mod) (a : Nat) : Bool := !(decide ((m.axis a).state = 5) && !m.causeGone a)

/-- A fault cleared (R246). -/
def Mod.clearAxis (m : Mod) (a : Nat) : Mod :=
  let s := m.axis a
  if s.state = 5 then m.setAxis a { s with state := 1, fault := 0, clearFault := true, held := 0, stopped := false } else m

/-- The multiple of 1 024 microsteps nearest a position, in units of 2^-16, ties upwards. -/
def nearestCycle (d : Int) : Int := (d + 512 * 65536) / (1024 * 65536) * (1024 * 65536)

/-- A re-reference (R246): P to the value nearest the present P whose address at rest (R236) is the echo, P itself where it is;
the change is counted to the nearest whole microstep (log entry 125). A path in progress is planned anew from there. -/
def Mod.reReference (m : Mod) (a : Nat) : Mod :=
  let s := m.axis a
  let base : Int := (s.status % 1024 : Nat) * 65536 - s.phi
  let mid := base + nearestCycle (s.pos - base)
  let p := Min.min (mid + 32767) (Max.max (mid - 32768) s.pos)
  let moving := decide (s.state = 2 ∨ s.state = 3 ∨ s.state = 4)
  m.setAxis a { s with pos := p, mot := { s.mot with y := axFx p }, replan := s.replan || moving, lastM := p + s.phi,
                       change := shrEven (p - s.pos) 16, refLost := false, held := 0 }

/-- A re-reference is accepted only in loss hold (R246). -/
def Mod.reRefOk (m : Mod) (a : Nat) : Bool := tb (m.axis a).status 15

/-- Whether the set-position object is accepted (R247). -/
def Mod.setPosOk (m : Mod) (a : Nat) : Bool :=
  let s := m.axis a
  decide (s.state = 1) && s.queue.isEmpty && !m.follows s a

/-- A position preset (R247): the phase offset absorbs the difference. -/
def Mod.setPos (m : Mod) (a : Nat) (v : Int) : Mod :=
  let s := m.axis a
  let p := v * 65536
  m.setAxis a { s with pos := p, phi := s.phi + s.pos - p, mot := ⟨axFx p, 0, 0⟩, refLost := false }

/-- What a write of an axis's object does (R239, R243, R246, R247). -/
def Mod.axisWrite (m : Mod) (a sub v : Nat) : Mod :=
  match sub with
  | 1 => m.enableAxis a v
  | 0x16 => m.queueMove a ((m.axis a).moveTarget (bits v 0 32) (toSigned 32 (bits v 32 32)))
  | 0x17 => m.stopAxis a
  | 0x1C => if v = 1 then m.clearAxis a else m.reReference a
  | 0x20 => m.setPos a (toSigned 32 v)
  | _ => m

/-- Whether a link is idle for RWL purposes. -/
def Mod.axisLinkIdle (m : Mod) (k : Nat) : Bool :=
  (List.range 8).all fun s =>
    let x := m.axis (8 * k + s)
    (decide (x.state = 0 ∨ x.state = 1 ∨ x.state = 5)) && x.queue.isEmpty && !m.follows x (8 * k + s)

end Sys2Proof.Machine
end

