-- ==== Sys2Proof/Machine/Can.lean ====
section
/-! DEFINITION. CAN FD ports (15): reception and the boundary, sending with priority and retries, error counters and
bus-off, the receive queue with its claims. -/

namespace Sys2Proof.Machine

/-- A port. -/
def Mod.canPort (m : Mod) (p : Nat) : CanPortSt := lookD m.canPorts p {}
/-- A port set. -/
def Mod.setCanPort (m : Mod) (p : Nat) (s : CanPortSt) : Mod := { m with canPorts := put m.canPorts p s }
/-- Index and subindex of a message object's object. -/
def moKey (k sub : Nat) : Nat × Nat := (0x3700 + k % 128, sub + 16 * (k / 128))
/-- A message object's value that the module writes. -/
def Mod.canRo (m : Mod) (k sub : Nat) : Nat := m.rov (moKey k sub).1 (moKey k sub).2
/-- The same set. -/
def Mod.setCanRo (m : Mod) (k sub v : Nat) : Mod := m.setRo (moKey k sub).1 (moKey k sub).2 v
/-- A message object's counter raised. -/
def Mod.canBump (m : Mod) (k sub : Nat) : Mod := m.bump (moKey k sub).1 (moKey k sub).2
/-- Port state (0x3780+p:07). -/
def Mod.portState (m : Mod) (p : Nat) : Nat := m.rov (0x3780 + p) 7
/-- The message objects that have a mode set, of a port. -/
def Mod.mos (m : Mod) (p : Nat) : List Nat := (m.members 0x3700 128 (1 + 16 * p)).map fun x => x.1 + 128 * p

/-- A message object set, its status word with it (0x3700+m:0C). -/
def Mod.putMo (m : Mod) (k : Nat) (s : CanObjSt) : Mod :=
  (m.setCanObj k s).setCanRo k 0xC (b2n s.pend + 2 * b2n s.held +
    4 * b2n (s.stale && decide (m.canCfg k 1 = 2)) + 8 * b2n s.failed)

/-! ### Reception -/

/-- Whether an object takes a frame (R361). -/
def Mod.moMatches (m : Mod) (k : Nat) (f : CanFrame) : Bool :=
  let mode := m.canCfg k 1
  let id := m.canCfg k 2
  (decide (mode = 2) || decide (mode = 3)) && decide (f.ext = tb id 29) &&
    decide (((f.id ^^^ (id % 2 ^ 29)) &&& (m.canCfg k 3 % 2 ^ 29)) = 0)

/-- Whether a port that was disabled is still in the frame that it was in then, one that began `began` treads ago (R359). -/
def Mod.inFrame (m : Mod) (p began : Nat) : Bool :=
  match (m.canPort p).offAt with
  | some t => decide (m.tread < t + began)
  | none => false

/-- Whether a port hears the bus: error-active or error-passive, or at the end of the frame in which it was disabled; its
tile awake. -/
def Mod.hears (m : Mod) (p : Nat) (began : Nat := 0) : Bool :=
  decide (p < 2) && (decide (m.portState p = 2) || decide (m.portState p = 3) || m.inFrame p began) &&
    tb m.tiles.awake (12 + p) && !m.blockIn (12 + p)

/-- Whether a frame is a request of the access service (R361). -/
def Mod.isRequest (m : Mod) (p : Nat) (f : CanFrame) : Bool :=
  decide (m.cfg (0x3780 + p) 0xD ≠ 0) && decide (f.id + 2 ^ 29 * b2n f.ext = m.cfg (0x3780 + p) 0xE % 2 ^ 30)

/-- Error-active or error-passive by the counters (R357, R368; ISO 11898-1, log entry 29). -/
def Mod.setErrors (m : Mod) (p tec rec_ : Nat) : Mod :=
  let m := m.setCanPort p { m.canPort p with tec := tec, rec_ := rec_ }
  let m := (m.setRo (0x3780 + p) 8 (Min.min 255 tec)).setRo (0x3780 + p) 9 (Min.min 255 rec_)
  if m.portState p = 2 ∨ m.portState p = 3 then
    m.setRo (0x3780 + p) 7 (if 127 < tec ∨ 127 < rec_ then 3 else 2) else m

/-- The receive error counter after a frame received well. -/
def goodRec (r : Nat) : Nat := if r = 0 then 0 else if 127 < r then 120 else r - 1

/-- The frame in which a port was disabled has ended (R359). -/
def Mod.offEnds (m : Mod) (p : Nat) : Mod :=
  if (m.canPort p).offAt.isSome then m.setCanPort p { m.canPort p with offAt := none, offers := [] } else m

/-- CAN_FRAME_RECEIVED's effect (R361, R362, R371): kept for the next boundary. A port that was disabled in the frame keeps it
for no queue: its queue has been emptied (R359). -/
def Mod.canReceive (m : Mod) (p : Nat) (f : CanFrame) : Mod :=
  if !m.hears p f.began ∨ f.remote then m else
  let m := m.offEnds p
  let m := m.setErrors p (m.canPort p).tec (goodRec (m.canPort p).rec_)
  if m.isRequest p f then m else
  match (m.mos p).find? fun k => m.moMatches k f with
  | none => m
  | some k =>
    let m := m.canBump k 0xE
    let data := ofLe (f.data.take 64)
    let len := f.data.length
    if m.canCfg k 1 = 2 then
      let s := m.canObj k
      (if s.rx.isSome then m.canBump k 0xF else m).putMo k { s with rx := some (data, len) }
    else if m.portState p = 0 then m
    else
      let s := m.canPort p
      m.setCanPort p { s with arriving := s.arriving ++ [{
        seq := 0, id := f.id + 2 ^ 29 * b2n f.ext + 2 ^ 30 * b2n f.fd + 2 ^ 31 * b2n f.brs, mo := k % 128, len := len,
        dropped := 0, tread := 0, data := data }] }

/-- An entry into a receive queue at the boundary (R371). -/
def CanPortSt.enter (s : CanPortSt) (t : Tread) (e : CanRx) : CanPortSt × Bool :=
  if 64 ≤ s.queue.length then ({ s with dropped := s.dropped + 1 }, true)
  else ({ s with queue := s.queue ++ [{ e with seq := s.seq, dropped := s.dropped % 2 ^ 32, tread := t }],
                 dropped := 0, seq := if s.seq = 2 ^ 32 - 1 then 1 else s.seq + 1 }, false)

/-- Frames of the last tread become committed (R362, R363, R371); a fresh and valid value restores a lost source (R135). -/
def Mod.canBoundary (m : Mod) : Mod :=
  let m := overAll m.canObjs (fun m o => match o.2.rx with
    | none => m
    | some r =>
      let map := m.canCfg o.1 5
      let need := if bits map 8 4 = 0 then 0 else map % 256 + mapSize (bits map 8 4)
      let m := m.setCfg (moKey o.1 8).1 (moKey o.1 8).2 r.1
      let good := decide (need ≤ r.2) && (m.sig (0xC00 + o.1)).num.isSome
      m.putMo o.1 { o.2 with rx := none, stale := false, lost := o.2.lost && !good, since := m.tread,
                             short := decide (r.2 < need) }) m
  overAll m.canPorts (fun m q =>
    if q.2.arriving.isEmpty then m else
    let r := q.2.arriving.foldl (fun (r : CanPortSt × Nat) e =>
      let x := r.1.enter m.tread e
      (x.1, r.2 + b2n x.2)) ({ q.2 with arriving := [] }, 0)
    ((m.setCanPort q.1 r.1).bumpBy (0x3780 + q.1) 0xC r.2).setRo (0x3780 + q.1) 0xB r.1.queue.length) m

/-- STALE's effect (R363). -/
def Mod.goStale (m : Mod) (k : Nat) : Mod :=
  let s := m.canObj k
  if m.canCfg k 1 = 2 ∧ m.canCfg k 0xD ≠ 0 ∧ !s.stale ∧ s.since + m.canCfg k 0xD ≤ m.tread then
    m.putMo k { s with stale := true, lost := true } else m

/-! ### Sending -/

/-- A send request (R365): a transmit object becomes pending; one that is pending merges. -/
def Mod.sendMo (m : Mod) (k : Nat) : Mod :=
  if m.canCfg k 1 ≠ 1 then m else
  let s := m.canObj k
  if s.pend then m.canBump k 0xF else m.putMo k { s with pend := true, tries := m.canCfg k 0xB + 1 }

/-- PERIODIC_SEND's effect (R365), once per boundary; while its port is disabled the object becomes pending as well. -/
def Mod.periodicSend (m : Mod) (k : Nat) : Mod :=
  let p := m.canCfg k 0xA
  let s := m.canObj k
  if p = 0 ∨ m.phaseTread % p ≠ 0 ∨ s.sentAt = some m.tread ∨ m.canCfg k 1 ≠ 1 then m else
  (m.setCanObj k { s with sentAt := some m.tread }).sendMo k

/-- Rank of an identifier in arbitration (R366): the lowest wins. -/
def arbRank (id : Nat) : Nat :=
  let n := id % 2 ^ 29
  if tb id 29 then n / 2 ^ 18 * 2 ^ 19 + 2 ^ 18 + n % 2 ^ 18 else n % 2 ^ 11 * 2 ^ 19

/-- The highest-priority pending object of a port (R366, R374). -/
def Mod.offer (m : Mod) (p : Nat) : Offer :=
  let pend := (m.mos p).filter fun k => (m.canObj k).pend
  let best := pend.foldl (fun (b : Option (Nat × Nat)) k =>
    let r := arbRank (m.canCfg k 2)
    match b with
    | some x => if r < x.1 then some (r, k) else b
    | none => some (r, k)) none
  let rr := arbRank (m.cfg (0x3780 + p) 0xF)
  match best, (m.canPort p).resp with
  | some x, [] => .mo x.2
  | some x, _ => if x.1 ≤ rr then .mo x.2 else .resp
  | none, [] => .none
  | none, _ => .resp

/-- Whether a port transmits (R359). -/
def Mod.transmits (m : Mod) (p : Nat) (began : Nat := 0) : Bool := m.hears p began && decide (m.cfg (0x3780 + p) 4 = 0)

/-- The shortest length of an FD frame that holds `n` bytes (R374). -/
def fdLength (n : Nat) : Nat := if n ≤ 8 then n else ([12, 16, 20, 24, 32, 48].find? fun l => decide (n ≤ l)).getD 64

/-- A frame under an identifier in the layout of 0x3700+m:02 (R364). -/
def canFrameOf (id : Nat) (data : List Nat) : CanFrame :=
  { id := if tb id 29 then id % 2 ^ 29 else id % 2 ^ 11, ext := tb id 29, fd := tb id 30, brs := tb id 31, data := data }

/-- The frame of a transmit object (R364): its identifier, its length and the data of the committed state (R365). -/
def Mod.moFrame (m : Mod) (k : Nat) : CanFrame :=
  canFrameOf (m.canCfg k 2) (leBytes (m.canCfg k 4) (m.canCfg k 8 % 256 ^ m.canCfg k 4))

/-- The frame of a response (R374): FD with bit-rate switching, of the shortest permitted length. -/
def Mod.respFrame (m : Mod) (p : Nat) (r : CanResp) : CanFrame :=
  let f := canFrameOf (m.cfg (0x3780 + p) 0xF)
    (r.bytes ++ List.replicate (fdLength r.bytes.length - r.bytes.length) 0)
  { f with fd := true, brs := true }

/-- What a port offers now, with its frame. -/
def Mod.offerNow (m : Mod) (p : Nat) : Offer × CanFrame :=
  match m.offer p with
  | .none => (.none, { id := 0 })
  | .mo k => (.mo k, m.moFrame k)
  | .resp => (.resp, match (m.canPort p).resp with | r :: _ => m.respFrame p r | [] => { id := 0 })

/-- What each port offers, noted at the end of a tread where it differs from what was noted last: an attempt that starts in
the tread sends it (R365, R366). -/
def Mod.noteOffers (m : Mod) : Mod :=
  overAll [0, 1] (fun (m : Mod) p =>
    let x := m.offerNow p
    let l := (m.canPort p).offers
    if l.head?.map (·.2) = some x ∨ (l.isEmpty ∧ x.1 = .none) then m
    else m.setCanPort p { m.canPort p with offers := (m.tread, x) :: l }) m

/-- What a port offered as an attempt that ends now started, `began` treads ago, with its frame, and whether it still waits to be
sent (R365, R366; log entry 128). -/
def Mod.attempt (m : Mod) (p began : Nat) : Offer × CanFrame × Bool :=
  if began = 0 then ((m.offerNow p).1, (m.offerNow p).2, true) else
  match (m.canPort p).offers.find? fun o => decide (o.1 + began ≤ m.tread) with
  | none => (.none, { id := 0 }, false)
  | some (_, .none, f) => (.none, f, false)
  | some (_, .mo k, f) => (.mo k, f, (m.canObj k).pend && decide (m.portState p ≠ 0))
  | some (_, .resp, f) =>
    (.resp, f, decide ((m.canPort p).resp.head?.map (m.respFrame p) = some f) && decide (m.portState p ≠ 0))

/-- An attempt has ended: the next one starts after it. -/
def Mod.attemptEnds (m : Mod) (p : Nat) : Mod := m.setCanPort p { m.canPort p with offers := [], offAt := none }

/-- TRANSMISSION_COMPLETE's effect (R364, R367). -/
def Mod.sent (m : Mod) (p : Nat) (began : Nat := 0) : Mod :=
  if !m.transmits p began then m else
  let x := m.attempt p began
  if x.1 = .none then m else
  let m := m.attemptEnds p
  let m := m.setErrors p ((m.canPort p).tec - 1) (m.canPort p).rec_
  let m := m.setCanPort p { m.canPort p with frame := some x.2.1 }
  match x.1 with
  | .none => m
  | .mo k =>
    (if x.2.2 then m.putMo k { m.canObj k with pend := false, tries := 0, failed := false, held := false } else m).canBump k 0xE
  | .resp => if x.2.2 then m.setCanPort p { m.canPort p with resp := (m.canPort p).resp.drop 1 } else m

/-- The port goes bus-off (R369); it shows so too while an automatic recovery waits (R370 and its trace; log entry 100). -/
def Mod.busOff (m : Mod) (p mo : Nat) : Mod :=
  let m := m.setRo (0x3780 + p) 7 4
  (m.bump (0x3780 + p) 0xA).logGal 0x050 p [p, mo]

/-- The transmit error counter after an attempt that ended in an error (R357): an error-passive transmitter that misses an
acknowledgement keeps it (ISO 11898-1, log entry 29). -/
def Mod.tecAfter (m : Mod) (p : Nat) (ack : Bool) : Nat :=
  (m.canPort p).tec + if ack ∧ m.portState p = 3 then 0 else 8

/-- An attempt of a transmit object that ended in an error (R367, R369). -/
def Mod.moError (m : Mod) (p k : Nat) (off : Bool) : Mod :=
  let s := m.canObj k
  if off then (m.putMo k { s with held := true }).busOff p (k % 128)
  else if s.tries ≤ 1 then (m.putMo k { s with pend := false, tries := 0, failed := true }).bump (0x3780 + p) 0x13
  else m.putMo k { s with tries := s.tries - 1 }

/-- The same of a response (R374). -/
def Mod.respError (m : Mod) (p : Nat) (off : Bool) : Mod :=
  let q := m.canPort p
  match q.resp with
  | [] => m
  | r :: l =>
    if off then (m.setCanPort p { q with resp := { r with held := true } :: l }).busOff p 0xFFFFFFFF
    else if r.tries ≤ 1 then (m.setCanPort p { q with resp := l }).bump (0x3780 + p) 0x13
    else m.setCanPort p { q with resp := { r with tries := r.tries - 1 } :: l }

/-- TRANSMISSION_ERROR's effect (R367 to R369). What no longer waits to be sent is not tried again. -/
def Mod.sendError (m : Mod) (p : Nat) (arbitration : Bool) (ack : Bool := false) (began : Nat := 0) : Mod :=
  if !m.transmits p began ∨ arbitration then m else
  let x := m.attempt p began
  if x.1 = .none then m else
  let tec := m.tecAfter p ack
  let off := decide (255 < tec)
  let m := m.attemptEnds p
  let m := m.setErrors p tec (m.canPort p).rec_
  match x.1, x.2.2 with
  | .mo k, true => m.moError p k off
  | .resp, true => m.respError p off
  | _, _ => if off ∧ m.portState p ≠ 0 then m.busOff p 0xFFFFFFFF else m

/-- CAN_RECEIVE_ERROR's effect (R357, R368; log entry 29). -/
def Mod.receiveError (m : Mod) (p : Nat) (dominant : Bool) : Mod :=
  if !m.hears p then m else
  m.setErrors p (m.canPort p).tec (Min.min 255 ((m.canPort p).rec_ + if dominant then 8 else 1))

/-- RECOVER's effect (R370). -/
def Mod.recover (m : Mod) (p : Nat) : Mod := if m.portState p = 4 then m.setRo (0x3780 + p) 7 5 else m

/-- Whether a port waits for its recovery: begun by a write, or automatic (R370). -/
def Mod.recovering (m : Mod) (p : Nat) : Bool :=
  decide (p < 2) && (decide (m.portState p = 5) || (decide (m.portState p = 4) && decide (m.cfg (0x3780 + p) 5 = 1)))

/-- RECOVERY_COMPLETE's effect (R370). -/
def Mod.recovered (m : Mod) (p sequences : Nat) : Mod :=
  if !m.recovering p ∨ sequences < 128 then m else
  let m := m.setErrors p 0 0
  let m := m.setRo (0x3780 + p) 7 2
  let m := overAll ((m.mos p).filter fun k => (m.canObj k).held) (fun m k => m.putMo k { m.canObj k with held := false }) m
  m.setCanPort p { m.canPort p with resp := (m.canPort p).resp.map fun r => { r with held := false } }

/-- Pending transmissions discarded (R359, R375). -/
def Mod.dropPending (m : Mod) (p : Nat) : Mod :=
  overAll ((m.mos p).filter fun k => (m.canObj k).pend) (fun m k =>
    m.putMo k { m.canObj k with pend := false, tries := 0, held := false }) m

/-- The queue emptied, with arrivals and claims (R359, R375). -/
def Mod.emptyQueue (m : Mod) (p : Nat) : Mod :=
  (m.setCanPort p { m.canPort p with queue := [], arriving := [], resp := [], dropped := 0 }).setRo (0x3780 + p) 0xB 0

/-- The port enabled (R359): it integrates with both counters at 0. -/
def Mod.portOn (m : Mod) (p : Nat) : Mod :=
  if m.portState p ≠ 0 then m else
  ((m.setCanPort p { m.canPort p with offers := [], offAt := none }).setRo (0x3780 + p) 7 1).setErrors p 0 0

/-- The port disabled (R359): its state shows 0 from here on, and it ends the frame that it is in (log entry 129). -/
def Mod.portOff (m : Mod) (p : Nat) : Mod :=
  if m.portState p = 0 then m else
  let busy := decide (m.portState p = 2 ∨ m.portState p = 3)
  let m := ((m.dropPending p).emptyQueue p).setRo (0x3780 + p) 7 0
  m.setCanPort p { m.canPort p with offAt := if busy then some m.tread else none }

/-- BUS_INTEGRATION_COMPLETE's effect (R359). -/
def Mod.integrated (m : Mod) (p : Nat) : Mod :=
  if p < 2 ∧ m.portState p = 1 then m.setRo (0x3780 + p) 7 2 else m

/-- A reset of a port (R375): pending and claims gone, queue empty, integrating again if enabled. -/
def Mod.resetPort (m : Mod) (p : Nat) : Mod :=
  let m := (m.dropPending p).emptyQueue p
  let m := m.setCanPort p { m.canPort p with offers := [], offAt := none }
  let m := m.setRo (0x3780 + p) 7 0
  if m.cfg (0x3780 + p) 1 = 1 then m.portOn p else m

/-- Stale times that start afresh at boundary N (R375, R305). -/
def Mod.canAfresh (m : Mod) : Mod :=
  { m with canObjs := m.canObjs.map fun o => (o.1, { o.2 with since := m.tread, rx := none }) }

/-! ### The receive queue -/

/-- The 88 bytes of an entry (R371). -/
def CanRx.bytes (e : CanRx) : Nat :=
  e.seq + 2 ^ 32 * (e.id % 2 ^ 32) + 2 ^ 64 * e.mo + 2 ^ 72 * e.len + 2 ^ 96 * e.dropped + 2 ^ 128 * e.tread + 2 ^ 192 * e.data

/-- A read of the queue window by an association (R372): its own entry, or the oldest unowned one, claimed. -/
def Mod.claim (m : Mod) (p a : Nat) : Mod × Nat :=
  let q := m.canPort p
  match q.queue.find? fun e => decide (e.owner = a) with
  | some e => (m, e.bytes)
  | none =>
    match q.queue.find? fun e => decide (e.owner = 0) with
    | none => (m, 0)
    | some e =>
      (m.setCanPort p { q with queue := q.queue.map fun x => if x.seq = e.seq then { x with owner := a } else x }, e.bytes)

/-- Whether an association owns the entry that an acknowledgement names. -/
def Mod.owns (m : Mod) (p a seq : Nat) : Bool := (m.canPort p).queue.any fun e => decide (e.owner = a ∧ e.seq = seq)

/-- An acknowledgement (R372). -/
def Mod.acknowledge (m : Mod) (p a seq : Nat) : Mod :=
  let q := (m.canPort p).queue.filter fun e => !decide (e.owner = a ∧ e.seq = seq)
  (m.setCanPort p { m.canPort p with queue := q }).setRo (0x3780 + p) 0xB q.length

/-- The claim of one entry taken back (R46). -/
def Mod.unclaimOne (m : Mod) (p seq : Nat) : Mod :=
  let q := m.canPort p
  m.setCanPort p { q with queue := q.queue.map fun e => if e.seq = seq then { e with owner := 0 } else e }

/-- Claims of a departing association given back to the head of the queue (R372). -/
def Mod.unclaim (m : Mod) (a : Nat) : Mod :=
  overAll m.canPorts (fun m q =>
    let mine := (q.2.queue.filter fun e => decide (e.owner = a)).map fun e => { e with owner := 0 }
    m.setCanPort q.1 { q.2 with queue := mine ++ q.2.queue.filter fun e => !decide (e.owner = a) }) m

/-- Whether a timing word is permitted (R358): 0 nominal, 1 data. -/
def timingOk (nom data : Nat) : Bool :=
  let n := fun lo w => bits nom lo w + 1
  let d := fun lo w => bits data lo w + 1
  let rate := fun pre s1 s2 => pre * (1 + s1 + s2)
  let rn := rate (n 0 5) (n 5 8) (n 13 7)
  let rd := rate (d 0 5) (d 5 5) (d 10 4)
  decide (2 ≤ n 5 8 ∧ 2 ≤ n 13 7 ∧ bits nom 27 5 = 0 ∧ bits data 26 6 = 0 ∧ 80 ≤ rn ∧ 16 ≤ rd ∧ rd ≤ rn ∧
    n 20 7 ≤ n 13 7 ∧ d 14 4 ≤ d 10 4 ∧ (tb data 18 ∨ 80 ≤ rd))

end Sys2Proof.Machine
end

