-- ==== Sys2Proof/Machine/Field.lean ====
section
/-! DEFINITION. Analog outputs and field digital I/O (08): images and how they are applied, duty outputs, parallel
groups, the main and fall-back paths, readback comparison, bank faults and supplies, dark tests, hold window and fail
states. -/

namespace Sys2Proof.Machine

/-! ### Images -/

/-- The image that the commanded state makes (R11, R26). -/
def Mod.buildImage (m : Mod) : Img :=
  { dos := ofBits ((m.members 0x3400 192 1).map (·.1)), duty := m.members 0x3400 192 3,
    ao := m.members 0x3200 64 2, requests := m.reqs }

/-- The whole number of an analog output's code for a value (R184): nearest, ties to even. -/
def aoCode (range : Nat) (v : Dy) : Int :=
  let q := fun (num : Dy) (den : Int) => (Fx.div (num.unitsAt (-256)) (den * Fx.one)).toDy.round
  match range with
  | 0 => Min.min 32767 (Max.max (-32768) (q (v.mul (Dy.ofInt 32768)) 10))
  | 1 => Min.min 65535 (Max.max 0 (q (v.mul (Dy.ofInt 65535)) 10))
  | 2 => Min.min 65535 (Max.max 0 (q (v.mul (Dy.ofInt 65535)) 20))
  | _ => Min.min 65535 (q ((v.sub (Dy.ofInt 4)).mul (Dy.ofInt 65535)) 16)

/-- The codes that the AOs latch for a list of values, one per channel (R184, R186); an unlisted value is 0.0. -/
def Mod.aoCodes (m : Mod) (vals : SMap Nat) : SMap Int :=
  (List.range 64).map fun a =>
    let r := m.inForce (0x3200 + a) 1
    (a, Config.aoTrim r a (aoCode r (f32D (lookD vals a 0))))

/-- The values that the AOs apply for an image's values: each at the nearest end of its range (R185). An AO that the
image does not list carries 0.0, which the 4–20 mA range applies as 4 mA. -/
def Mod.aoApplied (m : Mod) (vals : SMap Nat) : SMap Nat :=
  let listed := vals.foldl (fun (l : SMap Nat) p =>
    let sp := aoSpan (m.inForce (0x3200 + p.1) 1)
    let v := f32D p.2
    putD 0 l p.1 (if v.lt sp.1 || sp.2.lt v then toF32 ((v.max sp.1).min sp.2) else p.2)) []
  (m.eff.filter fun p => decide (0x320000 ≤ p.1 ∧ p.1 < 0x324000 ∧ p.1 % 256 = 1 ∧ p.2 = 3)).foldl
    (fun (l : SMap Nat) p =>
      let a := p.1 / 256 - 0x3200
      if (look vals a).isSome then l else putD 0 l a (toF32 (Dy.ofInt 4))) listed

/-! ### Levels -/

/-- The on time of a duty output in treads, round(d × P) (R192). -/
def dutyCount (d p : Nat) : Nat := ((f32D d).mul (Dy.ofInt p)).round.toNat

/-- Duty outputs on in the present tread (R192): those that the image has at state 1, by the phase of their period. -/
def Mod.dutyPhase (m : Mod) : Nat :=
  let f := m.field
  ofBits ((onBits 192 f.image.dos).filter fun o =>
    m.isDuty o &&
    (let p := Max.max 1 (m.cfg (0x3400 + o) 4)
     let n := dutyCount (lookD f.image.duty o 0) p
     if m.phaseTread % p = 0 then decide (0 < n) else tb f.dutyOn o && decide (m.phaseTread % p < n)))

/-- Whether an output's own test holds it off: a dark pulse or the output pulse test. -/
def Mod.underTest (m : Mod) (o : Nat) : Bool :=
  decide ((m.fbank (o / 32)).darkOut = some o) ||
  (match m.field.pulse with
   | some p => decide (p.1 = o)
   | none => false)

/-- The levels that the field side drives (R190 to R192, R194, R197, R199, R200, R203). -/
def Mod.wantOn (m : Mod) : Nat :=
  let f := m.field
  if !f.powered then 0 else
  ofBits ((List.range 6).flatMap fun b =>
    if (m.fbank b).state ≠ 0 then [] else
    let failed := tb f.doFailed b
    ((onBits 32 (bits (if failed then f.failDo else f.image.dos) (32 * b) 32)).map (32 * b + ·)).flatMap fun o =>
      if m.lead o ≠ o ∨ m.underTest o then []
      else if failed || !m.isDuty o || (!f.fallOut && tb f.dutyOn o) then m.group o else [])

/-- The levels driven, each change noted at the present boundary (R196). -/
def Mod.setLevels (m : Mod) : Mod :=
  let w := m.wantOn
  let diff := onBits 192 (w ^^^ m.field.doOn)
  { m with field := { m.field with doOn := w, changed := diff.foldl (fun l o => put l o m.tread) m.field.changed } }

/-! ### Dark tests -/

/-- Whether images are being applied: in service, and in standby, where the last ones are repeated (R203, R207, R392). -/
def Mod.beating (m : Mod) : Bool := decide (m.life = .run ∨ m.life = .standby ∨ m.life = .waking)

/-- A dark test abandoned (R201, R202): counted in the lead's object. -/
def Mod.abandonDark (m : Mod) (b : Nat) : Mod :=
  match (m.fbank b).darkOut with
  | some o =>
    (m.setFbank b { m.fbank b with darkOut := none, darkLast := some m.tread }).bump (0x3400 + o) 8
  | none => m

/-- Whether the image in force or the bank ends a dark pulse (R202). -/
def Mod.darkEnds (m : Mod) (b : Nat) : Bool :=
  match (m.fbank b).darkOut with
  | some o => !tb m.field.image.dos o || m.isDuty o || decide ((m.fbank b).state ≠ 0) || m.field.fallOut ||
      tb m.field.doFailed b
  | none => false

/-- An output pulse test that the present state ends (R405): its result is all ones. -/
def Mod.pulsePass (m : Mod) : Mod :=
  match m.field.pulse with
  | some p =>
    if !tb m.field.image.dos p.1 || decide ((m.fbank (p.1 / 32)).state ≠ 0) || m.field.fallOut ||
       tb m.field.doFailed (p.1 / 32) then
      { m with field := { m.field with pulse := none } }.setRo 0x1610 2 0xFFFFFFFF
    else m
  | none => m

/-- Dark tests and pulse tests that the present state ends (R202, R405). -/
def Mod.darkPass (m : Mod) : Mod :=
  (overAll (List.range 6) (fun m b => if m.darkEnds b then m.abandonDark b else m) m).pulsePass

/-- The next output that a bank tests in its period, in index order (R200): on, plain, dark test enabled, not failed. -/
def Mod.darkNext (m : Mod) (b : Nat) : Option Nat :=
  let s := m.fbank b
  let period := m.tread / 100 / Max.max 1 (m.cfg (0x34C0 + b) 8)
  let from_ := if s.darkPeriod = period then s.darkNext else 0
  ((List.range 32).filter fun i => decide (from_ ≤ i)).findSome? fun i =>
    let o := 32 * b + i
    if m.lead o = o ∧ m.cfg (0x3400 + o) 7 = 1 ∧ !m.isDuty o ∧ tb m.field.image.dos o ∧ !tb s.darkBad i then some o
    else none

/-- DARK_TEST_START's effect (R200), at least a flight after the last test: outputs that are off at their turn are skipped
for the period. A test starts at a boundary at which an image is applied, so none starts while the field side holds (R207). -/
def Mod.darkStart (m : Mod) (b : Nat) : Mod :=
  let s := m.fbank b
  let spaced := match s.darkLast with | some l => decide (l + 100 ≤ m.tread) | none => true
  if !m.beating ∨ s.state ≠ 0 ∨ s.darkOut.isSome ∨ m.field.fallOut ∨ tb m.field.doFailed b ∨ !spaced then m else
  let period := m.tread / 100 / Max.max 1 (m.cfg (0x34C0 + b) 8)
  match m.darkNext b with
  | some o =>
    (m.setFbank b { s with darkOut := some o, darkSince := m.tread, darkNext := o % 32 + 1, darkPeriod := period }).setLevels
  | none => m.setFbank b { s with darkNext := 32, darkPeriod := period }

/-- DARK_TEST_END's effect (R200, R201): passed only when every member of the group reads low. The field side times the pulse
itself while the logic side's treads do not pass. -/
def Mod.darkEnd (m : Mod) (b readback : Nat) : Mod :=
  let s := m.fbank b
  match s.darkOut with
  | none => m
  | some o =>
    if m.life = .run ∧ (m.tread - s.darkSince + 1) * 10 ≤ m.cfg (0x34C0 + b) 9 then m else
    let pass := (m.group o).all fun x => !tb readback x
    (m.setFbank b { s with darkOut := none, darkLast := some m.tread,
                           darkBad := if pass then s.darkBad else setBit s.darkBad (o % 32) true }).setLevels

/-! ### Readback -/

/-- Length in treads of the present phase of a duty output's period; a whole period where it does not switch (R192). -/
def Mod.phaseLen (m : Mod) (o : Nat) : Nat :=
  let l := m.lead o
  let p := Max.max 1 (m.cfg (0x3400 + l) 4)
  let n := dutyCount (lookD m.field.image.duty l 0) p
  if n = 0 ∨ p ≤ n ∨ !tb m.field.image.dos l then p else if tb m.field.doOn o then n else p - n

/-- Whether an output's readback is compared at the present boundary (R196): once held for 5 treads, in duty mode in the
phases of at least 8. -/
def Mod.compared (m : Mod) (o : Nat) : Bool :=
  decide (5 ≤ m.tread - lookD m.field.changed o 0) && (!m.isDuty o || decide (8 ≤ m.phaseLen o)) &&
    !m.underTest (m.lead o)

/-- The comparison of one output: three that differ set its disagreement, three that agree end it. -/
def Mod.compareOne (m : Mod) (diff : Nat) (o : Nat) : Mod :=
  if !m.compared o then m else
  let f := m.field
  if tb diff o then
    let n := satAdd 3 (lookD f.differ o 0) 1
    let m := { m with field := { f with differ := put f.differ o n, agree := drop f.agree o } }
    if n = 3 then m.setFbank (o / 32) { m.fbank (o / 32) with bad := setBit (m.fbank (o / 32)).bad (o % 32) true } else m
  else
    let n := lookD f.agree o 0 + 1
    if n = 3 then
      let m := { m with field := { f with differ := drop f.differ o, agree := drop f.agree o } }
      let rest := m.field.differ.any fun p => decide (p.1 / 32 = o / 32)
      if rest then m else m.setFbank (o / 32) { m.fbank (o / 32) with bad := 0 }
    else { m with field := { f with differ := put f.differ o 0, agree := put f.agree o n } }

/-- The comparison of every output that differs or has differed (R196), none on the fall-back path (R194). -/
def Mod.compareReadback (m : Mod) (rb : Nat) : Mod :=
  let f := m.field
  if f.fallOut || !f.powered then m else
  let diff := rb ^^^ f.doOn
  overAll (onBits 192 diff ++ (f.differ.map (·.1)).filter fun o => !tb diff o) (fun m o => m.compareOne diff o) m

/-! ### Applying an image -/

/-- A bank's requests from the logic side, carried by a main-link frame (R196, R197). -/
def BankSt.take (s : BankSt) : BankSt :=
  let s1 := if s.ack then { s with darkBad := 0, ack := false } else s
  match s1.req with
  | some 1 => if s1.state = 3 ∨ (s1.state = 1 ∧ s1.qualified) then { s1 with state := 0, byCut := false, req := none }
    else { s1 with req := none }
  | some _ => { s1 with state := if s1.state = 0 then 3 else s1.state, req := none }
  | none => s1

/-- Banks of a mask that re-enable themselves at a boundary at which an image is applied to them (R197, R198): latched off by a
sag, qualified, with auto re-enable; not after a cut (R199). -/
def Mod.autoEnable (m : Mod) (mask : Nat) : Mod :=
  overAll ((List.range 6).filter fun b => tb mask b && decide (m.cfg (0x34C0 + b) 3 = 1)) (fun (m : Mod) b =>
    let s := m.fbank b
    if s.state = 1 ∧ s.qualified ∧ !s.byCut then m.setFbank b { s with state := 0 } else m) m

/-- Overtemperature conditions that end (R196): cooled, and commanded off once. -/
def Mod.coolPass (m : Mod) : Mod :=
  overAll m.fbanks (fun m p =>
    if p.2.hot = 0 then m else
    let off := ofBits ((onBits 32 p.2.hot).filter fun i => !tb m.field.image.dos (m.lead (32 * p.1 + i)))
    let hotOff := orBits p.2.hotOff off
    let over_ := p.2.hot &&& p.2.cooled &&& hotOff
    m.setFbank p.1 { p.2 with hot := clrBits p.2.hot over_, cooled := clrBits p.2.cooled over_,
                              hotOff := clrBits hotOff over_ }) m

/-- A whole image latched by the field side (R11, R185, R186, R204). -/
def Mod.latchImage (m : Mod) (img : Img) : Mod :=
  let f := m.field
  let m := overAll (List.range 6) (fun m b => if (look m.fbanks b).isSome then m.setFbank b (m.fbank b).take else m)
    (m.autoEnable 63)
  let m := overAll (List.range 8) (fun m p => m.setSafOut p { m.safOut p with requests := lookD img.requests p 0 }) m
  let ao := m.aoApplied img.ao
  { m with field := { f with image := img, aoVal := ao, aoCode := m.aoCodes ao, badOut := 0, aoHeld := false,
                             doHeld := 0, aoFailed := false, doFailed := 0, holdValid := true,
                             aoAt := m.tread, doAt := (List.range 6).map fun b => (b, m.tread) } }

/-- The couplers of the banks whose strobe toggled (R193, R194). -/
def Mod.takeCouplers (m : Mod) (img : Img) (strobes : Nat) : Mod :=
  let m := m.autoEnable strobes
  let f := m.field
  let dos := (List.range 6).foldl (fun w b =>
    w + 2 ^ (32 * b) * bits (if tb strobes b then img.dos else f.image.dos) (32 * b) 32) 0
  let doAt := (onBits 6 strobes).foldl (fun (l : SMap Tread) b => put l b m.tread) f.doAt
  { m with field := { f with image := { f.image with dos := dos }, aoHeld := true, doHeld := clrBits 63 strobes,
                             doFailed := clrBits f.doFailed (strobes % 64), doAt := doAt } }

/-- A link switch recorded (R193). -/
def Mod.pathChange (m : Mod) : Mod := (m.bump 0x34D0 5).logGal 0x031 0 [m.field.linkState]

/-- The field side takes the couplers from the next boundary on (R193). -/
def Mod.outFalls (m : Mod) : Mod := { m with field := { m.field with fallOut := true, goodOut := 0 } }.pathChange

/-- The field side returns to the main path (R195): debounce restarts from the present raw levels, duty outputs wait for
their next period. A state that this restart raises counts as no rising edge (log entry 121). -/
def Mod.outReturns (m : Mod) : Mod :=
  { m with field := { m.field with fallOut := false, badOut := 0, dutyOn := 0, di := m.field.diRaw,
                                   bounce := (List.range 192).map fun i => (i, m.tread) } }

/-- What the frames of the last tread do to the path of the field side (R193, R195): the fourth bad one in a row and the
thousandth good one count at this boundary. -/
def Mod.outPath (m : Mod) (mainOut : Bool) : Mod :=
  let f := m.field
  if mainOut then
    let m := { m with field := { f with goodOut := satAdd 1000 f.goodOut 1, badOut := 0 } }
    if f.fallOut ∧ 999 ≤ f.goodOut then m.outReturns else m
  else
    let m := { m with field := { f with goodOut := 0, badOut := satAdd 4 f.badOut 1 } }.bump 0x34D0 4
    if !f.fallOut ∧ 3 ≤ f.badOut then m.outFalls else m

/-- The image built in the last tread reaches the field side at the present boundary (R11, R193, R194, R203). -/
def Mod.applyImage (m : Mod) (mainOut : Bool) (strobes : Nat) : Mod :=
  if !m.field.powered then m else
  match m.field.built with
  | none => m
  | some img =>
    let m := m.outPath mainOut
    let m :=
      if m.field.fallOut then m.takeCouplers img strobes
      else if mainOut then m.latchImage img
      else { m with field := { m.field with aoHeld := true, doHeld := 63 } }
    let m := m.coolPass.darkPass
    { m with field := { m.field with dutyOn := if m.field.fallOut then 0 else m.dutyPhase } }.setLevels

/-! ### The snapshot -/

/-- Whether a bank is at fault on the field side (R196). -/
def BankSt.faulty (s : BankSt) : Bool :=
  s.low || decide (s.state = 1) || decide (s.state = 2) || decide (s.bad ≠ 0) || decide (s.darkBad ≠ 0) || decide (s.hot ≠ 0)

/-- The snapshot data of a received frame (R26, R187, R193, R196): inputs, readback, banks, safety. -/
def Mod.takeSnapshot (m : Mod) (rb : Nat) : Mod :=
  let f := m.field
  let fault := ofBits ((List.range 6).filter fun b => (m.fbank b).faulty)
  let m := overAll ((onBits 6 fault).filter fun b => !tb m.snapFault b) (fun m b => m.bump (0x34C0 + b) 0x0B) m
  let low := ofBits ((List.range 6).filter fun b => (m.fbank b).under)
  { m with field := { f with snapDi := f.di, snapRaw := f.diRaw, snapRead := rb, diStale := false, snapLow := low },
           snapFault := fault, snapBanks := (List.range 6).map fun b => (m.fbank b).state,
           snapIn := m.safety.inputs, snapOut := m.safety.outputs, snapDom := m.safety.dom,
           snapSafety := m.safety.inputs.foldl (fun w p => w + 2 ^ (2 * p.1) * (b2n p.2.a.level + 2 * b2n p.2.b.level)) 0,
           snapPairs := m.safety.outputs.foldl (fun w p => w + 2 ^ p.1 * b2n p.2.on) 0,
           snapAo := b2n f.aoHeld + 2 * b2n f.aoFailed }

/-- Every bank reported at fault while the inputs run on the fall-back path (R194). -/
def Mod.forceFaults (m : Mod) : Mod :=
  let m := overAll ((List.range 6).filter fun b => !tb m.snapFault b) (fun m b => m.bump (0x34C0 + b) 0x0B) m
  { m with snapFault := 63 }

/-- The logic side takes the couplers (R193, R194): raw levels, every bank at fault. -/
def Mod.inFalls (m : Mod) : Mod :=
  let f := m.field
  ({ m with field := { f with fallIn := true, goodIn := 0, diStale := false, snapDi := f.diRaw, snapRaw := f.diRaw } }.forceFaults).pathChange

/-- The raw levels at the present boundary (R189). -/
def Mod.takeRaw (m : Mod) (i : TreadIn) : Mod :=
  let raw := i.raw.foldl
    (fun (w : Nat) (p : Nat × Nat) => if p.1 < 192 then setBit w p.1 (decide (p.2 = 1)) else w) m.field.diRaw
  { m with field := { m.field with diRaw := raw } }

/-- What the frames of the last tread do to the path of the logic side (R193, R195). -/
def Mod.inPath (m : Mod) (mainIn : Bool) : Mod :=
  let f := m.field
  if mainIn then { m with field := { f with goodIn := satAdd 1000 f.goodIn 1, badIn := 0, fallIn := f.fallIn && decide (f.goodIn < 999) } }
  else
    let m := { m with field := { f with goodIn := 0, badIn := satAdd 4 f.badIn 1 } }.bump 0x34D0 4
    if !f.fallIn ∧ 3 ≤ f.badIn then m.inFalls else m

/-- The snapshot at the present boundary (R12, R189, R193, R194). -/
def Mod.snapField (m : Mod) (i : TreadIn) : Mod :=
  let rb := i.readback.getD m.field.doOn
  let m := (m.inPath i.mainIn).compareReadback rb
  if m.field.fallIn then { m with field := { m.field with snapDi := m.field.diRaw, snapRaw := m.field.diRaw } }
  else if i.mainIn then m.takeSnapshot rb
  else { m with field := { m.field with diStale := true } }

/-! ### Paths -/

/-- FALLBACK_SWITCH's effect (R193, R194): due when three treads without a good frame have passed and the fourth brings
none either. -/
def Mod.fallback (m : Mod) (side : Nat) : Mod :=
  let f := m.field
  if side = 0 then (if f.fallOut ∨ f.badOut < 3 then m else m.outFalls)
  else if side = 1 then (if f.fallIn ∨ f.badIn < 3 then m else m.inFalls)
  else m

/-- MAIN_PATH_RETURN's effect (R195): due with the thousandth good frame in a row. The forced fault bits stand until the
first full snapshot. -/
def Mod.mainReturn (m : Mod) (side : Nat) : Mod :=
  let f := m.field
  if side = 0 then (if !f.fallOut ∨ f.goodOut < 999 then m else m.outReturns)
  else if side = 1 then
    (if !f.fallIn ∨ f.goodIn < 999 then m else { m with field := { f with fallIn := false, badIn := 0 } })
  else m

/-! ### Hold window, supplies, switches -/

/-- Microseconds that the field side has held what it last applied at boundary `at_`, `ms` after the last boundary. -/
def Mod.heldUs (m : Mod) (at_ ms : Nat) : Nat := 10 * (m.tread - at_) + 1000 * ms

/-- Whether the AOs' hold window is over (R203): counted from the last main-link image. -/
def Mod.aoOver (m : Mod) (ms : Nat) : Bool :=
  (!m.beating || m.field.aoHeld) && decide (1000 * m.cfg 0x34D0 1 ≤ m.heldUs m.field.aoAt ms)

/-- The banks whose hold window is over (R203): counted from the last image of either path. -/
def Mod.banksOver (m : Mod) (ms : Nat) : Nat :=
  ofBits ((onBits 6 (if m.beating then m.field.doHeld else 63)).filter fun b =>
    decide (1000 * m.cfg 0x34D0 1 ≤ m.heldUs (lookD m.field.doAt b 0) ms))

/-- Whether the hold window is over for any output (R203). -/
def Mod.holdOver (m : Mod) (ms : Nat) : Bool := m.field.powered && (m.aoOver ms || decide (m.banksOver ms ≠ 0))

/-- HOLD_WINDOW_EXPIRY's effect on the outputs (R203, R204), `ms` after the last boundary. -/
def Mod.holdExpiry (m : Mod) (ms : Nat) : Mod :=
  if !m.holdOver ms then m else
  let f := m.field
  let ao := m.aoOver ms
  let banks := m.banksOver ms
  let m := { m with field := { f with
    aoHeld := f.aoHeld || ao, aoFailed := f.aoFailed || ao, doHeld := orBits f.doHeld banks, doFailed := orBits f.doFailed banks,
    holdValid := false,
    aoVal := if ao then f.failAo else f.aoVal, aoCode := if ao then m.aoCodes f.failAo else f.aoCode } }
  m.darkPass.setLevels

/-- SUPPLY_SAG's effect (R197): not while cut (R199). -/
def Mod.sag (m : Mod) (b : Nat) : Mod :=
  if 6 ≤ b ∨ (m.fbank b).state = 2 then m else
  let m := m.setFbank b { m.fbank b with state := 1, low := true, under := true, qualified := false }
  m.darkPass.setLevels

/-- BANK_SUPPLY_LOW's effect (R196, R197). -/
def Mod.supplyLow (m : Mod) (b : Nat) : Mod :=
  if 6 ≤ b then m else m.setFbank b { m.fbank b with low := true, under := true, qualified := false }

/-- VBb is back at 19.2 V: the supply-low flag ends (R197), the fault condition only once the supply has qualified (R196). -/
def Mod.supplyBack (m : Mod) (b : Nat) : Mod := if 6 ≤ b then m else m.setFbank b { m.fbank b with under := false }

/-- SUPPLY_QUALIFIED's effect (R196, R197): a latched bank may be enabled again, at a boundary. -/
def Mod.qualified (m : Mod) (b : Nat) : Mod :=
  if 6 ≤ b then m else
  m.setFbank b { m.fbank b with low := false, under := false, qualified := true }

/-- A switch too hot (R196). -/
def Mod.overTemp (m : Mod) (o : Nat) : Mod :=
  if 192 ≤ o then m else
  let s := m.fbank (o / 32)
  m.setFbank (o / 32) { s with hot := setBit s.hot (o % 32) true, cooled := setBit s.cooled (o % 32) false,
                               hotOff := setBit s.hotOff (o % 32) (!tb m.field.image.dos (m.lead o)) }

/-- A switch that has cooled (R196). -/
def Mod.cooledDown (m : Mod) (o : Nat) : Mod :=
  if 192 ≤ o then m else
  let s := m.fbank (o / 32)
  if tb s.hot (o % 32) then (m.setFbank (o / 32) { s with cooled := setBit s.cooled (o % 32) true }).coolPass else m

/-- The field side without power (R205). -/
def Mod.unpowerField (m : Mod) : Mod :=
  { m with field := { m.field with powered := false, doOn := 0, aoVal := [], aoCode := [], holdValid := false } }

/-- The field side as a power-on finds it (R207): everything off, fail states at their defaults, banks enabled. -/
def Mod.freshField (m : Mod) : Mod :=
  { m with field := { aoAt := m.tread, doAt := (List.range 6).map fun b => (b, m.tread) }, fbanks := [] }

/-! ### Analog readback -/

/-- AO_READBACK's effect (R187): the output of the group whose turn it is in this flight; no readback reaches the logic
side on the fall-back path (R194). -/
def Mod.aoReadback (m : Mod) (g v : Nat) : Mod :=
  if 8 ≤ g ∨ m.life ≠ .run ∨ m.field.fallIn then m else
  let a := 8 * g + m.tread / 100 % 8
  let range := m.inForce (0x3200 + a) 1
  let sp := aoSpan range
  let now := f32D (lookD m.field.aoVal a 0)
  let dev := ((f32D v).sub now).abs
  let m := m.setRo (0x3200 + a) 4 v
  let m := m.setRoBit (0x3200 + a) 5 0 (((f32D (m.cfg (0x3240 + g) 1)).mul (sp.2.sub sp.1)).lt dev)
  m.setRoBit (0x3200 + a) 5 2 (decide (2 ≤ range) && (f32D v).lt ⟨1, -1⟩ && (Dy.ofInt 4).le now)

/-! ### Debounce and the flight boundary -/

/-- Samples for which a level can have been held: not from before the count of its input restarted (R188). -/
def Mod.heldSamples (m : Mod) (i samples : Nat) : Nat :=
  if m.life ≠ .run then samples else Min.min samples (10 * (m.tread + 1 - lookD m.field.bounce i 0))

/-- DEBOUNCE_CHANGE's effect (R188): the raw level has held a new level for a number of consecutive samples; once they are
as many as the debounce time the debounced state takes it, rising edges counted. -/
def Mod.debounceTo (m : Mod) (i level samples : Nat) : Mod :=
  if 192 ≤ i ∨ !m.field.powered ∨ tb m.field.di i = decide (level = 1) ∨
    m.heldSamples i samples < m.inForce (0x3300 + i) 1 then m else
  let m := { m with field := { m.field with di := setBit m.field.di i (decide (level = 1)) } }
  if level = 1 then m.bump (0x3300 + i) 5 else m

/-- Outputs whose group a change of the parallel maps alters, switched off at rest (R191; log entry 23). -/
def Mod.regroup (m : Mod) : Mod :=
  overAll ((List.range 6).filter fun b => decide (lookD m.field.parallel b 0 ≠ m.inForce (0x34C0 + b) 6)) (fun (m : Mod) b =>
    let om := lookD m.field.parallel b 0
    let nm := m.inForce (0x34C0 + b) 6
    let grp := fun map i => (List.range 32).filter fun j => decide (leadGo map (32 * b) j = leadGo map (32 * b) i)
    overAll ((List.range 32).filter fun i => decide (grp om i ≠ grp nm i)) (fun m i => m.setCfg (0x3400 + 32 * b + i) 1 0) m) m

/-- What the field side takes over: fail states and parallel maps (R191, R203). -/
def Mod.takeMaps (m : Mod) : Mod :=
  let maps := (List.range 6).foldl (fun (l : SMap Nat) b => putD 0 l b (m.inForce (0x34C0 + b) 6)) []
  let off := ofBits ((m.members 0x3400 192 5).map (·.1))
  { m with field := { m.field with failDo := off, failAo := m.members 0x3200 64 3, parallel := maps } }

/-- What the field side takes over at a flight boundary (R185, R188, R191, R203): fail states, AO ranges, debounce times,
parallel maps. An AO whose range changes is set to rest (log entry 23). -/
def Mod.fieldFlight (m : Mod) (before : SMap Nat) : Mod :=
  let changed := fun idx sub => decide (stGet before (okey 0 idx sub) ≠ m.inForce idx sub)
  let m := if before = m.eff then m else
    let m := overAll ((List.range 64).filter fun a => changed (0x3200 + a) 1) (fun (m : Mod) a =>
      m.setCfg (0x3200 + a) 2 (if m.inForce (0x3200 + a) 1 = 3 then toF32 (Dy.ofInt 4) else 0)) m
    let l := (List.range 192).filter fun i => changed (0x3300 + i) 1
    { m with field := { m.field with bounce := l.foldl (fun (l : SMap Tread) i => put l i m.tread) m.field.bounce } }
  m.regroup.takeMaps

end Sys2Proof.Machine
end

