-- ==== Sys2Proof/Machine/Images.lean ====
section
/-! DEFINITION. Stairwell images (04): the check sums, the image's header and sections, the load checks of every table,
loading the shadow bank, swap and live patches. -/

namespace Sys2Proof.Machine

/-! ### Check sums and bytes -/

/-- One bit of CRC-32C. -/
def crc32Bit (c : Nat) : Nat := if c % 2 = 1 then (c / 2) ^^^ 0x82F63B78 else c / 2
/-- CRC-32C (R95). -/
def crc32c (l : List Nat) : Nat :=
  (l.foldl (fun c b => crc32Bit (crc32Bit (crc32Bit (crc32Bit (crc32Bit (crc32Bit (crc32Bit (crc32Bit
    (c ^^^ b)))))))) ) 0xFFFFFFFF) ^^^ 0xFFFFFFFF

/-- The low `n` digits of a number in base `b`, cut in halves to keep the numbers small. -/
def digits (b : Nat) : Nat → Nat → Nat → List Nat
  | 0, n, w => (List.range n).map fun i => w / b ^ i % b
  | f + 1, n, w =>
    if n ≤ 8 then (List.range n).map fun i => w / b ^ i % b
    else digits b f (n / 2) (w % b ^ (n / 2)) ++ digits b f (n - n / 2) (w / b ^ (n / 2))
/-- The `n` bytes of a number from byte `off`. -/
def bytesAt (w off n : Nat) : List Nat := digits 256 24 n (w / 256 ^ off)
/-- The field of `n` bytes at `off`. -/
def fieldAt (w off n : Nat) : Nat := w / 256 ^ off % 256 ^ n
/-- CRC of a step entry (R57). -/
def stepCrc (e : Nat) : Nat := crc16 (leBytes 60 e)
/-- CRC of a landing record. -/
def landingCrc (e : Nat) : Nat := crc16 (leBytes 28 e)
/-- A step entry with its CRC made right (R105). -/
def resealStep (e : Nat) : Nat := e % 2 ^ 480 + 2 ^ 480 * stepCrc e + 2 ^ 496 * (e / 2 ^ 496)

/-! ### Failures -/

/-- A failure (R443): code, table code, index. -/
abbrev Fail := Nat × Nat × Nat

/-- The first failure of a list of checks. -/
def firstFail : List (Option Fail) → Option Fail
  | [] => none
  | some f :: _ => some f
  | none :: l => firstFail l

/-- A check that fails unless `ok` holds. -/
def need (ok : Bool) (code table idx : Nat) : Option Fail := if ok then none else some (code, table, idx)

/-- The lowest failure code of those that an entry shows (R99); 0 for none. -/
def lowest (l : List (Bool × Nat)) : Nat :=
  l.foldl (fun c p => if p.1 then c else if c = 0 ∨ p.2 < c then p.2 else c) 0

/-! ### Header and sections -/

/-- Entry sizes of the seven tables in bytes; entry points by format. -/
def sizes (fmt : Nat) : List Nat := [64, 8, 4, 48, 128, 32, if fmt = 2 then 8 else 16]
/-- Least and largest counts of the seven tables (R95). -/
def countLimits : List (Nat × Nat) :=
  [(0, 32768), (0, 24576), (0, 8192), (0, 1024), (0, 512), (1, 64), (1, 256)]
/-- The seven counts of an image. -/
def counts (w : Nat) : List Nat := (List.range 7).map fun i => fieldAt w (16 + 2 * i) 2

/-- The first byte in a range that breaks the rule of a text of ASCII bytes padded with zeros. -/
def textFault (l : List Nat) : Option Nat :=
  let z := (l.findIdx? (· = 0)).getD l.length
  (List.range l.length).find? fun i => if i < z then decide (0x7F < l.getD i 0) else decide (l.getD i 0 ≠ 0)

/-- The first byte that is not 0 among `n` bytes at an offset. -/
def nonZeroAt (w off n : Nat) : Option Nat := ((List.range n).map (off + ·)).find? fun i => decide (byteOf w i ≠ 0)

/-- Check 1: the header (R99). -/
def checkHeader (w len declared fmt : Nat) : Option Fail :=
  let f := fieldAt w 4 2
  let hl := fieldAt w 6 2
  let ident := fieldAt w 8 4
  let reserved := [nonZeroAt w 30 2, if f = 2 then nonZeroAt w 32 32 else none, if f = 3 then nonZeroAt w 148 8 else none]
  firstFail [need (fieldAt w 0 4 = 0x57535643) 1 0 0,
    need ((f = 2 ∨ f = 3) ∧ f = fmt) 2 0 4,
    need (hl = if f = 2 then 64 else 160) 2 0 6,
    need (ident ≠ 0 ∧ ident ≠ 0xFFFFFFFF) 0x13 0 8,
    need (fieldAt w 12 4 = declared ∧ len = declared ∧ hl + 4 ≤ declared) 3 0 12,
    need (f ≠ 3 ∨ crc32c (bytesAt w 0 156) = fieldAt w 156 4) 4 0 156,
    (match reserved.findSome? (fun x => x) with | some i => some (0xD, 0, i) | none => none),
    (if f = 3 then (match textFault (bytesAt w 32 32) with | some i => some (0x13, 0, 32 + i) | none => none) else none)]

/-- Where a section lies in the image, by the format: offset and length. -/
def sectionOf (w fmt i : Nat) : Nat × Nat :=
  if fmt = 3 then (fieldAt w (64 + 12 * i) 4, fieldAt w (68 + 12 * i) 4)
  else
    let c := counts w
    let z := sizes 2
    (64 + (List.range i).foldl (fun n k => n + c.getD k 0 * z.getD k 0) 0, c.getD i 0 * z.getD i 0)

/-- Check 3, the counts (R99): ranges, and in format 2 that the sections fill the length. -/
def checkCounts (w len fmt : Nat) : Option Fail :=
  let c := counts w
  let bad := (List.range 7).find? fun i =>
    let l := countLimits.getD i (0, 0)
    decide (c.getD i 0 < l.1 ∨ l.2 < c.getD i 0)
  match bad with
  | some i => some (6, 0, 16 + 2 * i)
  | none =>
    let s := sectionOf w 2 6
    need (fmt = 3 ∨ s.1 + s.2 + 4 = len) 6 0 12

/-- Check 3, the directory (R96). -/
def checkDirectory (w len : Nat) : Option Fail :=
  firstFail ((List.range 7).flatMap fun i =>
    let s := sectionOf w 3 i
    let prev := if i = 0 then 160 else (sectionOf w 3 (i - 1)).1 + (sectionOf w 3 (i - 1)).2
    [need (prev ≤ s.1 ∧ s.1 + 4 ≤ len) 7 0 (64 + 12 * i),
     need (s.1 + s.2 + 4 ≤ len ∧ (i = 0 ∨ s.2 = (counts w).getD i 0 * (sizes 3).getD i 0)) 7 0 (68 + 12 * i)])

/-- Check 3, the section CRCs (R96). -/
def checkSections (w : Nat) : Option Fail :=
  firstFail ((List.range 7).map fun i =>
    let s := sectionOf w 3 i
    need (crc32c (bytesAt w s.1 s.2) = fieldAt w (72 + 12 * i) 4) 7 0 (72 + 12 * i))

/-- The step runs of a format 3 image (R96, R443): `sec` is what is left of the section, `left` its length, `got` the entries
so far and `want` the header's count; answers the steps or the position of the first run at fault. A run past the last step
is out of place, and a section without a run whose count is not 0 fails at position 0 (log entries 89, 90). -/
def runs (want : Nat) : Nat → Nat → Nat → Nat → Nat → Nat → List (Nat × Nat) → (List (Nat × Nat) × Option Nat)
  | 0, _, _, _, _, _, acc => (acc, none)
  | f + 1, sec, left, pos, from_, got, acc =>
    if left = 0 then (acc, if got = want then none else some (pos - 1)) else
    let first := sec % 65536
    let n := sec / 65536 % 65536
    if left < 4 ∨ n = 0 ∨ 32768 < n ∨ first < from_ ∨ 32768 < first + n ∨ left < 4 + 64 * n then (acc, some pos)
    else
      let es := digits (2 ^ 512) 24 n (sec / 2 ^ 32)
      runs want f (sec / 256 ^ (4 + 64 * n)) (left - 4 - 64 * n) (pos + 1) (first + n) (got + n)
        (acc ++ (es.zipIdx first).map fun p => (p.2, p.1))

/-- The step entries of an image, or the run at fault. -/
def stepsOf (w fmt : Nat) : List (Nat × Nat) × Option Nat :=
  let s := sectionOf w fmt 0
  let n := (counts w).getD 0 0
  if fmt = 3 then runs n 32769 (w / 256 ^ s.1) s.2 0 0 0 []
  else (((digits (2 ^ 512) 24 n (w / 256 ^ s.1)).zipIdx 0).map fun p => (p.2, p.1), none)

/-- A dense section's entries that are not all 0. -/
def denseOf (w fmt i : Nat) : SMap Nat :=
  let s := sectionOf w fmt i
  (((digits (256 ^ (sizes fmt).getD i 1) 24 ((counts w).getD i 0) (w / 256 ^ s.1)).zipIdx 0).map fun p =>
    (p.2, p.1)).filter fun p => decide (p.2 ≠ 0)

/-- The bank that an image's sections make (R95); an entry of a run that is all 0 is empty as well (log entry 88). -/
def bankOf (w : Nat) : Bank :=
  let fmt := fieldAt w 4 2
  let c := counts w
  { steps := (stepsOf w fmt).1.filter fun p => decide (p.2 ≠ 0), actions := denseOf w fmt 1, consts := denseOf w fmt 2,
    patterns := denseOf w fmt 3, sets := denseOf w fmt 4, landings := denseOf w fmt 5, entries := denseOf w fmt 6,
    actionCount := c.getD 1 0, constCount := c.getD 2 0, landingCount := c.getD 5 0, entryCount := c.getD 6 0,
    id := fieldAt w 8 4, format := fmt, desc := if fmt = 3 then fieldAt w 32 32 else 0 }

/-! ### Opcodes -/

/-- What an opcode's value field may hold. -/
inductive Opnd where
  | zero | f32 | duty | mode | bit | pulse | i32 | nonzero | u32 | mapped | entry
deriving DecidableEq, Repr

/-- Lowest and highest target and the operand of an opcode; none for a reserved one. -/
def opcode : Nat → Option (Nat × Nat × Opnd)
  | 0x00 => some (0xFFF, 0xFFF, .zero)
  | 0x01 => some (0x200, 0x3FF, .f32)
  | 0x02 => some (0x200, 0x3FF, .f32)
  | 0x03 => some (0x400, 0x5FF, .f32)
  | 0x04 => some (0x000, 0x7FF, .mode)
  | 0x05 => some (0x000, 0x7FF, .bit)
  | 0x06 => some (0x900, 0x93F, .f32)
  | 0x07 => some (0xA00, 0xABF, .bit)
  | 0x08 => some (0xA00, 0xABF, .duty)
  | 0x09 => some (0xA00, 0xABF, .pulse)
  | 0x0A => some (0xB10, 0xB2F, .i32)
  | 0x0B => some (0xB10, 0xB2F, .i32)
  | 0x0C => some (0xB10, 0xB2F, .zero)
  | 0x0D => some (0xB60, 0xB7F, .zero)
  | 0x0E => some (0xB60, 0xB7F, .zero)
  | 0x0F => some (0x800, 0x8FF, .zero)
  | 0x10 => some (0xAF0, 0xAFF, .nonzero)
  | 0x11 => some (0xFFF, 0xFFF, .u32)
  | 0x12 => some (0xF00, 0xFEF, .mapped)
  | 0x13 => some (0xC00, 0xCFF, .zero)
  | 0x14 => some (0xB50, 0xB5F, .entry)
  | 0x15 => some (0xB50, 0xB5F, .zero)
  | 0x16 => some (0xAE0, 0xAE7, .bit)
  | 0x17 => some (0x000, 0x7FF, .zero)
  | _ => none

/-- Whether a word is a permitted operand (R67); `entries` is the bank's entry-point count. -/
def operandOk (k : Opnd) (v entries : Nat) : Bool :=
  match k with
  | .zero => decide (v = 0)
  | .f32 => f32Fin v
  | .duty => f32Fin v && Dy.zero.le (f32D v) && (f32D v).le Dy.one
  | .mode => decide (v ≤ 4)
  | .bit => decide (v ≤ 1)
  | .pulse => decide (1 ≤ v ∧ v ≤ 65535)
  | .nonzero => decide (1 ≤ v)
  | .entry => decide (v < entries)
  | .i32 | .u32 | .mapped => true

/-- The opcodes of landing actions (R73). -/
def landingOps : List Nat := [1, 2, 3, 4, 5, 6, 7, 8, 0xC, 0xD, 0xE, 0x11, 0x16]

/-! ### Table entries -/

/-- Whether a group of a step is armed (R58): 0 A, 1 B. -/
def groupArmed (e g : Nat) : Bool :=
  (List.range 4).any fun i => decide (bits (wordOf e (5 + i)) 0 4 ≠ 0) && decide (bits (wordOf e 12) i 1 = g)

/-- Signals an operator may name (R7, R59). -/
def termSignalOk (op sig : Nat) : Bool :=
  match op with
  | 0 => decide (sig = 0xFFF)
  | 1 | 2 | 3 | 4 | 5 => assigned sig
  | 6 | 7 => digital sig
  | 8 => decide (0xB60 ≤ sig ∧ sig ≤ 0xB7F)
  | _ => decide (sig < 0x800)

/-- Whether a window's constants are in order; a comparison with a NaN is false (R59). -/
def windowOk (b : Bank) (c : Nat) : Bool :=
  match f32Key (b.const c), f32Key (b.const (c + 1)) with
  | some x, some y => x.le y
  | _, _ => true

/-- The rules on a condition term, with their codes. -/
def termRules (b : Bank) (t : Nat) : List (Bool × Nat) :=
  let op := bits t 0 4
  let c := bits t 16 16
  if 9 < op then [(assigned (bits t 4 12), 0xE), (false, 0xF)] else
  [(termSignalOk op (bits t 4 12), 0xE)] ++
  (if op = 0 ∨ 5 < op then [(decide (c = 0), 0xF)]
   else if op = 5 then [(decide (c < 8192), 0xC), (decide (c ≠ 8191), 0xF), (windowOk b c, 0xF)]
   else [(decide (c < 8192), 0xC)])

/-- A reference to a step: none, or a step of the image. -/
def stepRefOk (b : Bank) (n : Nat) : Bool := decide (n = 0xFFFF) || (look b.steps n).isSome

/-- Whether an action list lies in the image's actions (R56). -/
def listOk (b : Bank) (start count : Nat) : Bool := decide (count = 0 ∨ start + count ≤ b.actionCount)
/-- The action indices of a list. -/
def listOf (start count : Nat) : List Nat := (List.range count).map (start + ·)

/-- The load check of a step entry (R19, R56 to R59, R64, R67); 0 when it is valid. -/
def checkStep (b : Bank) (n e : Nat) : Nat :=
  let w := wordOf e
  let kind := bits (w 0) 16 8
  let dur := w 1
  let used := decide (kind = 1 ∨ kind = 2)
  let armed := groupArmed e 0 || groupArmed e 1
  let start := bits (w 9) 0 16
  let count := bits (w 9) 16 8
  let ld := bits (w 9) 24 8
  let structure_ :=
    if used then
      [(decide (kind = 2 ∨ dur = 0 ∨ bits (w 3) 0 16 ≠ 0xFFFF), 0xB),
       (decide (kind = 1 ∧ dur ≠ 0) || armed, 0xB),
       (decide (kind = 1 ∨ w 2 = 0 ∨ dur < w 2), 0xB), (decide (kind = 1 ∨ dur ≠ 0xFFFFFFFF), 0xB),
       (!(groupArmed e 0) || decide (bits (w 4) 0 16 ≠ 0xFFFF), 0xB),
       (!(groupArmed e 1) || decide (bits (w 4) 16 16 ≠ 0xFFFF), 0xB)] ++
      ((List.range 4).map fun i => (decide (bits (w (5 + i)) 0 4 ≠ 0 ∨ w (5 + i) = 0xFFF0), 0xB)) ++
      (List.range 4).flatMap fun i => termRules b (w (5 + i))
    else
      [(decide (w 1 = 0 ∧ w 2 = 0 ∧ w 12 = 0 ∧ w 14 = 0 ∧ w 3 = 0xFFFFFFFF ∧ w 4 = 0xFFFFFFFF), 0xB),
       ((List.range 4).all fun i => decide (w (5 + i) = 0xFFF0), 0xB)]
  lowest ([(decide (bits (w 15) 0 16 = stepCrc e), 9), (decide (bits (w 0) 0 16 = n), 0xA),
    (decide (1 ≤ kind ∧ kind ≤ 4), 0xA)] ++ structure_ ++
    [((listOf start count).all fun i => decide (kind ≠ 1 ∨ dur = 0 ∨ bits (b.action i) 20 8 < dur), 0xB),
     (decide (w 13 = 0xFFFFFFFF ∨ w 13 ≤ 1023), 0xB),
     (stepRefOk b (bits (w 3) 0 16) && stepRefOk b (bits (w 3) 16 16) && stepRefOk b (bits (w 4) 0 16) &&
       stepRefOk b (bits (w 4) 16 16), 0xC),
     (decide (ld = 0xFF ∨ ld < b.landingCount), 0xC), (listOk b start count, 0xC),
     (decide (bits (w 10) 0 16 = 0xFFFF ∨ bits (w 10) 0 16 < 512), 0xC),
     (decide (bits (w 10) 16 16 = 0xFFFF ∨ bits (w 10) 16 16 < 1024), 0xC),
     (decide (bits (w 0) 28 4 = 0 ∧ w 14 = 0 ∧ bits (w 15) 16 16 = 0 ∧ bits (w 12) 12 4 = 0 ∧ bits (w 11) 15 17 = 0), 0xD)])

/-- The load check of an action (R56, R67). -/
def checkAction (b : Bank) (e : Nat) : Nat :=
  let v := wordOf e 1
  match opcode (bits e 0 8) with
  | none => lowest [(decide (bits e 29 3 = 0 ∧ (!tb e 28 ∨ v < 8192)), 0xD), (assigned (bits e 8 12), 0xE), (false, 0x10)]
  | some o =>
    lowest ([(decide (bits e 29 3 = 0), 0xD), (decide (o.1 ≤ bits e 8 12 ∧ bits e 8 12 ≤ o.2.1), 0xE)] ++
      (if tb e 28 then [(decide (v < 8192), 0xD)] else [(operandOk o.2.2 v b.entryCount, 0x10)]))

/-- The load check of a loop-mode set (R56, R72). -/
def checkSet (e : Nat) : Nat :=
  let ws := (List.range 32).map (wordOf e)
  let loops := (ws.filter fun w => tb w 31).map fun w => bits w 0 9
  lowest ((ws.flatMap fun w =>
      if tb w 31 then [(decide (bits w 14 17 = 0), 0xD),
        (decide (bits w 9 3 ≠ 5 ∧ bits w 9 3 ≠ 6 ∧ bits w 12 2 ≠ 1), 0x11)]
      else [(decide (bits w 14 17 = 0), 0xD), (decide (w = 0), 0x11)]) ++ [(decide loops.Nodup, 0x11)])

/-- The load check of a landing (R56, R73). -/
def checkLanding (b : Bank) (n e : Nat) : Nat :=
  let w := wordOf e
  let pat := bits (w 0) 16 16
  let set := bits (w 1) 0 16
  let start := bits (w 2) 0 16
  let count := bits (w 2) 16 8
  lowest [(decide (bits (w 7) 0 16 = landingCrc e), 9), (decide (bits (w 0) 0 8 = n), 0xA),
    (decide (pat = 0xFFFF ∨ pat < 1024), 0xC), (decide (set = 0xFFFF ∨ set < 512), 0xC), (listOk b start count, 0xC),
    (decide (bits (w 0) 8 8 = 0 ∧ bits (w 1) 16 16 = 0 ∧ bits (w 2) 24 8 = 0 ∧ bits (w 4) 8 24 = 0 ∧ w 5 = 0 ∧ w 6 = 0 ∧
      bits (w 7) 16 16 = 0), 0xD),
    ((listOf start count).all fun i => landingOps.contains (bits (b.action i) 0 8) && decide (bits (b.action i) 20 8 = 0), 0x12)]

/-- The load check of an entry point (R94). -/
def checkEntry (b : Bank) (e : Nat) : Nat :=
  let w := wordOf e
  let first := bits (w 0) 0 16
  let kind := bits (b.step first) 16 8
  if (look b.steps first).isSome ∧ kind ≠ 3 ∧ bits (w 0) 16 8 < b.landingCount ∧ bits (w 0) 24 8 = 0 ∧ w 1 = 0 ∧
    (textFault (leBytes 8 (bits e 64 64))).isNone then 0 else 0x14

/-- The first failing entry of a table. -/
def checkTable (t n : Nat) (f : Nat → Nat) : Option Fail :=
  (List.range n).findSome? fun i => if f i = 0 then none else some (f i, t, i)

/-- Check 4: the tables in section order (R99). -/
def checkTables (b : Bank) (setCount : Nat) : Option Fail :=
  firstFail [b.steps.findSome? (fun p => if checkStep b p.1 p.2 = 0 then none else some (checkStep b p.1 p.2, 1, p.1)),
    checkTable 2 b.actionCount (fun i => checkAction b (b.action i)),
    checkTable 5 setCount (fun i => checkSet (lookD b.sets i 0)),
    checkTable 6 b.landingCount (fun i => checkLanding b i (lookD b.landings i 0)),
    checkTable 7 b.entryCount (fun i => checkEntry b (lookD b.entries i 0))]

/-- Validation of an image of `len` received bytes (R99): its first failure, and the bank it makes. -/
def validateImage (w len declared fmt : Nat) : Option Fail × Bank :=
  match checkHeader w len declared fmt with
  | some f => (some f, {})
  | none =>
    if crc32c (bytesAt w 0 (len - 4)) ≠ fieldAt w (len - 4) 4 then (some (5, 0, len - 4), {}) else
    match firstFail [checkCounts w len fmt, if fmt = 3 then checkDirectory w len else none] with
    | some f => (some f, {})
    | none =>
      match firstFail [if fmt = 3 then checkSections w else none,
        match (stepsOf w fmt).2 with | some r => some (8, 1, r) | none => none] with
      | some f => (some f, {})
      | none =>
        let b := bankOf w
        match checkTables b ((counts w).getD 4 0) with
        | some f => (some f, b)
        | none => (none, { b with ok := true })

/-! ### Loading -/

/-- The shadow state (0x4020:07): 0 empty, 1 loading, 2 validating, 3 valid, 4 invalid. -/
def Mod.shadowState (m : Mod) : Nat := m.rov 0x4020 7

/-- The shadow bank emptied (R97, R98), with the load's offset and count (log entry 117). -/
def Mod.emptyShadow (m : Mod) : Mod :=
  let m := (m.setShadow {}).setRo 0x4020 7 0
  ({ m with load := 0, loadTop := 0 }.setCfg 0x4021 4 0).setRo 0x4021 6 0

/-- BEGIN (R98). -/
def Mod.beginLoad (m : Mod) : Mod := m.emptyShadow.setRo 0x4020 7 1

/-- A chunk written at the load offset, which then advances (R98); the received count is the highest offset that a chunk was
written at plus the length of that chunk. -/
def Mod.putChunk (m : Mod) (len data : Nat) : Mod :=
  let off := m.cfg 0x4021 4
  let lo := m.load % 256 ^ off
  let hi := m.load / 256 ^ (off + len)
  let m := { m with load := lo + 256 ^ off * (data % 256 ^ len) + 256 ^ (off + len) * hi }
  let m := m.setCfg 0x4021 4 (off + len)
  if off < m.loadTop then m else { m with loadTop := off }.setRo 0x4021 6 (off + len)

/-- FINISH (R98). -/
def Mod.finishLoad (m : Mod) : Mod := m.setRo 0x4020 7 2

/-- The end of a validation (R99): valid or invalid, with the first failure; the declared format and length count as they
then stand (log entry 117). -/
def Mod.endValidation (m : Mod) : Mod :=
  if m.shadowState ≠ 2 then m else
  let r := validateImage m.load (m.rov 0x4021 6) (m.cfg 0x4021 3) (m.cfg 0x4021 2)
  let f := r.1.getD (0, 0, 0)
  let m := (m.setShadow r.2).setRo 0x4020 7 (if r.1.isNone then 3 else 4)
  ((m.setRo 0x4020 8 f.1).setRo 0x4020 9 f.2.1).setRo 0x4020 0xA f.2.2

/-! ### Swap -/

/-- Whether any track is RUNNING or PAUSED. -/
def Mod.anyTrack (m : Mod) : Bool := m.tracks.any fun p => decide (p.2.state = 1 ∨ p.2.state = 2)

/-- A swap at its boundary (R100 to R102). -/
def Mod.swapBanks (m : Mod) : Mod :=
  let old := m.bank.id
  let new := m.shadow.id
  let had := decide (m.rov 0x4020 1 ≤ 1)
  let now := b2n m.shadowIsB
  let m := { m with selector := now }
  let m := ((m.setRo 0x4020 1 now).setRo 0x4020 7 (if had then 3 else 0)).setRo 0x4020 4 0
  let m := ((m.bump 0x4020 0xC).setRo 0x4020 0xD m.tread).logS4 9 0 new old 0
  m.logGal 0x022 0 [new, old]

/-- A bank made the active one where a restart selects it (R102): the shadow state follows where the shadow is another bank
than before. -/
def Mod.activateBank (m : Mod) (was k : Nat) : Mod :=
  let m := m.setRo 0x4020 1 k
  if was = k then m else m.setRo 0x4020 7 (if m.shadow.ok then 3 else 0)

/-! ### Patches -/

/-- Kind and address of a selector. -/
def selKind (sel : Nat) : Nat := bits sel 28 4
/-- Address of a selector. -/
def selAddr (sel : Nat) : Nat := bits sel 0 28

/-- Whether a selector's address exists (R103): in its table, and for a step not empty. -/
def Bank.selOk (b : Bank) (sel : Nat) : Bool :=
  match selKind sel with
  | 1 | 2 | 3 => (look b.steps (selAddr sel)).isSome
  | 4 => decide (selAddr sel < 24576)
  | 5 => decide (selAddr sel < 8192)
  | _ => true

/-- The value that a selector names. -/
def Bank.getSel (b : Bank) (sel : Nat) : Nat :=
  match selKind sel with
  | 1 => wordOf (b.step (selAddr sel)) 1
  | 2 => wordOf (b.step (selAddr sel)) 2
  | 3 => bits (wordOf (b.step (selAddr sel)) 12) 16 16
  | 4 => wordOf (b.action (selAddr sel)) 1
  | 5 => b.const (selAddr sel)
  | _ => 0

/-- A number with `n` bits from `lo` replaced. -/
def putBits (w lo n v : Nat) : Nat := w % 2 ^ lo + 2 ^ lo * (v % 2 ^ n) + 2 ^ (lo + n) * (w / 2 ^ (lo + n))

/-- The bank with a selector's value written, a step's CRC made right (R105). -/
def Bank.setSel (b : Bank) (sel v : Nat) : Bank :=
  let k := selAddr sel
  match selKind sel with
  | 1 => { b with steps := putD 0 b.steps k (resealStep (putBits (b.step k) 32 32 v)) }
  | 2 => { b with steps := putD 0 b.steps k (resealStep (putBits (b.step k) 64 32 v)) }
  | 3 => { b with steps := putD 0 b.steps k (resealStep (putBits (b.step k) 400 16 v)) }
  | 4 => { b with actions := putD 0 b.actions k (putBits (b.action k) 32 32 v) }
  | 5 => { b with consts := putD 0 b.consts k (v % 2 ^ 32) }
  | _ => b

/-- Steps in use for a patch that commits at boundary `due` (R103): current steps of running and paused tracks, steps that
tracks enter at that boundary, and steps they wait to enter. At the boundary itself a step has been entered already. -/
def Mod.stepsInUse (m : Mod) (due : Tread) : List Nat :=
  m.tracks.flatMap fun p =>
    let s := p.2
    let of := fun (t : Option Trans) => match t with | some (.enter n _ _) => [n] | _ => []
    (if s.state = 1 ∨ s.state = 2 ∨ (due = m.tread ∧ s.entryTread = due) then [s.step] else []) ++
      (if due = m.nextTread then of s.next else []) ++ of s.wait

/-- Actions in use (R103): in the list of a step in use or of any landing. -/
def Mod.actionInUse (m : Mod) (due : Tread) (a : Nat) : Bool :=
  let b := m.bank
  let inList := fun w => decide (bits w 0 16 ≤ a ∧ a < bits w 0 16 + bits w 16 8)
  ((m.stepsInUse due).any fun n => inList (wordOf (b.step n) 9)) || b.landings.any fun p => inList (wordOf p.2 2)

/-- Constants in use (R103): in a term of a step in use, or the pool value of an action in use. -/
def Mod.constInUse (m : Mod) (due : Tread) (c : Nat) : Bool :=
  let b := m.bank
  ((m.stepsInUse due).any fun n => (List.range 4).any fun i =>
    let t := wordOf (b.step n) (5 + i)
    let op := bits t 0 4
    decide (1 ≤ op ∧ op ≤ 5) && (decide (bits t 16 16 = c) || decide (op = 5 ∧ bits t 16 16 + 1 = c))) ||
  b.actions.any fun p => tb p.2 28 && decide (bits p.2 32 13 = c) && m.actionInUse due p.1

/-- Whether the item of a selector is in use. -/
def Mod.selInUse (m : Mod) (due : Tread) (sel : Nat) : Bool :=
  match selKind sel with
  | 1 | 2 | 3 => (m.stepsInUse due).contains (selAddr sel)
  | 4 => m.actionInUse due (selAddr sel)
  | 5 => m.constInUse due (selAddr sel)
  | _ => false

/-- Whether a step stays valid after a patch (R104): the structure and delay rules of R58 and R67, and an armed group
where the patch gives it a duration of 0. -/
def patchedStepOk (b : Bank) (n : Nat) (slots : List (Nat × Nat)) : Bool :=
  let e := b.step n
  decide (checkStep b n e ≠ 0xB) &&
  (decide (wordOf e 1 ≠ 0) || groupArmed e 0 || groupArmed e 1 ||
    !(slots.any fun x => decide (selKind x.1 = 1 ∧ selAddr x.1 = n)))

/-- Windows that refer to a constant, by the index of their lower bound. -/
def windowsOn (b : Bank) (c : Nat) : List Nat :=
  b.steps.flatMap fun p => (List.range 4).filterMap fun i =>
    let t := wordOf p.2 (5 + i)
    let k := bits t 16 16
    if bits t 0 4 = 5 ∧ (k = c ∨ k + 1 = c) then some k else none

/-- The rules of R104 on slot `i` of a patch, `slots` in list order, with the bank as it stands after all of them. -/
def patchRules (before after : Bank) (slots : List (Nat × Nat)) (i : Nat) : Bool :=
  let s := slots.getD i (0, 0)
  let k := selAddr s.1
  let later := slots.drop (i + 1)
  match selKind s.1 with
  | 1 | 2 | 3 =>
    decide (selKind s.1 ≠ 3 ∨ s.2 < 65536) &&
    ((later.any fun x => decide (1 ≤ selKind x.1 ∧ selKind x.1 ≤ 3 ∧ selAddr x.1 = k)) || patchedStepOk after k slots)
  | 4 =>
    let e := before.action k
    !tb e 28 && (match opcode (bits e 0 8) with
      | some o => operandOk o.2.2 s.2 before.entryCount
      | none => false)
  | 5 =>
    !f32IsNaN s.2 &&
    (windowsOn after k).all fun c =>
      (later.any fun x => decide (selKind x.1 = 5 ∧ (selAddr x.1 = c ∨ selAddr x.1 = c + 1))) || windowOk after c
  | _ => false

/-- A patch committed (R105, R106). -/
def Mod.applyPatch (m : Mod) (slots : List (Nat × Nat)) : Mod :=
  let b := m.bank
  let olds := (slots.map (·.1)).eraseDups.map fun sel => 
    ({ tread := m.tread, bank := m.rov 0x4020 1, sel := sel, val := b.getSel sel } : Undo)
  let m := m.setBank (slots.foldl (fun b s => b.setSel s.1 s.2) b)
  let m := { m with undo := m.undo ++ olds }
  (m.bump 0x4020 4).logS4 10 0 (m.rov 0x4020 4 + 1) slots.length 0

/-- Patched items that still await coverage (R106), an item once per patch (log entry 92). -/
def Mod.awaiting (m : Mod) : Nat := (m.undo.filter fun u => decide (m.rov 0x1200 0xD < u.tread)).length

/-- Patches taken back that committed after a restored tread, newest first (R106). -/
def Mod.revert (m : Mod) (r : Tread) : Mod :=
  let gone := m.undo.filter fun u => decide (r < u.tread)
  let back := fun (k : Nat) (b : Bank) => (gone.filter fun u => decide (u.bank = k)).reverse.foldl (fun b u => b.setSel u.sel u.val) b
  { m with bankA := back 0 m.bankA, bankB := back 1 m.bankB, undo := m.undo.filter fun u => decide (u.tread ≤ r) }

end Sys2Proof.Machine
end

