-- ==== Sys2Proof/Machine/Inputs.lean ====
section
/-! DEFINITION. Analog inputs and converters (07): the slots of a tread, injected sequences, averaging and presented
values, checks, calibration, the open-wire scan. -/

namespace Sys2Proof.Machine

/-- Regular length of a converter in force. -/
def Mod.regLen (m : Mod) (c : Nat) : Nat := m.inForce (0x3140 + c) 1
/-- Multiplexer input of regular slot `s`. -/
def Mod.regSlot (m : Mod) (c s : Nat) : Nat := m.inForce (0x3140 + c) (2 + s)
/-- Injected length. -/
def Mod.injLen (m : Mod) (c : Nat) : Nat := m.inForce (0x3140 + c) 0x12
/-- Multiplexer input of injected slot `s`. -/
def Mod.injSlot (m : Mod) (c s : Nat) : Nat := m.inForce (0x3140 + c) (0x13 + s)
/-- How many regular slots name an input (m of R169). -/
def Mod.slotsOf (m : Mod) (x : Nat) : Nat :=
  ((List.range (m.regLen (x / 4))).filter fun s => decide (m.regSlot (x / 4) s = x % 4)).length
/-- Whether the tile of a converter is awake and not in per-block reset (R290). -/
def Mod.tileAwake (m : Mod) (c : Nat) : Bool := tb m.tiles.awake (c / 8) && !m.blockIn (c / 8)
/-- Whether a converter is calibrating, by itself or in a skew calibration (R175, R181). -/
def Mod.convCal (m : Mod) (c : Nat) : Bool := (m.conv c).calSince.isSome || decide (m.rov 0x3190 2 = 1)
/-- Whether a run that stands since a boundary, or one that has ended with its first and last tread, meets tread `t`. -/
def runIn (since : Option Tread) (past : Option (Tread × Tread)) (t : Tread) : Bool :=
  (match since with | some b => decide (b ≤ t) | none => false) ||
  (match past with | some p => decide (p.1 ≤ t ∧ t ≤ p.2) | none => false)
/-- Whether a converter calibrates in tread `t` or in part of it: it runs no regular slots there (R163, R181). -/
def Mod.calIn (m : Mod) (c : Nat) (t : Tread) : Bool :=
  runIn (m.conv c).calSince (m.conv c).calPast t || runIn m.skewSince m.skewPast t
/-- Whether the tile's DAC is in manual mode (R176). -/
def Mod.dacManual (m : Mod) (tile : Nat) : Bool := decide (m.cfg (0x3180 + tile) 2 = 1)

/-! ### Presented values -/

/-- The physical value of a mean code in a range (R161), in binary64. -/
def rangeValue (range : Nat) (q : Dy) : Dy :=
  let up := (q.add (Dy.ofInt 131072)).r64
  match range with
  | 0 => ((Dy.ofInt 10).mul q).r64.mul ⟨1, -17⟩
  | 1 => ((Dy.ofInt 5).mul q).r64.mul ⟨1, -17⟩
  | 2 => ((Dy.ofInt 10).mul up).r64.mul ⟨1, -18⟩
  | 3 => (((⟨5, -2⟩ : Dy)).mul q).r64.mul ⟨1, -17⟩
  | 4 => (Dy.div64 Dy.one (Dy.ofInt 10) |>.mul q).r64.mul ⟨1, -17⟩
  | _ => ((Dy.ofInt 25).mul up).r64.mul ⟨1, -18⟩

/-- Stored calibration of an input in a range: offset and gain as F32, 0 and 1 where none is stored (log entry 4). -/
def Mod.calOf (m : Mod) (x range : Nat) : Nat × Nat := lookD m.cal (x * 8 + range) (0, 0x3F800000)

/-- The value of R171 from a mean code, and whether the linearisation has a temperature for it. -/
def Mod.inputValue (m : Mod) (x : Nat) (mean : Dy) : Nat × Bool :=
  let range := m.inForce (0x3000 + x) 1
  let cal := m.calOf x range
  let phys := ((f32D cal.1).add ((f32D cal.2).mul (rangeValue range mean)).r64).r64
  let lin := m.inForce (0x3000 + x) 9
  let cj := m.rov 0x3190 (if x < 128 then 5 else 6)
  let lv : Dy × Bool :=
    if lin = 0 then (phys, true)
    else
      let emf := (phys.add ((f64 (Config.thermoEmf lin cj).toNat).getD Dy.zero)).r64
      let t := Config.thermoTemp lin (toF64 emf)
      ((f64 t.1.toNat).getD Dy.zero, t.2)
  (toF32 (((f32D (m.cfg (0x3000 + x) 0x0A)).mul lv.1).r64.add (f32D (m.cfg (0x3000 + x) 0x0B))).r64, lv.2)

/-- The invalid bit of an input's status formed again from its causes (R172). -/
def Mod.judge (m : Mod) (x : Nat) : Mod :=
  let st := m.rov (0x3000 + x) 8
  let s := m.inp x
  m.setRoBit (0x3000 + x) 8 0
    (s.bad || s.linBad || tb st 1 || tb st 2 || tb st 5 || tb st 7 || (tb st 6 && decide (m.cfg 0x3190 8 = 1)))

/-- A bit of an input's status set, the invalid bit with it. -/
def Mod.flagInput (m : Mod) (x bit : Nat) (b : Bool) : Mod := (m.setRoBit (0x3000 + x) 8 bit b).judge x

/-- Whether a value lies below or above the invalid band of its input, where the band is on (R172). -/
def Mod.bandOf (m : Mod) (x v : Nat) : Bool × Bool :=
  let lo := m.cfg (0x3000 + x) 0x0C
  let hi := m.cfg (0x3000 + x) 0x0D
  let on := cmpF Dy.lt lo hi
  (on && cmpF Dy.lt v lo, on && cmpF Dy.lt hi v)

/-- The band bits of an input's status formed from a value, the invalid bit with them (R172). -/
def Mod.judgeValue (m : Mod) (x v : Nat) : Mod :=
  ((m.setRoBit (0x3000 + x) 8 1 (m.bandOf x v).1).setRoBit (0x3000 + x) 8 2 (m.bandOf x v).2).judge x

/-- The value of a completed window (R171). -/
def Mod.windowValue (m : Mod) (x : Nat) (p : Pres) : Nat × Bool :=
  m.inputValue x (Dy.div64 ⟨p.r, (p.shift : Int)⟩ (Dy.ofInt p.count))

/-- The completed window of an input presented at the latch (R12, R171, R172); a calibrating input keeps its last values
(R181). -/
def Mod.present (m : Mod) (x : Nat) : Mod :=
  match (m.inp x).pend with
  | none => m
  | some p =>
    if tb (m.rov (0x3000 + x) 8) 5 then m.setInp x { m.inp x with pend := none } else
    let v := m.windowValue x p
    let m := m.setInp x { m.inp x with pend := none, bad := p.bad, linBad := !v.2 }
    let m := ((m.setRo (0x3000 + x) 5 v.1).setRo (0x3000 + x) 6 (ofSigned 32 p.r)).setRo (0x3000 + x) 7 p.tread
    ((m.setRoBit (0x3000 + x) 8 3 p.incomplete).setRoBit (0x3000 + x) 8 4 false).judgeValue x v.1

/-- Every completed window presented: the latch at 1.2 us (R12). -/
def Mod.latch (m : Mod) : Mod :=
  overAll m.inputs (fun m p => if p.2.pend.isSome then m.present p.1 else m) m

/-! ### Averaging -/

/-- The last tread of the window that holds tread `t` (R169). -/
def windowEnd (w psi t : Nat) : Nat := t + (psi % w + w - t % w) % w

/-- The recorded word of a completed window (R262): the invalid bit from this window's own causes (R172). -/
def Mod.windowWord (m : Mod) (x : Nat) (p : Pres) : Nat :=
  let st := m.rov (0x3000 + x) 8
  let v := m.windowValue x p
  let band := m.bandOf x v.1
  ofSigned 26 p.r + 2 ^ 26 * b2n (p.bad || !v.2 || band.1 || band.2 || tb st 5 || tb st 7 ||
      (tb st 6 && decide (m.cfg 0x3190 8 = 1))) +
    2 ^ 27 * b2n p.incomplete + 2 ^ 28 * b2n (tb st 5) + 2 ^ 29 * b2n (tb st 7) + 2 ^ 30 * b2n (tb st 8) +
    2 ^ 31 * b2n (tb st 6)

/-- The window length of an input in treads (R169). -/
def Mod.windowLen (m : Mod) (x : Nat) : Nat := Max.max 1 (m.inForce (0x3000 + x) 2 / Max.max 1 (m.slotsOf x))

/-- A completed window waits for the latch, unless a later one does. -/
def InpSt.await (s : InpSt) (p : Pres) : InpSt :=
  match s.pend with
  | some q => if p.tread < q.tread then s else { s with pend := some p }
  | none => { s with pend := some p }

/-- A window of an input closed (R169, R170): the result formed, recorded and kept for the latch, unless the window began
before the input's windows restarted. -/
def Mod.closeWindow (m : Mod) (x : Nat) (w : Win) : Mod :=
  let s := m.inp x
  let c := m.inForce (0x3000 + x) 2
  let sh := m.inForce (0x3000 + x) 3
  let lack := c - (w.got + w.missed)
  let sum := w.sum + (lack : Int) * s.last
  let missed := w.missed + lack
  let s := { s with wins := s.wins.filter fun v => !decide (v.ends = w.ends) }
  if w.ends + 1 < s.since + m.windowLen x then m.setInp x s else
  let r := if sh = 0 then sum else (sum + (2 ^ (sh - 1) : Nat)) / (2 ^ sh : Nat)
  let p : Pres := { r := r, tread := w.ends, count := c, shift := sh, incomplete := decide (0 < missed), bad := decide (c < 2 * missed) }
  let m := m.setInp x (s.await p)
  if m.selected 0 x then m.recAt 0 w.ends 1 x [m.windowWord x p] else m

/-- The open window of an input that ends with tread `e`. -/
def Mod.winAt (m : Mod) (x : Nat) (e : Tread) : Win := ((m.inp x).wins.find? fun w => decide (w.ends = e)).getD { ends := e }

/-- A code added to the window of tread `t`, landed or standing in for a missed sample; a full window closes (R169). -/
def Mod.addCode (m : Mod) (x : Nat) (t : Tread) (code : Int) (landed : Bool) : Mod :=
  let w := m.winAt x (windowEnd (m.windowLen x) (m.inForce (0x3000 + x) 4) t)
  let w := { w with sum := w.sum + code, got := w.got + b2n landed, missed := w.missed + b2n !landed }
  let others := (m.inp x).wins.filter fun v => !decide (v.ends = w.ends)
  let m := m.setInp x { m.inp x with wins := insertBy (fun (a b : Win) => decide (a.ends < b.ends)) w others }
  if m.inForce (0x3000 + x) 2 ≤ w.got + w.missed then m.closeWindow x w else m

/-- Whether an input is biased by its tile's open-wire scan in tread `t` (R176). -/
def Mod.biased (m : Mod) (x : Nat) (t : Tread) : Bool :=
  match look m.scans (x / 32) with
  | some (y, f) => decide (y = x ∧ f = t / 100 ∧ 90 ≤ t % 100 ∧ t % 100 ≤ 92) && !m.dacManual (x / 32)
  | none => false

/-- The code that a sample gives: a biased one is replaced by the latest, and shown by bit 8 (R176). -/
def Mod.sampleCode (m : Mod) (x : Nat) (t : Tread) (code : Int) : Int := if m.biased x t then (m.inp x).last else code

/-- A sample of an input taken at a cycle of tread `t`: the latest by its instant is kept (R170), the test bias shown. -/
def Mod.noteSample (m : Mod) (x : Nat) (t : Tread) (cycles : Nat) (code : Int) : Mod :=
  let s := m.inp x
  let m := m.setRoBit (0x3000 + x) 8 8 (m.biased x t)
  if m.biased x t ∨ t * 640 + cycles < s.lastAt then m
  else m.setInp x { s with last := code, lastAt := t * 640 + cycles }

/-- A regular sample of tread `t` (R169). -/
def Mod.sample (m : Mod) (x : Nat) (t : Tread) (cycles : Nat) (code : Int) : Mod :=
  (m.noteSample x t cycles code).addCode x t (m.sampleCode x t code) true

/-- A regular sample that a window misses (R170). -/
def Mod.missSample (m : Mod) (x : Nat) (t : Tread) : Mod := m.addCode x t (m.inp x).last false

/-- An input's windows restarted: those that begin before tread `since` are discarded (R170). -/
def Mod.restartWindow (m : Mod) (x : Nat) (since : Tread) : Mod :=
  m.setInp x { m.inp x with wins := [], since := since, pend := none }

/-- The oldest window of an input whose last tread has passed. -/
def Mod.dueWin (m : Mod) (x : Nat) : Option Win := (m.inp x).wins.find? fun w => decide (w.ends < m.tread)

/-- AVERAGE_WINDOW_COMPLETE's effect: a window whose last tread has passed closes with what it has (R170). -/
def Mod.closeDue (m : Mod) (x : Nat) : Mod :=
  match m.dueWin x with
  | some w => m.closeWindow x w
  | none => m

/-! ### Slots of a tread -/

/-- Regular slots of a tread started before an offset in ns (R163): each at its nominal time or the end of what ran
before it, none after 9.0 us (cycle 576). A request at the very instant of a start comes first (log entry 97). -/
def ConvSt.runTo (len off : Nat) : Nat → ConvSt → ConvSt
  | 0, s => s
  | n + 1, s =>
    let start := Max.max (32 * s.next) s.free
    if s.next < len ∧ start ≤ 576 ∧ 125 * start < 8 * off then
      ConvSt.runTo len off n { s with next := s.next + 1, free := start + 32 }
    else s

/-- An injected sequence started at a cycle. -/
def ConvSt.inject (s : ConvSt) (start len : Nat) : ConvSt :=
  { s with inj := 2, injEnd := start + 32 * len, free := start + 32 * len }

/-- A converter brought up to an offset of its tread: a firing deferred from the last tread starts at 0.5 us, then the
regular slots run, and an injected sequence that has run is over (R166, R167). -/
def Mod.convTo (m : Mod) (c off : Nat) : ConvSt :=
  let s := m.conv c
  let s := if s.inj = 4 ∧ 500 ≤ off then s.inject 32 (m.injLen c) else s
  let s := s.runTo (m.regLen c) off 16
  if s.inj = 2 ∧ 125 * s.injEnd ≤ 8 * off then { s with inj := 0 } else s

/-- The first SMP edge at least 3 cycles after an offset in ns (R165). -/
def firstEdge (off : Nat) : Nat := (off * 8 + 375 + 124) / 125
/-- The SMP cycle in which an offset in ns lies. -/
def cycleOf (off : Nat) : Nat := off * 8 / 125

/-- Whether a background check is running at an offset of this tread (R177): not yet made in this flight, in the window
of its offset, the DAC in background mode, within 32 cycles of the end of the last regular slot. -/
def Mod.checkRuns (m : Mod) (c off : Nat) : Bool :=
  let s := m.convTo c off
  let o := m.tread % 100
  let due := decide (10 * (c % 8) ≤ o ∧ o ≤ 10 * (c % 8) + 9) && decide (s.checked ≠ some (m.tread / 100)) &&
    decide (s.abandoned ≠ some m.tread) && !m.dacManual (c / 8)
  let done := ConvSt.runTo (m.regLen c) 10000 16 s
  due && decide (s.inj = 0) && decide (done.next = m.regLen c ∨ m.regLen c ≤ 1) && decide (done.free ≤ 576) &&
    decide (125 * done.free ≤ 8 * off ∧ 8 * off < 125 * (done.free + 32))

/-- A request to a converter's injected sequence at an offset (R164 to R167, R177, R181): requests in one SMP cycle are
one firing. -/
def Mod.fireAt (m : Mod) (c off : Nat) : Mod :=
  let len := m.injLen c
  if len = 0 ∨ !m.tileAwake c ∨ (m.conv c).reqAt = some (cycleOf off) then m else
  let m := m.setConv c { m.conv c with reqAt := some (cycleOf off) }
  if m.convCal c then m.bump (0x3100 + c) 5
  else
    let m := if m.checkRuns c off then
        (m.bump (0x3100 + c) 0x0C).setConv c { m.conv c with abandoned := some m.tread } else m
    let s := m.convTo c off
    let m := m.setConv c s
    let drop := m.bump (0x3100 + c) 5
    if s.inj ≠ 0 then drop
    else
      let busy := decide (8 * off < 125 * s.free)
      let start := if busy then s.free else firstEdge off
      let late := decide (608 < start + 32 * len)
      if m.inForce (0x3100 + c) 1 = 1 then
        (if busy || late then drop else m.setConv c (s.inject start len))
      else if late then (m.setConv c { s with inj := 3 }).bump (0x3100 + c) 6
      else m.setConv c (s.inject start len)

/-- A request that comes later: INJECT at 0.5 us, a trigger decided in the tread after its conversion (R164, R278). -/
def Mod.askFire (m : Mod) (c off : Nat) : Mod :=
  m.setConv c { m.conv c with asked := insertBy (fun a b => decide (a < b)) off (m.conv c).asked }

/-- The requests that have come up to an offset of the tread. -/
def Mod.settleAsked (m : Mod) (c off : Nat) : Mod :=
  let l := (m.conv c).asked
  overAll (l.filter fun t => decide (t ≤ off)) (fun m t => m.fireAt c t)
    (if l.isEmpty then m else m.setConv c { m.conv c with asked := l.filter fun t => decide (off < t) })

/-- A converter's injected sequence fired at an offset of the tread, or of the next where it lies beyond 10 us. -/
def Mod.fire (m : Mod) (c off : Nat) : Mod := if off < 10000 then (m.settleAsked c off).fireAt c off else m.askFire c off

/-- A converter at the start of the next tread. -/
def ConvSt.nextTread (s : ConvSt) (inj : Nat) (asked : List Nat) : ConvSt :=
  { s with next := 1, free := 32, injEnd := 0, inj := inj, asked := asked, reqAt := none }

/-- Regular slots of a converter that their inputs miss in this tread (R170). -/
def Mod.missSlots (m : Mod) (c : Nat) (slots : List Nat) : Mod :=
  overAll slots (fun m k => if m.regSlot c k < 4 then m.missSample (4 * c + m.regSlot c k) m.tread else m) m

/-- The end of a tread on a converter: what it was still asked has come, regular slots that could not start are dropped
and counted (R163), a firing that came too late waits for the next tread (R166). -/
def Mod.slotsOver (m : Mod) (c : Nat) : Mod :=
  if !m.tileAwake c then m.setConv c ((m.conv c).nextTread 0 []) else
  let m := m.settleAsked c 9999
  let later := (m.conv c).asked.map (· - 10000)
  let s := m.convTo c 10000
  if m.calIn c m.tread then
    (m.missSlots c (List.range (m.regLen c))).setConv c (s.nextTread (if s.inj = 3 ∧ !m.convCal c then 4 else 0) later) else
  let lost := (List.range (m.regLen c)).filter fun k => decide (s.next ≤ k)
  ((m.bumpBy (0x3100 + c) 4 lost.length).missSlots c lost).setConv c (s.nextTread (if s.inj = 3 then 4 else 0) later)

/-- The end of a tread on every converter that runs more than slot 0, and the windows of earlier treads that no result
can reach any more (R163). -/
def Mod.slotsEnd (m : Mod) : Mod :=
  let m := overAll ((List.range 64).filter fun c => decide (1 < m.regLen c) || (look m.convs c).isSome || m.calIn c m.tread)
    (fun m c => m.slotsOver c) m
  overAll m.inputs (fun m p => if p.2.wins.isEmpty then m else m.closeDue p.1) m

/-- A conversion of an input kept for the capture slots that name it and for the open windows, in sampling order (R268,
R280). -/
def Mod.capture (m : Mod) (x : Nat) (t : Tread) (code : Int) (cycles : Nat) : Mod :=
  if !tb m.tiles.awake 14 ∨ m.blockIn 14 then m else
  overAll ((List.range 16).filter fun j => decide (m.cfg 0x3850 (j + 1) = 0x800 + x)) (fun m j =>
    let word := ofSigned 18 code + 2 ^ 18 * (cycles % 1024) + 2 ^ 28 * j
    let key := 16 * cycles + j
    let m := { m.noteRaw j code with record := { (m.noteRaw j code).record with buffer := addEntry m.record.buffer t 8 key [word] } }
    overAll m.record.windows (fun m w => if w.first ≤ t ∧ t ≤ w.last then m.recAt w.slot t 8 key [word] else m) m) m

/-- Slot 0 of every awake converter that is not calibrating (R163), with the codes observed. -/
def Mod.slotZero (m : Mod) (codes : List (Nat × Int)) : Mod :=
  overAll codes (fun m p =>
    let x := 4 * p.1 + m.regSlot p.1 0
    if p.1 < 64 ∧ m.tileAwake p.1 ∧ !m.calIn p.1 m.tread ∧ m.regSlot p.1 0 < 4 then
      (m.sample x m.tread 0 p.2).capture x m.tread p.2 0 else m) m

/-- An injected result landed (R168): kept, recorded whatever the selection, presented where the input has no regular
slot. -/
def Mod.injected (m : Mod) (x : Nat) (t : Tread) (code : Int) (cycles : Nat) : Mod :=
  let q := m.sampleCode x t code
  let v := m.inputValue x (Dy.ofInt q)
  let m := (m.setRo (0x3000 + x) 0x0F v.1).setRo (0x3000 + x) 0x10 t
  let m := m.recAt 0 t 2 cycles [x + 2 ^ 8 * (cycles % 1024), ofSigned 32 q]
  if m.slotsOf x ≠ 0 then m else
  let m := m.noteSample x t cycles code
  m.setInp x ((m.inp x).await { r := q, tread := t, count := 1, shift := 0, incomplete := false, bad := false })

/-- Whether a converter's calibration kept injected sequences from running when it sampled in tread `t`: one that has ended in
`t` has let them run again. -/
def Mod.injCal (m : Mod) (c : Nat) (t : Tread) : Bool :=
  runIn (m.conv c).calSince none t || runIn m.skewSince none t

/-- A result of tread `t` that lands (R163, R168), under the sequence and the calibration that ruled in that tread. -/
def Mod.landed (m : Mod) (c slot : Nat) (inj : Bool) (code : Int) (cycles : Nat) (t : Tread) : Mod :=
  if inj then
    (if slot < m.injLen c ∧ m.injSlot c slot < 4 then
      (m.injected (4 * c + m.injSlot c slot) t code cycles).capture (4 * c + m.injSlot c slot) t code cycles else m)
  else if slot < m.regLen c ∧ m.regSlot c slot < 4 ∧ 0 < slot then
    (m.sample (4 * c + m.regSlot c slot) t cycles code).capture (4 * c + m.regSlot c slot) t code cycles
  else m

/-- A result lands in the input image (R12, R163, R168): one sampled at a later cycle than the landing's belongs to the tread
before, and lands under the configuration that was in force in it. -/
def Mod.resultLands (m : Mod) (c slot : Nat) (inj : Bool) (code : Int) (cycles : Nat) (off : Offset) : Mod :=
  let t := if off < cycles * 125 / 8 then m.tread - 1 else m.tread
  if 64 ≤ c ∨ (if inj then m.injCal c t else m.calIn c t) ∨ !m.tileAwake c then m
  else if t < m.effAt then { ({ m with eff := m.effWas }.landed c slot inj code cycles t) with eff := m.eff }
  else m.landed c slot inj code cycles t

/-- The channel map of a stream changes at the first flight boundary from tread `t` (R269). -/
def Mod.mapChanged (m : Mod) (s : Nat) (t : Tread) : Mod :=
  m.setStream s { m.stream s with mapDue := some (match (m.stream s).mapDue with | some d => Min.min d t | none => t) }

/-- Whether a capture slot names an input. -/
def Mod.slotNamed (m : Mod) (x : Nat) : Bool := (List.range 16).any fun s => decide (m.cfg 0x3850 (s + 1) = 0x800 + x)

/-- The channel maps of S0 and S5 that change with some recorded inputs (R269). -/
def Mod.inputMaps (m : Mod) (l : List Nat) (t : Tread) : Mod :=
  let m := if l.any (m.selected 0) then m.mapChanged 0 t else m
  if l.any m.slotNamed then m.mapChanged 5 t else m

/-! ### Checks and calibration -/

/-- The level of a tile's test DAC in a flight (R176): +8, 0, -8 V, or the manual value. -/
def Mod.dacLevel (m : Mod) (tile : Nat) : Dy :=
  if m.dacManual tile then f32D (m.cfg (0x3180 + tile) 1)
  else match m.tread / 100 % 3 with
    | 0 => Dy.ofInt 8
    | 1 => Dy.zero
    | _ => Dy.ofInt (-8)

/-- A background check (R177 to R179): judged against the DAC's level; three failures in a row set the fault flags. -/
def Mod.check (m : Mod) (c : Nat) (code : Option Int) : Mod :=
  let s := m.conv c
  let off := m.tread % 100
  let due := decide (c < 64) && decide (10 * (c % 8) ≤ off ∧ off ≤ 10 * (c % 8) + 9) &&
    decide (s.checked ≠ some (m.tread / 100)) && decide (s.abandoned ≠ some m.tread) && !m.dacManual (c / 8) &&
    m.tileAwake c && !m.convCal c
  if !due then m else
  match code with
  | none => m
  | some q =>
    let dev := ((Dy.ofInt (10 * q)).mul ⟨1, -17⟩).sub (m.dacLevel (c / 8))
    let pass := dev.abs.le (f32D (m.cfg 0x3190 7))
    let fails := if pass then 0 else s.fails + 1
    let m := m.setConv c { s with checked := some (m.tread / 100), fails := fails }
    let m := m.setRo (0x3100 + c) 8 (toF32 dev)
    let setAll := fun (m : Mod) b => overAll [0, 1, 2, 3] (fun m i => m.flagInput (4 * c + i) 6 b) m
    if pass then setAll (m.setRoBit (0x3100 + c) 7 0 false) false
    else if fails = 3 then
      (setAll (m.setRoBit (0x3100 + c) 7 0 true) true).logGal 0x030 c [c, toF32 dev]
    else m

/-- A calibration begins at its commit boundary (R180, R181); a firing that was deferred to the tread is dropped and counted. -/
def Mod.beginCal (m : Mod) (c : Nat) : Mod :=
  let m := if (m.conv c).inj = 4 then m.bump (0x3100 + c) 5 else m
  let m := m.setConv c { m.conv c with calSince := some m.tread, inj := 0 }
  let m := (m.setRo (0x3100 + c) 0x0A 1).setRoBit (0x3100 + c) 7 1 true
  overAll [0, 1, 2, 3] (fun m i => m.flagInput (4 * c + i) 5 true) m

/-- The present tread is the last one without slots for a converter whose calibration ends in it (R181): its regular slots are
missed, injected ones run again. -/
def Mod.resumeConv (m : Mod) (c : Nat) : Mod := m.setConv c { m.conv c with next := Max.max 1 (m.regLen c), inj := 0 }

/-- A calibration ends (R181): passed coefficients wait for the flight boundary. Its inputs calibrate on while a skew
calibration runs (R175). -/
def Mod.endCal (m : Mod) (c : Nat) (pass : Bool) (coeffs : List (Nat × Nat × Nat)) : Mod :=
  match (m.conv c).calSince with
  | none => m
  | some since =>
  let m := (m.setConv c { m.conv c with calSince := none, calPast := some (since, m.tread) }).resumeConv c
  let m := ((m.setRo (0x3100 + c) 0x0A (if pass then 2 else 3)).setRo (0x3100 + c) 0x0B m.tread).setRoBit (0x3100 + c) 7 1 false
  let m := overAll [0, 1, 2, 3] (fun m i => m.flagInput (4 * c + i) 5 (decide (m.rov 0x3190 2 = 1))) m
  if pass then
    overAll coeffs (fun m p => overAll [0, 1, 2, 3] (fun m i =>
      { m with calDue := put m.calDue ((4 * c + i) * 8 + p.1 % 8) p.2 }) m) m
  else m

/-- A skew calibration begins (R175): every input calibrates. -/
def Mod.beginSkew (m : Mod) : Mod :=
  overAll (List.range 256) (fun m x => m.flagInput x 5 true) { m.setRo 0x3190 2 1 with skewSince := some m.tread }

/-- A skew calibration ends (R174, R175): it fails when a residual exceeds 0.5 ns, and then keeps the old trims. -/
def Mod.endSkew (m : Mod) (trims : List (Nat × Nat)) (residuals : List (Nat × Int)) : Mod :=
  if m.rov 0x3190 2 ≠ 1 then m else
  let m := { m with skewSince := none, skewPast := m.skewSince.map fun b => (b, m.tread) }
  let m := overAll (List.range 64) (fun m c => if (m.conv c).calSince.isSome then m else m.resumeConv c) m
  let worst := residuals.foldl (fun w p => if w.natAbs < p.2.natAbs then p.2 else w) (0 : Int)
  let pass := decide (worst.natAbs ≤ 500)
  let m := (m.setRo 0x3190 2 (if pass then 2 else 3)).setRo 0x3190 3 m.tread
  let m := if pass then
      let m := overAll trims (fun m p => m.setRo (0x3100 + p.1 % 64) 2 (p.2 % 256)) m
      let m := overAll residuals (fun m p => m.setRo (0x3100 + p.1 % 64) 3 (ofSigned 16 p.2)) m
      m.setRo 0x3190 4 (ofSigned 16 worst)
    else m
  (overAll (List.range 256) (fun m x => m.flagInput x 5 (m.conv (x / 4)).calSince.isSome) m).inputMaps (List.range 256)
    (m.tread + 1)

/-! ### Open-wire scan -/

/-- The next input of a tile, after input `x`, with its scan enabled (R176). -/
def Mod.nextScan (m : Mod) (tile x : Nat) : Option Nat :=
  ((List.range 32).map fun i => tile * 32 + (x % 32 + 1 + i) % 32).find? fun y => decide (m.cfg (0x3000 + y) 0x0E = 1)

/-- The tile's scan input chosen for the flight, at offset 90 (R176). -/
def Mod.scanStart (m : Mod) : Mod :=
  if m.tread % 100 ≠ 90 then m else
  overAll (List.range 8) (fun m t =>
    if m.dacManual t ∨ !tb m.tiles.awake t then m else
    match m.nextScan t (match look m.scans t with | some p => p.1 | none => 31) with
    | some y => { m with scans := put m.scans t (y, m.tread / 100) }
    | none => m) m

/-- The scan of a tile judged (R176): the biased sample against the last unbiased one. -/
def Mod.scan (m : Mod) (tile : Nat) (code : Int) : Mod :=
  match look m.scans tile with
  | some (y, f) =>
    if f = m.tread / 100 ∧ 90 ≤ m.tread % 100 ∧ m.tread % 100 ≤ 92 ∧ !m.dacManual tile then
      let diff := Dy.ofInt ((code - (m.inp y).last).natAbs)
      let bad := ((f32D (m.cfg 0x3190 9)).mul ⟨1, 18⟩).lt diff
      (m.setRoBit (0x3000 + y) 8 8 true).flagInput y 7 bad
    else m
  | none => m

/-! ### Gating and the flight boundary -/

/-- The inputs of a tile go stale, and their windows and firings start afresh (R170, R183): a window counts that begins
at tread `since` or later. -/
def Mod.restartTile (m : Mod) (tile : Nat) (since : Tread) : Mod :=
  let m := overAll (List.range 32) (fun m i =>
    (m.restartWindow (32 * tile + i) since).setRoBit (0x3000 + 32 * tile + i) 8 4 true) m
  overAll (List.range 8) (fun m i => match look m.convs (8 * tile + i) with
    | some s => m.setConv (8 * tile + i) { s with inj := 0, asked := [] }
    | none => m) m

/-- Whether an input's configuration or its converter's sequence differs between two stores. -/
def inputTouched (old new : SMap Nat) (x : Nat) : Bool :=
  [1, 2, 3, 4, 9].any (fun sub => decide (stGet old (okey 0 (0x3000 + x) sub) ≠ stGet new (okey 0 (0x3000 + x) sub))) ||
  decide (stGet old (okey 0 (0x3100 + x / 4) 1) ≠ stGet new (okey 0 (0x3100 + x / 4) 1)) ||
  (List.range 0x19).any (fun i => decide (stGet old (okey 0 (0x3140 + x / 4) (i + 1)) ≠ stGet new (okey 0 (0x3140 + x / 4) (i + 1))))

/-- Input configuration takes effect at a flight boundary (R182), with calibration results (R181) and selections: the
windows of the inputs that changed restart, and channel maps change. -/
def Mod.applyInputConfig (m : Mod) : Mod :=
  let newEff := m.objs.filter fun p => deferred p.1
  let hit := if m.eff = newEff then [] else (List.range 256).filter (inputTouched m.eff newEff)
  let selects := [0, 1, 3].filter fun s => decide (m.inForce (0x3810 + s) 2 ≠ stGet newEff (okey 0 (0x3810 + s) 2))
  let cal := m.calDue.map fun p => p.1 / 8
  let m := if m.eff = newEff then m else { m with effWas := m.eff, effAt := m.tread }
  let m := { m with eff := newEff, cal := m.calDue.foldl (fun l p => put l p.1 p.2) m.cal, calDue := [] }
  let m := overAll hit (fun (m : Mod) x => m.restartWindow x m.tread) m
  (overAll selects (fun (m : Mod) s => m.mapChanged s m.tread) m).inputMaps (hit ++ cal) m.tread

end Sys2Proof.Machine
end

