-- ==== Sys2Proof/Machine/Timebase.lean ====
section
/-! DEFINITION. The timebase (14): the one step of the time, masters and the servo, reference loss, time outputs. -/

namespace Sys2Proof.Machine

/-- A time output. -/
def Mod.tpo (m : Mod) (k : Nat) : TpoSt := lookD m.tpos k {}
/-- A time output set. -/
def Mod.setTpo (m : Mod) (k : Nat) (s : TpoSt) : Mod := { m with tpos := put m.tpos k s }
/-- The servo set. -/
def Mod.setTime (m : Mod) (t : TimeSt) : Mod := { m with time := t }
/-- The present time at the boundary of the tread, in ns (R344). -/
def Mod.now (m : Mod) : Nat := m.tread * 10000

/-! ### Time -/

/-- The flight boundary at or after a time in ns, as a tread (R345). -/
def flightAfter (ns : Nat) : Tread := (ns + 999999) / 1000000 * 100

/-- The timebase runs at its holdover frequency (R346, R353). -/
def Mod.holdFrequency (m : Mod) : Mod := m.setRo 0x1300 5 (ofSigned 32 (-(toSigned 32 (m.rov 0x1300 6))))

/-- The time set (R345): the step takes effect at the next boundary. Where REFIN is lost in mode 01, the timebase is in holdover
from then on (R347). -/
def Mod.stepTime (m : Mod) (ns : Nat) : Mod :=
  let m := m.setTime { m.time with timeSet := true, stepTo := some (flightAfter ns) }
  let m := m.bump 0x1300 0x12
  if m.rov 0x1300 1 ≠ 0 then m
  else if m.time.clkmode = 1 ∧ m.time.refLost then ((m.setRo 0x1300 1 4).bump 0x1300 0x14).holdFrequency
  else m.setRo 0x1300 1 1

/-- Whether the servo runs from PTP (R347). -/
def TimeSt.ptp (t : TimeSt) : Bool := decide (2 ≤ t.clkmode)
/-- The servo's limit in ppb (R347, R352). -/
def TimeSt.fmax (t : TimeSt) : Nat := if t.clkmode = 3 ∧ !t.refLost then 1000 else 100000

/-- Holdover entered (R351, R353): the accumulator is kept, and a condition of a master behind is over. -/
def Mod.holdover (m : Mod) : Mod :=
  let s := m.rov 0x1300 1
  let m := m.setTime { m.time with near := 0, far := 0, following := false, valid := 0, behind := none }
  if s = 0 ∨ s = 4 then m else ((m.setRo 0x1300 1 4).bump 0x1300 0x14).holdFrequency

/-- Rank of an Announce data set in the default best master clock algorithm of IEEE 1588 (log entry 26). -/
def rankOf (a : AnnounceIn) : List Nat :=
  [a.priority1, a.clockClass, a.accuracy, a.variance, a.priority2, a.identity, a.steps]
/-- The clock that an Announce comes from. -/
def senderOf (a : AnnounceIn) : Nat := a.clock.getD a.identity
/-- Whether a list of numbers comes before another. -/
def lexLt : List Nat → List Nat → Bool
  | [], [] => false
  | [], _ => true
  | _, [] => false
  | a :: l, b :: r => decide (a < b) || (decide (a = b) && lexLt l r)

/-- The best of the masters heard. -/
def bestMaster (l : List AnnounceIn) : Option AnnounceIn :=
  l.foldl (fun b a => match b with
    | some x => if lexLt (rankOf a) (rankOf x) then some a else b
    | none => some a) none

/-- Three announce intervals of a master, in treads (R351). -/
def announceSpan (a : AnnounceIn) : Nat := 3 * 100000 * 2 ^ (a.interval + 3).toNat / 8

/-- The selection made again over the masters that are still heard (R351): another grandmaster means holdover and a
counted change. -/
def Mod.selectMaster (m : Mod) : Mod :=
  let m := m.setTime { m.time with masters := m.time.masters.filter fun x => decide (m.tread < x.2 + announceSpan x.1) }
  let best := bestMaster (m.time.masters.map (·.1))
  let old := m.time.master
  let new := best.map (·.identity)
  let m := match best with
    | some a => (m.setRo 0x1300 0xC (ofLe (leBytes 8 (senderOf a) ++ leBytes 2 a.portNumber))).setRo 0x1300 0xD
        (ofSigned 16 a.utcOffset)
    | none => m
  let m := m.setTime { m.time with heard := best.map senderOf }
  if old = new then m else
  let m := m.setTime { m.time with master := new, valid := 0, following := false }
  if old.isSome then m.holdover.bump 0x1300 0x13 else m

/-- Whether the ordinary clock takes a PTP message (R348, R351): only where PTP sets the time, on the ports set in 0x1300:0F, of
its domain and its transport. -/
def Mod.ptpTakes (m : Mod) (port domain : Nat) (udp : Bool) : Bool :=
  m.time.ptp && decide (port < 3) && tb (m.cfg 0x1300 0xF) port && decide (domain = m.cfg 0x1300 0xB) &&
    decide (b2n udp = m.cfg 0x1300 0xA)

/-- ANNOUNCE's effect (R348, R351): each sender is kept with the last that it sent. -/
def Mod.announce (m : Mod) (a : AnnounceIn) : Mod :=
  if !m.ptpTakes a.port a.domain a.udp ∨ a.interval < -3 ∨ 4 < a.interval then m else
  let l := (a, m.tread) :: m.time.masters.filter fun x => !decide (senderOf x.1 = senderOf a ∧ x.1.portNumber = a.portNumber)
  (m.setTime { m.time with masters := l }).selectMaster

/-- MASTER_LOST's effect (R351, R353): no Announce of the master has come within three of its intervals. -/
def Mod.masterLost (m : Mod) : Mod := if m.time.master.isSome then m.selectMaster else m

/-- The record of a master behind, with the last offset: at once and every 1 000 flights (R346). -/
def Mod.recordBehind (m : Mod) : Mod :=
  let f := m.tread / 100
  if (match m.time.behind with | some l => decide (l + 1000 ≤ f) | none => true) then
    (m.setTime { m.time with behind := some f }).logGal 0x062 0 [m.rov 0x1300 3]
  else m

/-- A master found behind (R346). -/
def Mod.masterBehind (m : Mod) : Mod :=
  let m := (m.setTime { m.time with following := false, valid := 0, near := 0, far := 0 }).setRo 0x1300 1 5
  m.holdFrequency.recordBehind

/-- The servo on a valid offset (R352). -/
def Mod.servo (m : Mod) (o : Int) : Mod :=
  let t := m.time
  let top := Dy.ofInt t.fmax
  let lim := fun (d : Dy) => (d.max top.neg).min top
  let acc := lim (t.acc.add ((f32D (m.cfg 0x1300 8)).mul (Dy.ofInt o)))
  let adj := lim (((f32D (m.cfg 0x1300 7)).mul (Dy.ofInt o)).add acc)
  let near := if o.natAbs ≤ 20 then satAdd 64 t.near 1 else 0
  let far := if 100 < o.natAbs then satAdd 4 t.far 1 else 0
  let st := m.rov 0x1300 1
  let st := if st = 3 then (if 4 ≤ far then 2 else 3) else if 64 ≤ near then 3 else 2
  let m := m.setTime { t with acc := acc, adj := adj, near := near, far := far, behind := none, following := true,
                              sum := if st = 3 then t.sum else Dy.zero, flights := if st = 3 then t.flights else 0 }
  (m.setRo 0x1300 1 st).setRo 0x1300 5 (ofSigned 32 adj.neg.round)

/-- The mean path delay of the delay mechanism in use (R352): in P2P mode the measured peer delay of the port. -/
def Mod.pathDelay (m : Mod) (i : SyncIn) : Nat :=
  if m.cfg 0x1300 9 = 2 then bits (m.rov 0x1300 0xE) (32 * i.port) 32 else i.pathDelay

/-- SYNC's effect (R345, R346, R348, R351, R352; log entry 27). -/
def Mod.sync (m : Mod) (i : SyncIn) : Mod :=
  let t := m.time
  if !m.ptpTakes i.port i.domain i.udp ∨ i.interval < -7 ∨ 1 < i.interval ∨ t.heard ≠ some i.master then m else
  let d := m.pathDelay i
  let o : Int := (i.t2 : Int) - i.t1 - i.correction - d
  let m := (m.setRo 0x1300 3 (satTo .i32 (Dy.ofInt o))).setRo 0x1300 4 (Min.min d 0xFFFFFFFF)
  if !t.timeSet then (m.stepTime (Max.max (m.now : Int) ((m.now : Int) - o)).toNat).setRo 0x1300 1 2
  else if 1000000000 < o then m.masterBehind
  else if o < -1000000000 then m.setTime { t with valid := 0, near := 0, far := 0 }
  else if t.following ∨ t.valid + 1 ≥ 16 then m.servo o
  else m.setTime { t with valid := t.valid + 1 }

/-- What the servo does once per flight (R346, R352): the mean of adj over 1 000 flights of lock becomes the holdover frequency; a
master that stays behind is recorded again. -/
def Mod.servoFlight (m : Mod) : Mod :=
  if m.rov 0x1300 1 = 5 then m.recordBehind
  else if m.rov 0x1300 1 ≠ 3 then m else
  let t := { m.time with sum := m.time.sum.add m.time.adj, flights := m.time.flights + 1 }
  if t.flights < 1000 then m.setTime t
  else (m.setTime { t with sum := Dy.zero, flights := 0 }).setRo 0x1300 6
    (ofSigned 32 (Dy.div64 t.sum (Dy.ofInt 1000)).round)

/-- REFIN_LOSS's effect (R347). -/
def Mod.refLoss (m : Mod) : Mod :=
  if m.time.refLost ∨ (m.time.clkmode ≠ 1 ∧ m.time.clkmode ≠ 3) then m else
  let m := (m.setTime { m.time with refLost := true }).setRo 0x1300 2 1
  if m.time.clkmode = 1 then m.holdover else m

/-- REFIN_RETURN's effect (R347). -/
def Mod.refReturn (m : Mod) : Mod :=
  if !m.time.refLost then m else
  let m := (m.setTime { m.time with refLost := false }).setRo 0x1300 2 0
  if m.time.clkmode = 1 ∧ m.rov 0x1300 1 = 4 then m.setRo 0x1300 1 1 else m

/-! ### Time outputs -/

/-- The first instant of a periodic output at or after a time; the first of all is its start (R354; log entry 28). -/
def firstInstant (start period t : Nat) : Nat :=
  if t ≤ start then start else start + (t - start + period - 1) / period * period

/-- Whether arming is refused LATE (R355). -/
def Mod.tpoLate (m : Mod) (k n : Nat) : Bool :=
  decide (m.cfg (0x1340 + k) 1 = 1 ∧ m.cfg (0x1340 + k) 2 < (n + 2) * 10000)

/-- An output armed at the present boundary (R355). -/
def Mod.tpoArm (m : Mod) (k : Nat) : Mod :=
  let c := m.cfg (0x1340 + k)
  if c 1 = 1 then (m.setTpo k { m.tpo k with next := some (c 2), single := true }).setRo (0x1340 + k) 7 1
  else if c 1 = 2 then
    (m.setTpo k { m.tpo k with next := some (firstInstant (c 2) (Max.max 1 (c 3)) ((m.tread + 2) * 10000)), single := false }).setRo
      (0x1340 + k) 7 1
  else m

/-- An output disarmed (R355): a pulse in progress finishes. -/
def Mod.tpoDisarm (m : Mod) (k : Nat) : Mod :=
  let m := m.setTpo k { m.tpo k with next := none }
  if (m.tpo k).ends.isSome then m else m.setRo (0x1340 + k) 7 0

/-- ARM_TPO of an entry at boundary `e` (R355): refused unless in mode 1 and not already armed. An instant that has passed makes no
pulse (log entry 28). -/
def Mod.tpoAction (m : Mod) (k treads : Nat) (e : Tread) : Option Mod :=
  if m.cfg (0x1340 + k) 1 ≠ 1 ∨ (m.tpo k).next.isSome then none
  else some ((m.setTpo k { m.tpo k with next := some ((e + treads) * 10000), single := true }).setRo (0x1340 + k) 7 1)

/-- An edge of a signal recorded in S2 with the tread in which it falls (R265). -/
def Mod.edge (m : Mod) (t : Tread) (sig : Sig) (level : Bool) : Mod :=
  let m := { m with levels := setBit m.levels (sig - 0x940) level }
  m.chainPut 2 [t % 2 ^ 32, sig + 4096 * b2n level]

/-- An edge of a trigger input, as the command that it gives rise to names it; one edge is recorded once (R265). -/
def Mod.trgEdge (m : Mod) (k : Nat) (falling : Bool) : Mod :=
  if tb m.trg k != falling then m else { m with trg := setBit m.trg k !falling }.edge m.tread (0xB00 + k) !falling

/-- The next instant of a periodic output at or after a time (R354). -/
def Mod.tpoFrom (m : Mod) (k : Nat) (s : TpoSt) (t : Nat) : TpoSt :=
  { s with next := s.next.map fun x => if s.single then x else firstInstant x (Max.max 1 (m.cfg (0x1340 + k) 3)) t }

/-- TPO_PULSE's effect (R354, R355): the instant lies in the present tread. -/
def Mod.tpoPulse (m : Mod) (k : Nat) : Mod :=
  let s := m.tpoFrom k (m.tpo k) m.now
  match s.next with
  | none => m
  | some t =>
    if t < m.now ∨ (m.tread + 1) * 10000 ≤ t then m else
    let m := m.setTpo k { s with next := if s.single then none else some (t + Max.max 1 (m.cfg (0x1340 + k) 3)),
                                 ends := some (t + m.cfg (0x1340 + k) 4) }
    let m := ((m.bump (0x1340 + k) 8).setRo (0x1340 + k) 0xA t).setRo (0x1340 + k) 7 2
    { m with tpoNow := setBit m.tpoNow k true }.edge (t / 10000) (0xAF0 + k) true

/-- TPO_PULSE_END's effect (R354). -/
def Mod.tpoEnd (m : Mod) (k : Nat) : Mod :=
  let s := m.tpo k
  match s.ends with
  | none => m
  | some t =>
    if (m.tread + 1) * 10000 ≤ t then m else
    let m := m.setTpo k { s with ends := none }
    let m := if s.next.isNone then m.setRo (0x1340 + k) 7 0 else m
    { m with tpoNow := setBit m.tpoNow k false }.edge (t / 10000) (0xAF0 + k) false

/-- Every output at its inactive level, its state otherwise as a reset leaves it (R356); the levels that later blocks of S2 open
with show it (R265). -/
def Mod.tpoQuiet (m : Mod) : Mod :=
  { m with levels := m.levels - 2 ^ 432 * bits m.levels 432 16, tpoNow := 0, tpoLevel := 0, tpos := m.tpos.map fun p => (p.1, { p.2 with ends := none }) }

/-- The step of the time passes over instants of the outputs (R345, R354): a periodic one goes on with its first instant at or after
boundary `n`, a single pulse that it skips is not made, and a pulse in progress runs on for its width. -/
def Mod.tpoStep (m : Mod) (d : Nat) (n : Tread) : Mod :=
  overAll m.tpos (fun m p =>
    let s := { m.tpoFrom p.1 p.2 (n * 10000) with ends := p.2.ends.map (· + 10000 * d) }
    match s.next with
    | some t => if t < n * 10000 then (m.setTpo p.1 { s with next := none }).setRo (0x1340 + p.1) 7 (2 * b2n s.ends.isSome)
        else m.setTpo p.1 s
    | none => m.setTpo p.1 s) m

/-- Outputs that ran in the restored state, resumed at boundary N (R356): pulses lost in the gap are counted; a pulse that the reset
cut off is over. -/
def Mod.tpoResume (m : Mod) : Mod :=
  overAll m.tpos (fun m p =>
    let k := p.1
    let m := m.setTpo k { p.2 with ends := none }
    match p.2.next with
    | none => m.setRo (0x1340 + k) 7 0
    | some t =>
      let from_ := (m.tread + 2) * 10000
      if p.2.single then
        (if t < m.now then ((m.setTpo k {}).setRo (0x1340 + k) 7 0).bump (0x1340 + k) 9 else m)
      else
        let per := Max.max 1 (m.cfg (0x1340 + k) 3)
        let t' := firstInstant t per from_
        (m.setTpo k { p.2 with next := some t', ends := none }).bumpBy (0x1340 + k) 9 ((t' - t) / per)) m

end Sys2Proof.Machine
end

