-- ==== Sys2Proof/Machine/Sequencer.lean ====
section
/-! DEFINITION. The stairwell sequencer (03): conditions and exits, the decisions of a tread, patterns, loop-mode sets,
actions that need no other track, landings, and the track commands. -/

namespace Sys2Proof.Machine

/-! ### Conditions (R59, R60) -/

/-- A condition term against the committed state. -/
def Mod.term (m : Mod) (b : Bank) (t : Nat) : Bool :=
  let sig := bits t 4 12
  let c := bits t 16 16
  let v := (m.sig sig).toF
  match bits t 0 4 with
  | 1 => cmpF (fun x y => y.lt x) v (b.const c)
  | 2 => cmpF Dy.lt v (b.const c)
  | 3 => cmpF Dy.eqv v (b.const c)
  | 4 => cmpF (fun x y => !x.eqv y) v (b.const c)
  | 5 => cmpF Dy.le (b.const c) v && cmpF Dy.le v (b.const (c + 1))
  | 6 => decide (m.sig sig = .n 1)
  | 7 => decide (m.sig sig = .n 0)
  | 8 => decide (m.cfg 0x4011 (sig - 0xB60 + 1) = 1)
  | 9 => (m.loop (sig % 512)).settled
  | _ => false

/-- The terms of a group that take part, by position (R58). -/
def groupTerms (e g : Nat) : List Nat :=
  (List.range 4).filter fun i => decide (bits (wordOf e (5 + i)) 0 4 ≠ 0) && decide (bits (wordOf e 12) i 1 = g)

/-- A group of a step, combined; an unarmed one is false. -/
def Mod.groupTrue (m : Mod) (b : Bank) (e g : Nat) : Bool :=
  let w := wordOf e 12
  let val := fun (i : Nat) => m.term b (wordOf e (5 + i)) != tb w (8 + i)
  let l := groupTerms e g
  !l.isEmpty && (if tb w (4 + g) then l.any val else l.all val)

/-- Whether a group has settle enabled. -/
def settleOn (e g : Nat) : Bool := tb (wordOf e 12) (6 + g)
/-- The settle count that qualifies a group: the settle time, or 1 if that is 0. -/
def settleNeed (e : Nat) : Nat := Max.max 1 (bits (wordOf e 12) 16 16)

/-- Host event flags that the exit through a group clears (R65). -/
def groupClears (e g : Nat) : Nat :=
  ofBits ((groupTerms e g).filterMap fun i =>
    let t := wordOf e (5 + i)
    if bits t 0 4 = 8 then some (bits t 4 12 - 0xB60) else none)

/-! ### Decisions (R61, R65, R76, R81) -/

/-- A step entry of the active bank. -/
def Mod.stepE (m : Mod) (n : Nat) : Nat := m.bank.step n
/-- The landing record of the active bank. -/
def Mod.landingE (m : Mod) (l : Nat) : Nat := lookD m.bank.landings l 0
/-- Whether a landing's CRC matches. -/
def Mod.landingOk (m : Mod) (l : Nat) : Bool := decide (bits (wordOf (m.landingE l) 7) 0 16 = landingCrc (m.landingE l))
/-- Whether a step's CRC matches. -/
def Mod.stepOk (m : Mod) (n : Nat) : Bool := decide (bits (wordOf (m.stepE n) 15) 0 16 = stepCrc (m.stepE n))
/-- Kind of a step. -/
def Mod.kindOf (m : Mod) (n : Nat) : Nat := bits (wordOf (m.stepE n) 0) 16 8

/-- The landing of a step for track `t` (R76). -/
def Mod.landingOf (m : Mod) (t step : Nat) : Nat :=
  let f := bits (wordOf (m.stepE step) 9) 24 8
  if step = 0xFFFF ∨ f = 0xFF then (m.track t).dfltLanding else f

/-- A landing decided for track `t` for the next boundary, its CRC checked (R74). -/
def Mod.decideLand (m : Mod) (t cause : Nat) : Mod :=
  let s := m.track t
  let l := m.landingOf t s.step
  let ok := m.landingOk l
  let m := if ok then m else m.bump 0x4010 4
  m.setTrack t { s with next := some (.land l cause ok), wait := none }

/-- The entry of a step decided for the next boundary; a wrong CRC lands the track (R61). -/
def Mod.decideEnter (m : Mod) (t step exit clear : Nat) : Mod :=
  if m.stepOk step then
    m.setTrack t { m.track t with next := some (.enter step exit clear), wait := none }
  else (m.bump 0x4010 4).decideLand t 8

/-- Whether track `t` has requested pair `p` off. -/
def Mod.requesting (m : Mod) (t p : Nat) : Bool := tb (lookD m.reqs p 0) t

/-- Whether an enabled fault source stands for track `t` in a state (R80, R81). -/
def Mod.faultOf (m : Mod) (t : Nat) : Bool :=
  let f := m.cfg (0x4000 + t) 0x0C
  let s := m.track t
  ((List.range 6).any fun b => tb f b && tb m.snapFault b) ||
  ((List.range 8).any fun p => tb f (6 + p) && !tb m.snapPairs p && !m.requesting t p) ||
  ((List.range 4).any fun k => tb f (14 + k) && (lookD m.links k {}).fault) ||
  (tb f 18 && decide (s.step ≠ 0xFFFF) && (setLoops (m.bank.stepSet s.step)).any fun j => (m.loop j).lost) ||
  (tb f 19 && s.refused)

/-- Whether the timer decides at `x` in this tread: it has reached it, or passed it where it catches up; one that stands
saturated decides nothing further (R63, R64, R93). -/
def TrackSt.hits (s : TrackSt) (x : Nat) : Bool :=
  decide (x ≠ 0) && ((!s.full && decide (s.timer = x)) || (s.catchUp && decide (x ≤ s.timer)))

/-- The step timer of a track in tread `n` (R63, R64): 1 in the tread of the entry, one more in each later tread in which
the track is RUNNING. -/
def TrackSt.advanced (s : TrackSt) (n : Tread) : TrackSt :=
  if s.state ≠ 1 ∨ s.step = 0xFFFF ∨ s.entryTread = n then s
  else { s with timer := satAdd 0xFFFFFFFF s.timer 1, full := s.full || decide (s.timer = 0xFFFFFFFF) }
/-- The step timers of the tread that begins, part of its committed state (R26, R60 step 1). -/
def Mod.runTimers (m : Mod) : Mod :=
  { m with tracks := m.tracks.map fun (p : Nat × TrackSt) => (p.1, p.2.advanced m.tread) }

/-- The duration exit, if it is due (R62). -/
def Mod.durationDue (m : Mod) (t : Nat) : Bool :=
  let s := m.track t
  decide (m.kindOf s.step = 1) && s.hits (wordOf (m.stepE s.step) 1)
/-- The timeout, if it is due. -/
def Mod.timeoutDue (m : Mod) (t : Nat) : Bool := (m.track t).hits (wordOf (m.stepE (m.track t).step) 2)

/-- The timeout exit (R65). -/
def Mod.takeTimeout (m : Mod) (t : Nat) : Mod :=
  let target := bits (wordOf (m.stepE (m.track t).step) 3) 16 16
  if target = 0xFFFF then m.decideLand t 3 else m.decideEnter t target 4 0
/-- The exit through a group. -/
def Mod.takeGroup (m : Mod) (t g : Nat) : Mod :=
  let e := m.stepE (m.track t).step
  m.decideEnter t (bits (wordOf e 4) (16 * g) 16) (2 + g) (groupClears e g)
/-- The duration exit. -/
def Mod.takeDuration (m : Mod) (t : Nat) : Mod :=
  m.decideEnter t (bits (wordOf (m.stepE (m.track t).step) 3) 0 16) 1 0

/-- The exit of a running track in its step, with the groups that qualify (R65, R66); while it waits for a wake, the timeout
of the tread in which the last tile becomes awake is still taken (log entry 112). -/
def Mod.chooseExit (m : Mod) (t : Nat) (fault qa qb : Bool) : Mod :=
  if fault then m.decideLand t 5
  else if (m.track t).wait.isSome then (if m.timeoutDue t then m.takeTimeout t else m)
  else if qa then m.takeGroup t 0
  else if qb then m.takeGroup t 1
  else if m.durationDue t then m.takeDuration t
  else if m.timeoutDue t then m.takeTimeout t
  else m

/-- Whether the groups of a step are evaluated at timer value `s` (R62). -/
def groupsRun (e s : Nat) : Bool := decide (bits (wordOf e 0) 16 8 = 1) || decide (wordOf e 1 < s)

/-- A settle count after a tread. -/
def settleCount (on now : Bool) (n : Nat) : Nat := if on && now then satAdd 0xFFFFFFFF n 1 else 0

/-- Whether group `g` of a running track is true in this tread (R60 step 3, R62); the terms see the committed state `w` of
the tread. -/
def Mod.groupNow (m w : Mod) (t g : Nat) : Bool :=
  let s := m.track t
  groupsRun (m.stepE s.step) s.timer && w.groupTrue m.bank (m.stepE s.step) g
/-- The settle count of a group as this tread's evaluation leaves it (R60 step 4). -/
def Mod.countNow (m w : Mod) (t g : Nat) : Nat :=
  let s := m.track t
  settleCount (settleOn (m.stepE s.step) g) (m.groupNow w t g) (if g = 0 then s.countA else s.countB)
/-- Whether a group qualifies by its settle count in this tread. -/
def Mod.settles (m w : Mod) (t g : Nat) : Bool :=
  let e := m.stepE (m.track t).step
  settleOn e g && m.groupNow w t g && decide (settleNeed e ≤ m.countNow w t g)
/-- Whether a group qualifies in this tread (R60 step 4). -/
def Mod.qualifies (m w : Mod) (t g : Nat) : Bool :=
  m.settles w t g || (m.groupNow w t g && !settleOn (m.stepE (m.track t).step) g)

/-- The groups of a running track and its exit, the timer as it stands (R60, steps 2 to 5). -/
def Mod.evalGroups (m w : Mod) (t : Nat) (fault : Bool) : Mod :=
  let s := { m.track t with countA := m.countNow w t 0, countB := m.countNow w t 1 }
  let m := (m.setTrack t s).chooseExit t fault (m.qualifies w t 0) (m.qualifies w t 1)
  m.setTrack t { m.track t with catchUp := false }

/-- The entry of the entry point's first step (R77); no exit leads there, which 0x4000+t:0A shows as 0 (log entry 87). -/
def Mod.enterFirst (m : Mod) (t : Nat) : Mod :=
  m.decideEnter t (bits (lookD m.bank.entries (m.track t).entryPoint 0) 0 16) 0 0

/-- The evaluation of one track in the present tread, whose committed state is `w` (R60, R78, R81). -/
def Mod.evalTrack (m w : Mod) (t : Nat) : Mod :=
  let s := m.track t
  if s.seen = some m.tread then m else
  let fault := w.faultOf t
  let m := m.setTrack t { s with seen := some m.tread, refused := false }
  match s.state with
  | 1 =>
    if s.step = 0xFFFF then
      if fault then m.decideLand t 5 else if s.wait.isSome then m else m.enterFirst t
    else m.evalGroups w t fault
  | 2 =>
    let m := m.setTrack t { m.track t with paused := s.paused + 1 }
    if fault then m.decideLand t 5 else m
  | _ => m

/-- The evaluation of every track against one committed state (R60). -/
def Mod.evalTracks (m : Mod) : Mod :=
  let w := m.frozen
  overAll (m.tracks.map (·.1)) (fun m t => m.evalTrack w t) m

/-- Whether track `t` is RUNNING in a step of which this tread's evaluation has not come yet. -/
def Mod.toEvaluate (m : Mod) (t : Nat) : Bool :=
  let s := m.track t
  decide (s.state = 1 ∧ s.step ≠ 0xFFFF ∧ s.next = none ∧ s.seen ≠ some m.tread)
/-- The evaluation of one track, once in a tread (R60): what is due first in the list of R65 is taken. -/
def Mod.evalNow (m : Mod) (t : Nat) : Mod := m.evalTrack m.frozen t

/-- STEP_DURATION_EXIT's effect (R63): the timer has reached the duration. -/
def Mod.durationExit (m : Mod) (t : Nat) : Mod :=
  if m.toEvaluate t && (m.track t).wait.isNone && m.durationDue t then m.evalNow t else m
/-- STEP_TIMEOUT's effect (R65, R66): the timer has reached the timeout. -/
def Mod.timeoutExit (m : Mod) (t : Nat) : Mod := if m.toEvaluate t && m.timeoutDue t then m.evalNow t else m
/-- WAIT_DWELL_END's effect (R62): the dwell is over, and the groups are evaluated. -/
def Mod.dwellEnd (m : Mod) (t : Nat) : Mod :=
  let s := m.track t
  if m.toEvaluate t && decide (m.kindOf s.step = 2 ∧ wordOf (m.stepE s.step) 1 < s.timer) then m.evalNow t else m
/-- SETTLE_TIME_REACHED's effect (R60): a group's settle count reaches its time. -/
def Mod.settleExit (m : Mod) (t : Nat) : Mod :=
  if m.toEvaluate t && (m.track t).wait.isNone && (m.settles m.frozen t 0 || m.settles m.frozen t 1) then m.evalNow t else m

/-! ### Wake-ups (R21, R22) -/

/-- The tiles that a step names. -/
def Mod.wakeMask (m : Mod) (n : Nat) : Nat := bits (wordOf (m.stepE n) 11) 0 15

/-- Whether a decided transition must wait for a tile: never a landing, nor the entry of a go-to-landing step. -/
def Mod.mustWait (m : Mod) (tr : Trans) : Bool :=
  match tr with
  | .enter n _ _ => decide (m.kindOf n ≠ 3) && !subBits 15 (m.wakeMask n) m.tiles.awake
  | .land _ _ _ => false

/-- An entry that meets a gated tile waits (R22): counted and logged once, at the boundary at which it was due. -/
def Mod.lateWake (m : Mod) (t : Nat) : Mod :=
  let s := m.track t
  match s.next with
  | some (.enter n x c) =>
    if m.mustWait (.enter n x c) then
      ((m.setTrack t { s with next := none, wait := some (.enter n x c) }).bump 0x1200 5).chainPut 4
        [m.nextTread % 2 ^ 32, 6 + 256 * t, n, m.tiles.awake, 0]
    else m
  | _ => m

/-- An entry that has waited takes effect at the next boundary once every named tile is awake; the entry of a PAUSED track
waits on (R22, R78). -/
def Mod.wokenEntry (m : Mod) (t : Nat) : Mod :=
  let s := m.track t
  match s.next, s.wait with
  | none, some tr => if s.state ≠ 1 ∨ m.mustWait tr then m else m.setTrack t { s with next := some tr, wait := none }
  | _, _ => m

/-- Both, for every track, as the tread ends. -/
def Mod.wakeCheck (m : Mod) : Mod := overAll (m.tracks.map (·.1)) (fun m t => (m.wokenEntry t).lateWake t) m

/-! ### Patterns and loop-mode sets (R70 to R72) -/

/-- A digital output's state written, which ends a pulse on it (log entry 30). -/
def Mod.setDo (m : Mod) (who o v : Nat) : Mod :=
  let l := m.lead o
  { m.wr who (0x3400 + l) 1 v with pulses := m.pulses.filter fun p => !decide (p.out = l) }

/-- The mask half of a pattern. -/
def patternMask (p : Nat) : Nat := bits p 192 192

/-- A valve pattern of bank `b` applied (R70): a group follows its lead's bit; members whose bits differ count as a conflict, whatever
their mask bits. -/
def Mod.applyPattern (m : Mod) (b : Bank) (who pat : Nat) : Mod :=
  if pat = 0xFFFF then m else
  let p := lookD b.patterns pat 0
  let leads := ((onBits 192 (patternMask p)).map m.lead).eraseDups
  overAll leads (fun m l =>
    let bad := (m.group l).any fun o => decide (tb p o ≠ tb p l)
    let m := m.setDo who l (b2n (tb p l))
    if bad then m.bump 0x4010 3 else m) m

/-- An action refused (R68): counted, logged and recorded, and remembered for fault bit 19. -/
def Mod.refuseAction (m : Mod) (t step idx op : Nat) : Mod :=
  let m := ((m.bump 0x4010 2).logS4 5 t step idx op).logGal 0x020 t [t, step, idx]
  m.setTrack t { m.track t with refused := true }

/-- A loop-mode set of bank `b` applied (R72): an entry whose mode the engine does not permit is refused (R123). -/
def Mod.applySet (m : Mod) (b : Bank) (who t step set : Nat) : Mod :=
  if set = 0xFFFF then m else
  let s := lookD b.sets set 0
  overAll (List.range 32) (fun m i =>
    let w := wordOf s i
    if !tb w 31 then m else
    let j := bits w 0 9
    let mode := bits w 9 3
    if mode ≠ 7 ∧ !m.modeOk j mode then m.refuseAction t step i 4 else
    let m := if mode = 7 then m else m.enterMode who j mode
    match bits w 12 2 with
    | 2 => m.selectBank who j 0
    | 3 => m.selectBank who j 1
    | _ => m) m

/-! ### Actions (R67, R68) -/

/-- The operand of an action: its value field, or the pool constant it names. -/
def Bank.operand (b : Bank) (e : Nat) : Nat :=
  let v := wordOf e 1
  if tb e 28 then b.const (v % 8192) else v

/-- Whether an operand is one its opcode permits. -/
def Bank.operandGood (b : Bank) (e : Nat) : Bool :=
  match opcode (bits e 0 8) with
  | some o => operandOk o.2.2 (b.operand e) b.entryCount
  | none => false

/-- Whether an action on a digital output is refused (R68, R110, R190): its bank is off, or a loop drives its group, itself
or through a mapped signal (R424). -/
def Mod.doRefused (m : Mod) (o : Nat) : Bool :=
  decide (m.snapBanks.getD (o / 32) 0 ≠ 0) || (m.driverWas (0xA00 + m.lead o)).isSome ||
    m.mappedDriven (0x3400 + m.lead o) 1 || m.mappedDriven (0x3400 + m.lead o) 3

/-- Output actions: SET_AO, SET_DO, SET_DUTY, PULSE_DO; none where refused. -/
def Mod.outAction (m : Mod) (who op tgt v : Nat) : Option Mod :=
  let o := tgt - 0xA00
  match op with
  | 0x06 =>
    let a := tgt - 0x900
    let sp := aoSpan (m.inForce (0x3200 + a) 1)
    if (m.driverWas tgt).isSome ∨ m.mappedDriven (0x3200 + a) 2 ∨ !(sp.1.le (f32D v) && (f32D v).le sp.2) then none
    else some (m.wr who (0x3200 + a) 2 v)
  | 0x07 => if m.doRefused o then none else some (m.setDo who o v)
  | 0x08 => if m.doRefused o ∨ !m.isDuty o then none else some (m.wr who (0x3400 + m.lead o) 3 v)
  | 0x09 =>
    if m.doRefused o then none else
    let m := m.setDo who o 1
    some { m with pulses := m.pulses ++ [⟨m.lead o, m.tread + v⟩] }
  | _ => some m

/-- Loop actions. -/
def Mod.loopAction (m : Mod) (who op tgt v : Nat) : Option Mod :=
  let j := tgt % 512
  match op with
  | 0x01 => some (m.wr who (0x2200 + j) 2 v)
  | 0x02 => some (m.jumpTo who j v)
  | 0x03 => some (m.writeManual who j v)
  | 0x04 => if m.modeOk j v then some (m.enterMode who j v) else none
  | 0x05 => some (m.selectBank who j v)
  | 0x17 => some (m.clearTableOf j)
  | _ => some m

/-- A request set bit of track `t` (R221). -/
def Mod.request (m : Mod) (t p : Nat) (on : Bool) : Mod :=
  { m with reqs := putD 0 m.reqs p (setBit (lookD m.reqs p 0) t on) }

/-- The other actions that need no second track and no mapping; `e` the boundary of the entry or landing that they belong to. -/
def Mod.plainAction (m : Mod) (who t step op tgt v : Nat) (e : Tread) : Option Mod :=
  match op with
  | 0x0D => some (m.wr who 0x4011 (tgt - 0xB60 + 1) 1)
  | 0x0E => some (m.wr who 0x4011 (tgt - 0xB60 + 1) 0)
  | 0x0F => if m.injLen ((tgt - 0x800) / 4) = 0 then none else some (m.askFire ((tgt - 0x800) / 4) 500)
  | 0x10 => m.tpoAction (tgt - 0xAF0) v e
  | 0x11 => some (m.logS4 4 t step v 0)
  | 0x13 => some (m.sendMo (tgt - 0xC00))
  | 0x16 => some (m.request t (tgt - 0xAE0) (decide (v = 0)))
  | _ => some m

/-- An action without an axis, a mapping or another track: none where its block refuses it. -/
def Mod.simpleAction (m : Mod) (who t step op tgt v : Nat) (e : Tread) : Option Mod :=
  if 0x06 ≤ op ∧ op ≤ 0x09 then m.outAction who op tgt v
  else if (0x01 ≤ op ∧ op ≤ 0x05) ∨ op = 0x17 then m.loopAction who op tgt v
  else m.plainAction who t step op tgt v e

/-- An action on an axis at the moment it reaches it (R239, R243); none where refused. -/
def Mod.axisAction (m : Mod) (op tgt v : Nat) : Option Mod :=
  let a := tgt - 0xB10
  if op = 0x0C then some (m.stopAxis a)
  else
    let t := (m.axis a).moveTarget (if op = 0x0A then 1 else 2) (toSigned 32 v)
    if m.moveOk a ∧ moveInRange t then some (m.queueMove a t) else none

/-- Whether an opcode acts on an axis. -/
def axisOp (op : Nat) : Bool := decide (0x0A ≤ op ∧ op ≤ 0x0C)

/-- The opcode of an action entry. -/
def actOp (e : Nat) : Nat := bits e 0 8
/-- Its target. -/
def actTgt (e : Nat) : Nat := bits e 8 12
/-- Its delay. -/
def actDelay (e : Nat) : Nat := bits e 20 8

/-- The axis actions of a list that reach the axes as tread n−1 ends (R240), refusals remembered for the boundary. -/
def Mod.axisActions (m : Mod) (t : Nat) (idxs : List Nat) : Mod :=
  overAll idxs (fun m i =>
    let e := m.bank.action i
    if !axisOp (actOp e) then m else
    match (if m.bank.operandGood e then m.axisAction (actOp e) (actTgt e) (m.bank.operand e) else none) with
    | some m => m
    | none => { m with axRefused := m.axRefused ++ [(t, i, actOp e)] }) m

/-! ### Landings (R74 to R76) -/

/-- A landing record of a bank. -/
def Bank.landing (b : Bank) (l : Nat) : Nat := lookD b.landings l 0
/-- The action indices of a landing. -/
def Bank.landingActs (b : Bank) (l : Nat) : List Nat :=
  listOf (bits (wordOf (b.landing l) 2) 0 16) (bits (wordOf (b.landing l) 2) 16 8)
/-- The action indices of a landing of the active bank. -/
def Mod.landingActs (m : Mod) (l : Nat) : List Nat := m.bank.landingActs l

/-- The axis stops of a landing. -/
def Mod.landingStops (m : Mod) (b : Bank) (l : Nat) : Mod :=
  overAll (onBits 32 (wordOf (b.landing l) 3)) (fun m a => m.stopAxis a) m

/-- The effects of a landing of bank `b` (R74): pattern, set, actions, safe-off requests, and where `axes` says so those on
axes as well. -/
def Mod.landingEffects (m : Mod) (b : Bank) (t step l : Nat) (axes : Bool) : Mod :=
  let e := b.landing l
  let who := byLanding t
  let m := m.applyPattern b who (bits (wordOf e 0) 16 16)
  let m := m.applySet b who t step (bits (wordOf e 1) 0 16)
  let m := overAll (b.landingActs l) (fun m i =>
    let a := b.action i
    let op := actOp a
    if axisOp op && !axes then m else
    let r := if !b.operandGood a then none
      else if axisOp op then m.axisAction op (actTgt a) (b.operand a)
      else m.simpleAction who t step op (actTgt a) (b.operand a) m.tread
    match r with
    | some m => m
    | none => m.refuseAction t step i op) m
  let m := if axes then m.landingStops b l else m
  overAll (onBits 8 (bits (wordOf e 4) 0 8)) (fun m p => m.request t p true) m

/-- A track's state changed, with its step-log event (R267). -/
def Mod.setTrackState (m : Mod) (t new cmd : Nat) : Mod :=
  let s := m.track t
  if s.state = new then m else (m.setTrack t { s with state := new }).logS4 3 t new s.state cmd

/-- A NOTIFY queued (R341). -/
def Mod.notify (m : Mod) (a code : Nat) (data : List Nat) : Mod := { m with out := m.out ++ [.notify a code data] }

/-- Whether `a` is a host association in the hall that is not leaving (R339, R341). -/
def Mod.isHost (m : Mod) (a : Nat) : Bool :=
  match look m.hall a with
  | some p => decide (p.agreed.cls = 0 ∧ p.state = 1)
  | none => false

/-- Track `t` becomes LANDED (R74, R75); `ok` tells whether the landing's CRC matched. A cause that finds it LANDED
only counts. -/
def Mod.becomeLanded (m : Mod) (t l cause cmd : Nat) (ok : Bool) : Mod :=
  let s := m.track t
  let m := m.bump 0x4010 5
  if s.state = 3 then m else
  let hold := if ok ∧ bits (wordOf (m.landingE l) 0) 16 16 ≠ 0xFFFF then
      patternMask (lookD m.bank.patterns (bits (wordOf (m.landingE l) 0) 16 16) 0) else 0
  let m := m.setTrack t { s with curLanding := l, cause := cause, lastExit := 5, heldMask := hold, wait := none,
                                 next := none, countA := 0, countB := 0 }
  let m := (m.setTrackState t 3 cmd).logS4 2 t s.step l cause
  let m := if ok || m.landingOk l then m else m.logGal 0x021 t [t, s.step, l]
  if m.isHost s.owner then m.notify s.owner 3 ([t, l, cause, 0] ++ leBytes 2 s.step ++ [0, 0] ++ leBytes 8 m.tread) else m

/-- A landing whose effects wait for their place in R39, on the bank that is active now (R101). -/
def Mod.landLater (m : Mod) (t l : Nat) : Mod := { m with landings := m.landings ++ [(t, l, m.rov 0x4020 1)] }

/-- A landing from a command, a loss or another track at the present boundary: the CRC is checked, and the effects
wait for their place in R39. -/
def Mod.landNow (m : Mod) (t cause cmd : Nat) : Mod :=
  let s := m.track t
  let l := m.landingOf t s.step
  let ok := m.landingOk l
  let m := if ok ∨ s.state = 3 then m else m.bump 0x4010 4
  let m := if ok ∧ s.state ≠ 3 then m.landLater t l else m
  m.becomeLanded t l cause cmd ok

/-! ### Track commands (R77 to R86) -/

/-- Codes: 1 START, 2 ABORT, 3 FORCE_ABORT, 4 PAUSE, 5 CONTINUE, 6 CLEAR. The outcome of a command in a state (R86):
0 COMMITTED, 1 STATE, 2 LATE. -/
def commandOutcome (code state : Nat) (abortable : Bool) : Nat :=
  match code with
  | 1 => if state = 1 ∨ state = 2 then 1 else 0
  | 2 => if state = 1 ∨ state = 2 then (if abortable then 0 else 1) else if state = 3 then 0 else if state = 4 then 2 else 1
  | 3 => if state = 1 ∨ state = 2 ∨ state = 3 then 0 else if state = 4 then 2 else 1
  | 4 => if state = 1 ∨ state = 2 then 0 else 1
  | 5 => if state = 1 ∨ state = 2 then 0 else 1
  | 6 => if state = 1 ∨ state = 2 then 1 else 0
  | _ => 1

/-- Whether the step a track stands in allows an abort (R87). -/
def Mod.abortable (m : Mod) (t : Nat) : Bool := tb (wordOf (m.stepE (m.track t).step) 0) 27

/-- The outcome of a command on track `t` as it stands. -/
def Mod.outcomeOf (m : Mod) (t code : Nat) : Nat := commandOutcome code (m.track t).state (m.abortable t)

/-- The outcome of a command at its arrival (R84): on a track that stands in no step yet an ABORT's outcome hangs on the
step that its boundary finds it in (R87; log entry 83). -/
def Mod.arrivalOutcome (m : Mod) (t code : Nat) : Nat :=
  commandOutcome code (m.track t).state (m.abortable t || decide ((m.track t).step = 0xFFFF))

/-- A track started at the present boundary (R77, R94), its request bits cleared (R221); `owner` is 0 where no association has
started it (log entry 114). -/
def Mod.startTrack (m : Mod) (t entry owner cmd : Nat) : Mod :=
  let e := lookD m.bank.entries entry 0
  let s := m.track t
  let m := { m with reqs := m.reqs.filterMap fun (p : Nat × Nat) =>
    let v := setBit p.2 t false
    if v = 0 then none else some (p.1, v) }
  let m := m.setTrack t { state := s.state, entryPoint := entry, dfltLanding := bits e 16 8, owner := owner,
                          entered := s.entered, entryTread := s.entryTread, lastExit := s.lastExit }
  m.setTrackState t 1 cmd

/-- CLEAR (R75, R86, R221): an idle track is in no step, and no timer runs for it (log entry 87). -/
def Mod.clearTrack (m : Mod) (t : Nat) : Mod :=
  let s := m.track t
  let m := { m with reqs := m.reqs.filterMap fun (p : Nat × Nat) =>
    let v := setBit p.2 t false
    if v = 0 then none else some (p.1, v) }
  if s.state = 0 then m else
  (m.setTrack t { s with step := 0xFFFF, timer := 0, curLanding := 0xFF, cause := 0, heldMask := 0 }).setTrackState t 0 6

/-- A track command at its boundary (R85, R86): `a` is the association that commits it. -/
def Mod.command (m : Mod) (t code entry a : Nat) : Mod :=
  let s := m.track t
  if m.outcomeOf t code ≠ 0 then m else
  match code with
  | 1 => m.startTrack t entry a 1
  | 2 => m.landNow t 1 2
  | 3 => m.landNow t 2 3
  | 4 => m.setTrackState t 2 4
  | 5 => if s.state = 2 then (m.setTrack t { s with countA := 0, countB := 0 }).setTrackState t 1 5 else m
  | 6 => m.clearTrack t
  | _ => m

end Sys2Proof.Machine
end

