-- ==== Sys2Proof/Machine/Recording.lean ====
section
/-! DEFINITION. Recording and capture (11): the assembly of blocks, the ring, channel maps, the data port, triggers
and capture windows. -/

namespace Sys2Proof.Machine

/-! ### Blocks (R257 to R261) -/

/-- The stream ID of a stream or capture window. -/
def streamId (s : Nat) : Nat := Min.min s 5

/-- Place of a group's kind within its tread: the level group and the capture header come first (R259, R265, R280). -/
def kindOrder (kind : Nat) : Nat := if kind = 5 ∨ kind = 9 then 0 else kind

/-- The groups of a block in order: by tread, then by kind (R259). -/
def orderGroups (l : List Group) : List Group :=
  sortBy (fun a b => decide (a.tread < b.tread) || decide (a.tread = b.tread ∧ kindOrder a.kind < kindOrder b.kind)) l

/-- The groups that fit into `room` bytes, and the rest: the entries left over of the group that fills it come first,
with the index of the first of them (R259, R260). -/
def fitGroups : List Group → Nat → List Group × List Group
  | [], _ => ([], [])
  | g :: l, room =>
    let w := entryWords g.kind
    if 8 + 4 * g.words.length ≤ room then
      let r := fitGroups l (room - 8 - 4 * g.words.length)
      (g :: r.1, r.2)
    else
      let k := (room - 8) / (4 * w)
      if room < 8 ∨ k = 0 then ([], g :: l)
      else ([{ g with words := g.words.take (k * w), keys := g.keys.take k }],
        { g with words := g.words.drop (k * w), keys := g.keys.drop k, from_ := g.from_ + k } :: l)

/-- Payload bytes of groups. -/
def payloadOf (l : List Group) : Nat := l.foldl (fun n g => n + 8 + 4 * g.words.length) 0
/-- Entries of groups. -/
def entriesOf (l : List Group) : Nat := l.foldl (fun n g => n + g.words.length / entryWords g.kind) 0

/-- The payload as words: each group's header and entries. -/
def payloadWords (first : Tread) (l : List Group) : List Nat :=
  l.flatMap fun g => ((g.tread - first) % 65536 + 2 ^ 16 * g.kind) ::
    (g.from_ + 2 ^ 16 * (g.words.length / entryWords g.kind)) :: g.words

/-- A block's header fields that its stream gives (R257, R258): map, sequence, flags of the map, the start and the capture. -/
structure BlockHead where
  seq : Nat
  mapId : Nat
  newMap : Bool
  start : Bool
deriving DecidableEq, Repr

/-- A block's 4 096 bytes (R257, R258). -/
def blockBytes (s : Nat) (h : BlockHead) (v : StreamSt) (first span gap : Nat) (carried : List Group) (more capLast : Bool) : Nat :=
  let flags := b2n (decide (gap ≠ 0)) + 2 * (if gap = 0 then 0 else v.cause) + 8 * b2n h.newMap + 16 * b2n h.start +
    32 * b2n more + 64 * b2n v.capFirst + 128 * b2n capLast + 256 * b2n v.short + 512 * b2n v.lost
  let head := streamId s + 2 ^ 8 + 2 ^ 16 * flags + 2 ^ 32 * (h.seq % 2 ^ 32) + 2 ^ 64 * first +
    2 ^ 128 * (entriesOf carried) + 2 ^ 144 * h.mapId + 2 ^ 160 * (Min.min gap 0xFFFFFFFF) +
    2 ^ 192 * (payloadOf carried) + 2 ^ 208 * span + 2 ^ 224 * v.capture
  let body := head + 2 ^ 256 * ofWords (payloadWords first carried)
  body + 256 ^ 4092 * crc32c (bytesAt body 0 4092)

/-- The level words of S2: bit i is the level of signal 0x940 + i (R265). -/
def levelWords (levels : Nat) : List Nat := lowWords 15 (levels % 2 ^ 452)

/-- Levels with the changes of edge words made in them. -/
def applyEdges (levels : Nat) (words : List Nat) : Nat :=
  words.foldl (fun l w => setBit l (w % 4096 - 0x940) (tb w 12)) levels

/-- The groups of a stream's open block up to tread `last`, in order. Every block of S2 opens with the levels at its first
tread, the changes stamped with that tread made (R265; log entry 98). -/
def Mod.blockGroups (m : Mod) (s : Nat) (first last : Tread) : List Group :=
  let l := orderGroups ((m.stream s).groups.filter fun g => decide (g.tread ≤ last))
  if s ≠ 2 then l else
  { tread := first, kind := 5, words := levelWords (applyEdges m.record.base
      ((l.filter fun g => decide (g.tread = first)).flatMap (·.words))) } :: l

/-- Treads after which every entry of a tread is there: a result may land after the next boundary (R163). -/
def lagOf (s : Nat) : Nat := if s = 0 ∨ 5 ≤ s then 2 else 1

/-- Whether an open block is full: the entries of the treads that are complete do not fit (R260). -/
def Mod.blockFull (m : Mod) (s : Nat) : Bool :=
  match (m.stream s).first with
  | some f => decide (lagOf s ≤ m.tread) && decide (4060 < payloadOf (m.blockGroups s f (m.tread - lagOf s)))
  | none => false

/-- The tread at which an open block ends at the latest (R260): its span reaches the age limit, or a new map begins. -/
def Mod.blockEnd (m : Mod) (s : Nat) (first : Tread) : Tread :=
  let e := first + 100 * m.cfg 0x3800 5
  match (m.stream s).mapEnds with
  | some t => Min.min e t
  | none => e

/-- One more block of stream slot `s` is counted: the sequence number of the stream advances, and the levels from which a
later block of S2 starts become `base` (R258, R265). -/
def Mod.countBlock (m : Mod) (s : Nat) (z : StreamSt) (base : Nat) : Mod :=
  { m with record := { m.record with closed := m.record.closed + 1, base := base } }.setStream (streamId s)
    { z with seq := (z.seq + 1) % 2 ^ 32 }

/-- A closed block waits to be written to the ring, and the stream goes on with `v`; while an earlier block still waits, it
is lost instead and counted in 0x3810+s:05 (R260, R261, R270): its first tread, or that of the gap before it, is then the start
of a gap. Either way the next block is not the first of its stream or capture (R258). `used` says that the block carried the
mark of a new map. -/
def Mod.drainBlock (m : Mod) (s : Nat) (v : StreamSt) (b : Block) (used : Bool) : Mod :=
  match v.drain with
  | none =>
    let m := m.setStream s { v with drain := some b, expect := b.next, cause := 0, capFirst := false }
    let z := m.stream (streamId s)
    m.setStream (streamId s) { z with start := false, newMap := z.newMap && !used }
  | some _ =>
    let m := (m.bump (0x3810 + streamId s) 5).setStream s
      { v with cause := if v.cause = 0 then 1 else v.cause, capFirst := false, lost := decide (5 ≤ s) }
    m.setStream (streamId s) { m.stream (streamId s) with start := false }

/-- The open block of a stream closed at tread `last`, or earlier: where its age or its map ends, or where it is full, with
the group that fills it; dropped when the other bank still drains (R260, R270). The next block begins where this one
ends. -/
def Mod.closeBlock (m : Mod) (s : Nat) (last : Tread) (capLast : Bool) : Mod :=
  let v := m.stream s
  let z := m.stream (streamId s)
  match v.first with
  | none => m
  | some first =>
    let upTo := Min.min last (m.blockEnd s first - 1)
    if upTo < first then m else
    let r := fitGroups (m.blockGroups s first upTo) 4060
    let lastT := if r.2.isEmpty then upTo else (r.1.getLast?.map (·.tread)).getD first
    let more := match r.2 with | g :: _ => decide (g.tread = lastT) | [] => false
    let span := lastT + 1 - first
    let next := first + span - b2n more
    let current := m.rov (0x3810 + streamId s) 3
    let h : BlockHead := { seq := z.seq, mapId := v.mapId, newMap := z.newMap && decide (v.mapId = current), start := z.start }
    let gap := if z.start then 0 else first - v.expect
    let b : Block := { stream := streamId s, first := first, span := span, gap := gap, cause := v.cause, next := next,
                       bytes := blockBytes s h v first span gap r.1 more (capLast && !more && decide (lastT = last)),
                       no := m.record.closed }
    let later := v.groups.filter fun g => decide (upTo < g.tread)
    let base := if s ≠ 2 then m.record.base else
      applyEdges m.record.base ((r.1.filter fun g => decide (g.kind = 4)).flatMap (·.words))
    let m := m.countBlock s z base
    let v : StreamSt := { m.stream s with groups := r.2 ++ later, first := some next }
    let v : StreamSt := if v.mapEnds = some next then { v with mapId := current, mapEnds := none } else v
    m.drainBlock s v b h.newMap

/-- BLOCK_CLOSE's effect (R260): a block that is full, that has reached its age or whose map has changed. -/
def Mod.blockClose (m : Mod) (s : Nat) : Mod :=
  match (m.stream s).first with
  | none => m
  | some first =>
    if s ≤ 6 ∧ (m.blockFull s ∨ m.blockEnd s first + lagOf s ≤ m.tread + 1) then m.closeBlock s (m.tread - lagOf s) false else m

/-! ### The ring (R256) -/

/-- Block `b` of stream slot `s` stands in the ring under sequence `n`: its count and the ring's newest and oldest sequence. -/
def Mod.noteRing (m : Mod) (s : Nat) (v : StreamSt) (b : Block) (n : Nat) : Mod :=
  (((m.setStream s { v with drain := none, ringExpect := b.next }).bump (0x3810 + b.stream) 4).setRo 0x3800 3 n).setRo
    0x3800 4 (if n < ringSize then 0 else n + 1 - ringSize)

/-- A gap before block `b` is counted for its stream, with its treads, its start and its length (R261). -/
def Mod.noteGap (m : Mod) (b : Block) : Mod :=
  if b.gap = 0 then m else
  (((m.setStream b.stream { m.stream b.stream with gaps := (m.stream b.stream).gaps + 1 }).bumpBy (0x3810 + b.stream) 6
    b.gap).setRo (0x3810 + b.stream) 7 (b.first - b.gap)).setRo (0x3810 + b.stream) 8 (Min.min b.gap 0xFFFFFFFF)

/-- A stream's drained block takes the next ring sequence; its gap is counted (R256, R261). Of an overwritten block that
the data port has not sent, the index stays for the port's gap notice (R276). -/
def Mod.writeDrain (m : Mod) (s : Nat) : Mod :=
  let v := m.stream s
  match v.drain with
  | none => m
  | some b =>
    let r := m.record
    let n := r.next
    let unsent := if m.cfg 0x3838 1 = 1 then m.rov 0x3838 0x0F else n
    let ring := ((put r.ring n b).filter fun p => decide (n < p.1 + ringSize ∨ unsent ≤ p.1)).map fun p =>
      if n < p.1 + ringSize then p else (p.1, { p.2 with bytes := 0 })
    ((m.setRecord { r with ring := ring, next := n + 1, bytes := r.bytes + 4096 }).noteRing s v b n).noteGap b

/-- The streams whose drained blocks closed no later than block `n`, in the order in which they closed. -/
def Mod.drainsTo (m : Mod) (n : Nat) : List Nat :=
  (sortBy (fun (a b : Nat × Nat) => decide (a.1 < b.1)) ((List.range 7).filterMap fun s =>
    match (m.stream s).drain with
    | some b => if b.no ≤ n then some (b.no, s) else none
    | none => none)).map (·.2)

/-- RING_WRITE's effect: blocks are written in the order in which they close, so those that closed before the block of the
stream named are written before it (R256). -/
def Mod.ringWrite (m : Mod) (s : Nat) : Mod :=
  match (m.stream s).drain with
  | none => m
  | some b => overAll (m.drainsTo b.no) (fun m k => m.writeDrain k) m

/-- The open block of a stream closed up to tread `last`, in as many blocks as its entries, its age and its map need; each
but the last has drained before the next one closes. -/
def Mod.closeDown (m : Mod) (s : Nat) (last : Tread) (capLast : Bool) : Nat → Mod
  | 0 => m
  | n + 1 =>
    let m := m.closeBlock s last capLast
    match (m.stream s).first with
    | none => m
    | some f => if last < f then m else (m.ringWrite s).closeDown s last capLast n

/-- Blocks that a closing can need at most: one per group and entry, one per tread. -/
def Mod.blocksLeft (m : Mod) (s : Nat) (last : Tread) : Nat :=
  (m.stream s).groups.foldl (fun n g => n + 1 + g.words.length) 2 + (last + 1 - (m.stream s).first.getD last)

/-- A stream stops at tread `last`: its open block closes, and the stream waits for its next one. -/
def Mod.endStream (m : Mod) (s : Nat) (last : Tread) (capLast : Bool) : Mod :=
  let m := m.closeDown s last capLast (m.blocksLeft s last)
  m.setStream s { m.stream s with first := none, groups := [] }

/-- Recording disabled for a stream (R260, R282): its next block carries the start flag. -/
def Mod.disableStream (m : Mod) (s : Nat) : Mod :=
  let m := overAll (if s = 5 then [5, 6] else [s]) (fun (m : Mod) k =>
    if (m.stream k).first.isNone then m else m.endStream k (m.tread - 1) false) m
  m.setStream s { m.stream s with start := true }

/-- The ring window at a sequence number (R256). -/
def Mod.ringWindow (m : Mod) (n : Nat) : Nat := match look m.record.ring n with | some b => b.bytes | none => 0

/-! ### Chains into streams (R271 to R273) -/

/-- The words of a chain's packets, and where a gap marker stands its tread. -/
def unpackWords : List ReaderWord → List Nat → List (List Nat × Option Tread)
  | [], _ => []
  | w :: l, acc =>
    if w.gap then ([], some (w.bytes / 2 ^ 32 % 2 ^ 64)) :: unpackWords l []
    else
      let n := if w.valid = 0 then 8 else (w.valid + 3) / 4
      let ws := acc ++ lowWords n w.bytes
      if w.last then (ws, none) :: unpackWords l [] else unpackWords l ws

/-- The tread that a packet's low 32 bits name, at or before the present one (R273). -/
def Mod.fullTread (m : Mod) (low : Nat) : Tread := m.tread - (m.tread + 2 ^ 32 - low % 2 ^ 32) % 2 ^ 32

/-- What the assembler takes from a chain as a tread ends: entries into the open block, S2's in signal order; a gap marker
closes it, and the gap runs from the marker's tread to the tread that begins: packets behind the marker fall into it (R265,
R273; log entry 126). -/
def Mod.drainPackets (m : Mod) (s kind : Nat) (l : List (List Nat × Option Tread)) : Mod :=
  overAll l (fun (m : Mod) p =>
    match p.2 with
    | some t =>
      if (m.stream s).first.isNone then m else
      let m := m.closeDown s (Min.min t (m.tread + 1) - 1) false (m.blocksLeft s t)
      let m := if s = 2 then { m with record := { m.record with base := m.levels } } else m
      m.setStream s { m.stream s with first := some (m.tread + 1), groups := [], cause := 3 }
    | none =>
      match p.1 with
      | low :: ws =>
        if kind = 4 then overAll ws (fun (m : Mod) w => m.recAt s (m.fullTread low) kind (w % 4096) [w]) m
        else m.rec_ s (m.fullTread low) kind ws
      | [] => m) m

/-- Both chains read empty: the reader takes a word per FAB cycle (R272). -/
def Mod.drainChains (m : Mod) : Mod :=
  let w2 := unpackWords m.chain2.words []
  let w4 := unpackWords m.chain4.words []
  ({ m with chain2 := {}, chain4 := {} }.drainPackets 2 4 w2).drainPackets 4 7 w4

/-! ### Channel maps (R269) -/

/-- Little-endian fields: value and size in bytes. -/
def fieldsLe : List (Nat × Nat) → Nat
  | [] => 0
  | (v, n) :: l => v % 256 ^ n + 256 ^ n * fieldsLe l

/-- The record interval of a loop (R264). -/
def recordInterval (k : Nat) : Nat := if 10 < k then k else 10 / k * k

/-- The entries of a stream's map with their size. -/
def Mod.mapEntries (m : Mod) (s : Nat) : Nat × List Nat :=
  match s with
  | 0 => (32, ((List.range 256).filter (m.selected 0)).map fun x =>
      let f := fun sub => m.inForce (0x3000 + x) sub
      let c := m.calOf x (f 1)
      fieldsLe [(x, 2), (f 1, 1), (f 3, 1), (f 2, 2), (f 2 / Max.max 1 (m.slotsOf x), 2), (f 4, 2), (f 9, 1),
        (b2n !m.tileAwake (x / 4), 1), (c.1, 4), (c.2, 4), (m.cfg (0x3000 + x) 0x0A, 4), (m.cfg (0x3000 + x) 0x0B, 4),
        (m.rov (0x3100 + x / 4) 3, 2), (0, 2)])
  | 1 => (8, (m.scheduled.filter fun p => m.selected 1 p.1).map fun p =>
      fieldsLe [(p.1, 2), (m.cfg (0x2200 + p.1) 0x0E, 2), (recordInterval p.2.1, 2), (0, 2)])
  | 3 => (4, ((List.range 32).filter (m.selected 3)).map fun a =>
      fieldsLe [(a, 1), (b2n !tb m.tiles.awake (8 + a / 8), 1), (0, 2)])
  | 5 => (16, ((List.range 16).filter fun j => decide (m.cfg 0x3850 (j + 1) ≠ 0xFFF)).map fun j =>
      let x := m.cfg 0x3850 (j + 1) - 0x800
      let c := m.calOf x (m.inForce (0x3000 + x) 1)
      fieldsLe [(x, 2), (m.inForce (0x3000 + x) 1, 1), (0, 1), (c.1, 4), (c.2, 4), (m.rov (0x3100 + x / 4) 3, 2), (0, 2)])
  | _ => (0, [])

/-- The description of a stream's present map. -/
def Mod.mapBytes (m : Mod) (s id : Nat) (first : Tread) : Nat :=
  let e := m.mapEntries s
  fieldsLe [(s, 1), (1, 1), (id, 2), (e.2.length, 2), (e.1, 2), (first, 8)] +
    2 ^ 128 * fieldsLe (e.2.map fun v => (v, e.1))

/-- A stream's present map kept with its first tread, the last 16 of each stream (R269). -/
def Mod.keepMap (m : Mod) (s : Nat) (first : Tread) : Mod :=
  let id := m.rov (0x3810 + s) 3
  let r := m.record
  let l := r.maps.filter fun p => decide (p.1 / 65536 ≠ s ∨ (id + 65536 - p.1 % 65536) % 65536 < 16)
  m.setRecord { r with maps := put l (s * 65536 + id) (m.mapBytes s id first) }

/-- The map of an open block changes at the present tread: the block closes at the last tread under the old map (R260). -/
def Mod.remap (m : Mod) (k id : Nat) : Mod :=
  let old := (m.stream k).first.getD m.tread
  let m := if (m.stream k).mapEnds.isSome then m.closeDown k (m.tread - 1) false (m.blocksLeft k m.tread) else m
  m.setStream k (if old < m.tread then { m.stream k with mapEnds := some m.tread }
    else { m.stream k with mapId := id, mapEnds := none })

/-- Channel maps that change take a new ID at a flight boundary (R269). -/
def Mod.mapPass (m : Mod) : Mod :=
  overAll [0, 1, 3, 5] (fun (m : Mod) s =>
    match (m.stream s).mapDue with
    | none => m
    | some d =>
      if m.tread < d then m else
      let m := (m.setStream s { m.stream s with mapDue := none, newMap := true }).bump (0x3810 + s) 3
      let m := overAll (if s = 5 then [5, 6] else [s]) (fun (m : Mod) k => m.remap k (m.rov (0x3810 + s) 3)) m
      let m := if s = 5 then m.setRo 0x3850 0x11 (m.rov 0x3815 3) else m
      m.keepMap s m.tread) m

/-! ### Starting, halting and losing streams -/

/-- A stream's first map kept as it starts (R269). -/
def Mod.firstMap (m : Mod) (s : Nat) (t : Tread) : Mod :=
  if (look m.record.maps (s * 65536 + m.rov (0x3810 + s) 3)).isSome then m else m.keepMap s t

/-- The maps at a return to service at boundary `t` (R269): a stream whose map is not the one last kept takes a new ID. -/
def Mod.newMaps (m : Mod) (t : Tread) : Mod :=
  overAll [0, 1, 3, 5] (fun (m : Mod) s =>
    let id := m.rov (0x3810 + s) 3
    match look m.record.maps (s * 65536 + id) with
    | none => m
    | some b =>
      if b / 2 ^ 128 = m.mapBytes s id t / 2 ^ 128 then m else
      let m := (m.setStream s { m.stream s with mapDue := none, newMap := true }).bump (0x3810 + s) 3
      let m := if s = 5 then m.setRo 0x3850 0x11 (m.rov 0x3815 3) else m
      m.keepMap s t) m

/-- A stream's block opened at tread `t`, with what the gap before it was due to. -/
def Mod.openBlock (m : Mod) (s : Nat) (t : Tread) : Mod :=
  let v := m.stream s
  let m := m.setStream s { v with first := some t, expect := if (m.stream (streamId s)).start then t else v.expect,
                                  mapId := m.rov (0x3810 + streamId s) 3, mapEnds := none }
  if s = 2 then { m with record := { m.record with base := m.levels } } else m

/-- Enabled streams that have no open block begin one at tread `t`, capture windows that stand open among them. -/
def Mod.openStreams (m : Mod) (t : Tread) : Mod :=
  let m := overAll (List.range 6) (fun (m : Mod) s => m.firstMap s t) m
  overAll (List.range 7) (fun (m : Mod) s =>
    if m.cfg (0x3810 + streamId s) 1 = 0 ∨ (m.stream s).first.isSome ∨
      (5 ≤ s ∧ !(m.record.windows.any fun w => decide (w.slot = s))) then m else m.openBlock s t) m

/-- Recording halts (R282): open blocks close at tread `last`, and the next ones carry the cause. -/
def Mod.haltStreams (m : Mod) (last : Tread) (cause : Nat) : Mod :=
  overAll (List.range 7) (fun (m : Mod) s =>
    if (m.stream s).first.isNone then m else
    let m := m.endStream s last false
    m.setStream s { m.stream s with cause := cause }) m

/-- Open blocks and the chains lost in a logic reset (R283), windows ended; the buffer of conversions, in LPDDR5, keeps its
contents (R286). -/
def Mod.loseStreams (m : Mod) : Mod :=
  let m := overAll (List.range 7) (fun (m : Mod) s =>
    let v := m.stream s
    m.setStream s { v with first := none, groups := [], expect := v.ringExpect, drain := none,
                           cause := if v.start then 0 else 2 }) m
  let last := Max.max (m.stream 5).expect (m.stream 6).expect
  let m := overAll [5, 6] (fun (m : Mod) s => m.setStream s { m.stream s with expect := last }) m
  { m with chain2 := {}, chain4 := {}, record := { m.record with windows := [], fires := [] } }.setRo 0x3850 0x12 0

/-- The page of a map description that a selector names (0x3830:02). -/
def Mod.mapWindow (m : Mod) (sel : Nat) : Nat :=
  lookD m.record.maps (bits sel 16 3 * 65536 + bits sel 0 16) 0 / 256 ^ (4096 * bits sel 19 2) % 256 ^ 4096

/-! ### The data port (R274 to R276) -/

/-- Whether the port sends: enabled, link up, not held by PAUSE. -/
def Mod.portRuns (m : Mod) : Bool :=
  decide (m.cfg 0x3838 1 = 1 ∧ m.rov 0x3838 0x0E = 1 ∧ m.record.pausedTo ≤ m.tread) && !m.blockIn 15

/-- How a payload is framed (R274): the VLAN tag, then the destination MAC address and the EtherType, or the flags with DF set,
the addresses, ports and checksum of UDP over IPv4. -/
def Mod.dpFraming (m : Mod) (payload : List Nat) : List Nat :=
  let c := fun sub => m.cfg 0x3838 sub
  let tag := if tb (c 9) 12 then clrBits (c 9) 4096 + 65536 else 0
  if tb (c 2) 0 then
    [tag, c 4, 1, dfFlag, c 5, c 6, c 8, c 7, udpChecksum (c 5) (c 6) (c 8) (c 7) payload]
  else [tag, c 4, 0, c 3]

/-- A frame of the port: the 16-byte header of R275 and what follows it, with its framing; each counts in 0x3838:0C. -/
def Mod.dpFrame (m : Mod) (kind segment seq : Nat) (body : List Nat) : Mod :=
  let payload := [1, kind % 256, segment % 256, 0] ++ leBytes 4 (m.rov 0x3838 0x0C) ++ leBytes 8 seq ++ body
  { m with out := m.out ++ [Out.msg (0x80 + kind) 0 (m.dpFraming payload ++ payload)] }.bump 0x3838 0x0C

/-- Treads that the blocks of a stream cover: one that continues in the next block counts once. -/
def treadsOf : List Block → Nat
  | [] => 0
  | [b] => b.span
  | b :: c :: l => Min.min b.span (c.first - b.first) + treadsOf (c :: l)

/-- What a gap notice says of one stream: first tread, treads and blocks skipped (R275). -/
def skippedOf (l : List (Nat × Block)) (s : Nat) : List Nat :=
  let l := (l.filter fun p => decide (p.2.stream = s)).map (·.2)
  match l with
  | [] => List.replicate 16 0
  | p :: _ => leBytes 8 p.first ++ leBytes 4 (treadsOf l) ++ leBytes 4 l.length

/-- The block frames of the port in its framing: one frame, or three segments (R274). -/
def Mod.sendBlock (m : Mod) (n bytes : Nat) : Mod :=
  let l := leBytes 4096 bytes
  if tb (m.cfg 0x3838 2) 1 then m.dpFrame 1 4 n l
  else
    let m := m.dpFrame 2 12 n (l.take 1368)
    let m := m.dpFrame 2 13 n ((l.drop 1368).take 1368)
    m.dpFrame 2 14 n (l.drop 2736)

/-- DP_SEND's effect: the next block, after a gap notice where it has been overwritten (R276). -/
def Mod.dpSend (m : Mod) : Mod :=
  if !m.portRuns then m else
  let n := m.rov 0x3838 0x0F
  let old := m.ringOldest
  let m := if n < old then
      let k := old - n
      let skipped := (List.range 6).flatMap fun s => skippedOf (m.record.ring.filter fun p => decide (n ≤ p.1 ∧ p.1 < old)) s
      let m := ((m.dpFrame 3 4 old (leBytes 8 n ++ leBytes 4 k ++ leBytes 4 0 ++ skipped)).bumpBy 0x3838 0x0D k).setRo 0x3838 0x0F old
      m.setRecord { m.record with ring := m.record.ring.filter fun p => decide (old ≤ p.1) }
    else m
  let n := m.rov 0x3838 0x0F
  match look m.record.ring n with
  | some b => (m.sendBlock n b.bytes).setRo 0x3838 0x0F (n + 1)
  | none => m

/-- DP_STATUS's effect: a status frame every 100 flights (R275). -/
def Mod.dpStatus (m : Mod) : Mod :=
  if !m.portRuns ∨ m.tread / 100 % 100 ≠ 0 ∨ m.record.status = some (m.tread / 100) then m else
  (m.setRecord { m.record with status := some (m.tread / 100) }).dpFrame 4 4 (m.record.next - 1) (leBytes 8 m.tread ++ leBytes 8 m.ringOldest)

/-- PAUSE_FRAME's effect (R274): 512 bit times of 10 Gb/s per quantum. -/
def Mod.pauseFrame (m : Mod) (quanta : Nat) : Mod :=
  if m.cfg 0x3838 0x0B ≠ 1 then m else
  m.setRecord { m.record with pausedTo := m.tread + (quanta % 65536 * 512 + 99999) / 100000 }

/-- The port enabled (R276): it starts at the newest or the oldest held block. -/
def Mod.dpStart (m : Mod) : Mod :=
  m.setRo 0x3838 0x0F (if m.cfg 0x3838 0x0A = 0 then m.record.next - 1 else m.ringOldest)

/-! ### Triggers (R277 to R281) -/

/-- The value that a trigger's signal has in the committed state of the tread, as F32 (R277). -/
def Mod.trigValue (m : Mod) (k : Nat) : Nat := (m.frozen.sig (m.trigCfg k 2)).toF

/-- Whether a value lies in the trigger's window. -/
def Mod.inWindow (m : Mod) (k v : Nat) : Bool := cmpF Dy.le (m.trigCfg k 5) v && cmpF Dy.le v (m.trigCfg k 6)

/-- Whether a value meets the condition of a trigger of kinds 1 to 3. -/
def Mod.valueMeets (m : Mod) (k v : Nat) : Bool :=
  let s := m.trig k
  let thr := m.trigCfg k 5
  let c := m.trigCfg k 4
  match m.trigCfg k 1 with
  | 1 => if c = 0 then cmpF Dy.lt thr v else cmpF Dy.lt v thr
  | 2 =>
    if digital (m.trigCfg k 2) && decide (m.trigCfg k 3 = 0xFF) then
      (match s.prev with
       | some p => decide (p ≠ v) && (decide (c = 2) || decide (c = 0) == cmpF Dy.lt p v)
       | none => false)
    else
      (match s.prev with
       | some p => (decide (c ≠ 1) && s.wasLow && cmpF Dy.le p thr && cmpF Dy.lt thr v) ||
           (decide (c ≠ 0) && s.wasHigh && cmpF Dy.le thr p && cmpF Dy.lt v thr)
       | none => false)
  | 3 =>
    (match s.prev with
     | some p => if c = 0 then !m.inWindow k p && m.inWindow k v else m.inWindow k p && !m.inWindow k v
     | none => false)
  | _ => false

/-- Whether a track entered the step that a trigger names at the present boundary (kind 4). -/
def Mod.stepMeets (m : Mod) (k : Nat) : Bool :=
  let w := m.trigCfg k 8
  let s := m.track (bits w 0 4)
  decide (s.entryTread = m.tread ∧ s.step ≠ 0xFFFF ∧ 0 < s.entered) &&
    (decide (bits w 16 16 = 0xFFFF) || decide (bits w 16 16 = s.step))

/-- Whether a trigger's condition is met in the present tread: a raw code of its slot, an edge of its input, the
committed state otherwise. -/
def Mod.trigMeets (m : Mod) (k : Nat) (raw : Option Int) (falling : Bool) : Bool :=
  match m.trigCfg k 1 with
  | 4 => m.stepMeets k
  | 5 => decide (m.trigCfg k 4 = 2) || (decide (m.trigCfg k 4 = 1) == falling)
  | 0 => false
  | _ =>
    if m.trigCfg k 3 = 0xFF then m.valueMeets k (m.trigValue k)
    else match raw with
      | some c => m.valueMeets k (toF32 (Dy.ofInt c))
      | none => false

/-- A capture window opened (R280): its header group and the samples already held. -/
def Mod.openCapture (m : Mod) (k off : Nat) : Mod :=
  let pre := m.preHeld (m.trigCfg k 9)
  let post := m.trigCfg k 0x0A
  let r := m.record
  let slot := if r.windows.any fun w => decide (w.slot = 5) then 6 else 5
  let first := m.tread - pre
  let m := m.setRecord { r with windows := r.windows ++ [{ trig := k, slot := slot, first := first, last := m.tread + post - 1 }],
                                captures := r.captures + 1 }
  let m := m.setRo 0x3850 0x12 m.record.windows.length
  if m.cfg 0x3815 1 = 0 then m else
  let v := m.stream slot
  let m := m.setStream slot
    { v with groups := [], first := some first, expect := if v.cause = 2 then v.expect else first, mapId := m.rov 0x3815 3, mapEnds := none,
             capture := r.captures, capFirst := true, short := decide (pre < m.trigCfg k 9), lost := false,
             cause := if v.cause = 2 then 2 else 0 }
  let m := m.setStream (11 - slot) { m.stream (11 - slot) with cause := if v.cause = 2 then 0 else (m.stream (11 - slot)).cause }
  let head := [r.captures, k, m.tread % 2 ^ 32, m.tread / 2 ^ 32, off + 65536 * pre, post]
  let m := m.rec_ slot first 9 head
  let v := m.stream slot
  m.setStream slot { v with groups := v.groups ++ r.buffer.filter fun g => decide (first ≤ g.tread) }

/-- A trigger that has acted moves on (R279): to hold-off, back to armed, or exhausted. -/
def Mod.trigNext (m : Mod) (k : Nat) : Mod :=
  let take := m.trigCfg k 0x0D
  if take ≠ 0 ∧ take ≤ (m.trig k).taken then m.setRo (0x3840 + k) 0x0F 4 else m.holdOff k m.tread

/-- Converters whose injected sequences name a trigger fire (R164, R278). -/
def Mod.fireConverters (m : Mod) (k off : Nat) : Mod :=
  overAll ((List.range 64).filter fun c => decide (m.inForce (0x3140 + c) 0x18 = k)) (fun m c => m.fire c off) m

/-- When a firing is decided (R278), in ns of the tread. -/
def decidedAt (kind off : Nat) (raw : Bool) : Nat :=
  if kind = 5 then off + 50 else if kind = 4 then 500 else if raw then off + 1500 else 1300

/-- A firing that asks for a window, as its tread ends (R281): it opens one unless two stand open, and the trigger captures. -/
def Mod.openFire (m : Mod) (k place : Nat) : Mod :=
  let refused := decide (2 ≤ m.record.windows.length)
  let m' := m.logS4 8 k (if refused then 0 else m.record.captures) place (b2n refused)
  if refused then (m'.bump 0x3850 0x14).bump (0x3840 + k) 0x11
  else (m'.openCapture k place).setRo (0x3840 + k) 0x0F 2

/-- The firings of the tread that ask for a window, the lower trigger numbers first (R281). -/
def Mod.openFires (m : Mod) : Mod :=
  if m.record.fires.isEmpty then m else
  overAll (sortBy (fun (a b : Nat × Nat) => decide (a.1 < b.1)) m.record.fires) (fun (m : Mod) p => m.openFire p.1 p.2)
    (m.setRecord { m.record with fires := [] })

/-- A trigger fires (R278 to R281): at once but for its window, which waits for the end of the tread, so that the lower trigger
numbers come first. -/
def Mod.fireTrigger (m : Mod) (k off : Nat) (raw : Bool) : Mod :=
  let kind := m.trigCfg k 1
  let place := if kind = 5 ∨ raw then off else 0
  let post := m.trigCfg k 0x0A
  let m := m.setTrig k { m.trig k with fired := some m.tread, wasLow := false, wasHigh := false }
  let m := ((m.bump (0x3840 + k) 0x10).setRo (0x3840 + k) 0x12 m.tread).setRo (0x3840 + k) 0x13 place
  let m := m.fireConverters k (decidedAt kind place raw)
  if post = 0 then (m.logS4 8 k 0 place 0).trigNext k
  else m.setRecord { m.record with fires := m.record.fires ++ [(k, place)] }

/-- TRIGGER_FIRE's effect: an armed trigger whose condition is met, once per tread; in hold-off by count the event
passes without acting (R277, R279). While the capture unit is in reset no trigger fires (R290). -/
def Mod.triggerFire (m : Mod) (k off : Nat) (raw : Option Int) (falling : Bool) : Mod :=
  let s := m.trig k
  let m := if m.trigCfg k 1 = 5 ∧ k < 8 then m.trgEdge (m.trigCfg k 8 % 4) falling else m
  if 8 ≤ k ∨ m.blockIn 14 ∨ s.fired = some m.tread ∨ !m.trigMeets k raw falling then m
  else if m.trigState k = 1 then m.fireTrigger k off (raw.isSome && decide (m.trigCfg k 3 ≠ 0xFF))
  else if m.trigState k = 3 ∧ m.trigCfg k 0x0B = 2 then
    let m := m.setTrig k { s with left := s.left - 1, fired := some m.tread, wasLow := false, wasHigh := false }
    if s.left ≤ 1 then m.setRo (0x3840 + k) 0x0F 1 else m
  else m

/-- The Arm object written (R279). -/
def Mod.triggerArm (m : Mod) (k v : Nat) : Mod :=
  let st := m.trigState k
  if v = 1 then
    (if st = 0 ∨ st = 4 then (m.setTrig k {}).setRo (0x3840 + k) 0x0F 1 else m)
  else m.setRo (0x3840 + k) 0x0F 0

/-- HOLD_OFF_END's effect (R279): the treads of a hold-off by time have passed. -/
def Mod.holdOffEnd (m : Mod) (k : Nat) : Mod :=
  if m.trigState k = 3 ∧ m.trigCfg k 0x0B = 1 ∧ (m.trig k).holdFrom + m.trigCfg k 0x0C ≤ m.tread then
    m.setRo (0x3840 + k) 0x0F 1
  else m

/-- CAPTURE_WINDOW_CLOSE's effect (R280): the window's last tread has been written. -/
def Mod.windowClose (m : Mod) (k : Nat) : Mod :=
  match m.record.windows.find? fun w => decide (w.trig = k ∧ w.last < m.tread) with
  | none => m
  | some w =>
    let m := m.endStream w.slot w.last true
    let m := m.setRecord { m.record with windows := m.record.windows.filter fun x => !decide (x = w) }
    let m := (m.setRo 0x3850 0x12 m.record.windows.length).bump 0x3850 0x13
    let m := m.setTrig k { m.trig k with taken := (m.trig k).taken + 1 }
    if m.trigState k = 2 then m.trigNext k else m

/-- Windows open for the firings of the tread that ends; the triggers on a signal remember its value; the buffer keeps 16 384 treads (R277, R280). -/
def Mod.trigPass (m : Mod) : Mod :=
  let m := m.openFires
  let m := overAll (List.range 8) (fun m k =>
    if m.trigState k = 0 ∨ m.trigCfg k 1 = 0 ∨ 3 < m.trigCfg k 1 ∨ m.trigCfg k 3 ≠ 0xFF then m
    else m.remember k (m.trigValue k)) m
  if m.record.buffer.isEmpty then m else
  m.setRecord { m.record with buffer := m.record.buffer.filter fun g => decide (m.tread < g.tread + 16384),
                              bufSince := Max.max m.record.bufSince (m.tread - 16384) }

/-- Whether a trigger, or for slots any trigger, is armed or has a window open (R281). -/
def Mod.trigBusy (m : Mod) (k : Nat) : Bool :=
  decide (m.trigState k ≠ 0 ∧ m.trigState k ≠ 4) || m.record.windows.any fun w => decide (w.trig = k)

/-- Results of the loops recorded at their release (R264). -/
def Mod.recordLoops (m : Mod) : Mod :=
  overAll m.released (fun (m : Mod) p =>
    match m.sched p.1 with
    | some (k, phi) =>
      if m.selected 1 p.1 ∧ (m.tread + recordInterval k - phi) % recordInterval k = 0 then
        m.rec_ 1 m.tread 3 [toF32 p.2.sp, toF32 p.2.pvf, toF32 p.2.e, toF32 p.2.u]
      else m
    | none => m) m

end Sys2Proof.Machine
end

