-- ==== Sys2Proof/Machine/SafetyDomain.lean ====
section
/-! DEFINITION. The safety domain (09): safety cycles with pattern checks, pairs and their conditions, degraded mode,
cuts of bank supplies, dark tests of safe outputs, safe stop, the confirmed safety reset, and ALIVE (R343). -/

namespace Sys2Proof.Machine

/-- The degraded window of the active configuration in ms (R226). -/
def Mod.degradedMs (m : Mod) : Nat := m.act 0x3500 7 * 60000

/-- A safety pair's event in the gallery (R227): side 0 input, 1 output; event 0 fault, 1 degraded, 2 expiry, 3 reset. -/
def Mod.pairEvent (m : Mod) (side k code event : Nat) : Mod := m.logGal 0x041 k [side, k, code, event]

/-! ### Cuts -/

/-- The banks that any pair of the active configuration names (R222). -/
def Mod.linkedBanks (m : Mod) : Nat := (List.range 8).foldl (fun w p => orBits w (m.act (0x3530 + p) 5 % 64)) 0

/-- The banks that are cut: those of the pairs that are off (R222), those of every pair in safe stop and restart (R210,
R212), and those a confirmed safety reset cut, until the domain runs again. -/
def Mod.cutMask (m : Mod) : Nat :=
  orBits m.safety.cutHold (if m.safety.dom = 1 then
    (List.range 8).foldl (fun w p => if (m.safOut p).on then w else orBits w (m.act (0x3530 + p) 5 % 64)) 0
  else m.linkedBanks)

/-- Bank supplies cut or released as the pairs stand (R199, R222). -/
def Mod.cutPass (m : Mod) : Mod :=
  let w := m.cutMask
  let cuts := (List.range 6).filter fun b => tb w b && decide ((m.fbank b).state ≠ 2)
  let ends := (List.range 6).filter fun b => !tb w b && decide ((m.fbank b).state = 2)
  if cuts.isEmpty && ends.isEmpty then m else
  let m := overAll cuts (fun m b => m.setFbank b { m.fbank b with state := 2, byCut := true, req := none }) m
  let m := overAll ends (fun m b => m.setFbank b { m.fbank b with state := 1 }) m
  m.darkPass.setLevels

/-- A channel of an output pair, 0 A or 1 B. -/
def SafOutSt.ch (s : SafOutSt) (c : Nat) : SafSwSt := if c = 0 then s.a else s.b
/-- A channel of an output pair set. -/
def SafOutSt.setCh (s : SafOutSt) (c : Nat) (x : SafSwSt) : SafOutSt := if c = 0 then { s with a := x } else { s with b := x }
/-- A channel of an input pair, 0 A or 1 B. -/
def SafInSt.ch (s : SafInSt) (c : Nat) : SafChSt := if c = 0 then s.a else s.b
/-- A channel of an input pair set. -/
def SafInSt.setCh (s : SafInSt) (c : Nat) (x : SafChSt) : SafInSt := if c = 0 then { s with a := x } else { s with b := x }

/-- A pair switched off (R218, R220): in manual mode it needs a restart. -/
def SafOutSt.off (s : SafOutSt) (manual : Bool) (cycle : Nat) : SafOutSt :=
  { s with on := false, delay := none, needRestart := s.needRestart || manual, a := { s.a with low := 0 },
           b := { s.b with low := 0 }, offAt := if s.on then some cycle else s.offAt }

/-- A pair switched on (R218, R220); a test passed while it was off says nothing of a later fault reset (R227). -/
def SafOutSt.switchOn (s : SafOutSt) : SafOutSt :=
  { s with on := true, delay := none, a := { s.a with tested := false }, b := { s.b with tested := false } }

/-- Every safe output off (R210, R212). -/
def Mod.allOff (m : Mod) : Mod :=
  overAll (List.range 8) (fun m p =>
    if (m.safOut p).on then m.setSafOut p ((m.safOut p).off (decide (m.act (0x3530 + p) 3 = 0)) m.safety.cycle) else m) m

/-! ### Faults -/

/-- A fault found on channel 0 A or 1 B of an input pair (R215, R226). -/
def Mod.inputFault (m : Mod) (k ch code : Nat) : Mod :=
  let s := m.safIn k
  if s.latched ∨ (s.ch ch).fault then m else
  let t := s.setCh ch { s.ch ch with fault := true }
  if s.faulted then (m.setSafIn k { t with fault := 12, latched := true, left := 0 }).pairEvent 0 k 12 0
  else (m.setSafIn k { t with fault := code, left := m.degradedMs }).pairEvent 0 k code 1

/-- An output pair latched (R225, R226): off at once, its banks cut. -/
def Mod.latchOut (m : Mod) (p code event : Nat) : Mod :=
  let s := (m.safOut p).off true m.safety.cycle
  ((m.setSafOut p { s with fault := code, latched := true, left := 0 }).pairEvent 1 p code event).cutPass

/-- A channel of an output pair that fails on (R225); a fault that is found again must be tested anew (R227). -/
def Mod.failsOn (m : Mod) (p ch : Nat) : Mod :=
  let s := m.safOut p
  if s.latched ∨ (s.ch ch).fault then m.setSafOut p (s.setCh ch { s.ch ch with tested := false }) else
  let t := s.setCh ch { s.ch ch with fault := true, tested := false }
  if s.faulted then (m.setSafOut p t).latchOut p 12 0
  else (m.setSafOut p { t with fault := 7 + ch, left := m.degradedMs }).pairEvent 1 p (7 + ch) 1

/-- OUTPUT_FAILS_OFF's effect (R225): the channel has read low for 2 ms while commanded on. -/
def Mod.failsOff (m : Mod) (p ch : Nat) : Mod :=
  let s := m.safOut p
  if 8 ≤ p ∨ 2 ≤ ch ∨ !s.on ∨ s.latched ∨ (s.ch ch).fault ∨ (s.ch ch).low < 2 then m else
  (m.setSafOut p (s.setCh ch { s.ch ch with fault := true, tested := false })).latchOut p (if s.faulted then 12 else 9 + ch) 0

/-- DEGRADED_WINDOW_EXPIRY's effect (R226). -/
def Mod.windowExpiry (m : Mod) (side k : Nat) : Mod :=
  if side = 0 then
    let s := m.safIn k
    if 16 ≤ k ∨ s.latched ∨ s.left ≠ 0 ∨ !s.faulted then m else
    (m.setSafIn k { s with fault := 6, latched := true }).pairEvent 0 k 6 2
  else if side = 1 then
    let s := m.safOut k
    if 8 ≤ k ∨ s.latched ∨ s.left ≠ 0 ∨ !s.faulted then m else m.latchOut k 6 2
  else m

/-- DISCREPANCY_FAULT's effect (R217). -/
def Mod.discrepancyFault (m : Mod) (k : Nat) : Mod :=
  let s := m.safIn k
  if 16 ≤ k ∨ m.act (0x3510 + k) 1 = 0 ∨ s.latched ∨ s.a.demand = s.b.demand ∨ s.discrepancy ≤ m.act (0x3510 + k) 3 then m else
  (m.setSafIn k { s with fault := 5, latched := true, left := 0 }).pairEvent 0 k 5 0

/-! ### The safety cycle -/

/-- Whether test-pulse supply TSs is high `us` µs into the present safety cycle (R214): it is low in the first 400 µs of
slot s of the 8 ms cycle. -/
def Mod.tsHigh (m : Mod) (s us : Nat) : Bool := decide (2 * m.safety.pulse + us / 500 ≠ s ∨ 400 ≤ us % 500)

/-- Whether a masked level is the demand level of channel 0 A or 1 B in a mode (R213): open, but closed for channel B of
an antivalent pair. -/
def demandLevel (mode ch : Nat) (level : Bool) : Bool := if mode = 2 ∧ ch = 1 then level else !level

/-- A channel at the end of slot u (R215, R216): in its own slot a low is masked; a supply's pattern is noted. -/
def SafChSt.slot (s : SafChSt) (supply u : Nat) (x : SlotIn) : SafChSt :=
  let level := if supply = u ∧ !x.high then s.level else x.high
  let found := if 16 ≤ supply then 0 else if supply = u then b2n (decide (x.low ≠ 2)) else 2 * b2n (decide (x.low ≠ 0))
  { s with level := level, opened := s.opened || !level, now := orBits s.now found }

/-- A channel in a safety cycle (R213, R215, R216): its two slots, and how long its demand level has held against its
demand state. -/
def SafChSt.cycle (s : SafChSt) (mode ch supply pulse : Nat) (x : ChanIn) : SafChSt :=
  let s := (s.slot supply (2 * pulse) x.first).slot supply (2 * pulse + 1) x.second
  { s with held := if demandLevel mode ch s.level = s.demand then none
                   else some (match s.held with | some n => n + 1 | none => 0) }

/-- The pattern faults of the test-pulse cycle that ends (R215): none where the channel has been open in it. -/
def SafChSt.found (s : SafChSt) : Nat := if s.opened then 0 else s.now

/-- A channel as a test-pulse cycle ends. -/
def SafChSt.endPulse (s : SafChSt) : SafChSt := { s with seen := s.found, now := 0, opened := false }

/-- The pattern checks of an input pair as a test-pulse cycle ends (R215, R227): a fault shown in two cycles in a row is
one of the channel. -/
def Mod.judgePair (m : Mod) (k : Nat) : Mod :=
  let s := m.safIn k
  let fa := s.a.seen &&& s.a.found
  let fb := s.b.seen &&& s.b.found
  let m := m.setSafIn k { s with a := s.a.endPulse, b := s.b.endPulse,
                                 passes := if s.a.found = 0 ∧ s.b.found = 0 then satAdd 2 s.passes 1 else 0 }
  let m := if fa ≠ 0 then m.inputFault k 0 (if tb fa 0 then 1 else 3) else m
  if fb ≠ 0 then m.inputFault k 1 (if tb fb 0 then 2 else 4) else m

/-- One input pair in a cycle (R213 to R217, R226). -/
def Mod.cycleIn (m : Mod) (chans : List (Nat × ChanIn)) (k : Nat) : Mod :=
  let cfg := fun sub => m.act (0x3510 + k) sub
  let s := m.safIn k
  let a := s.a.cycle (cfg 1) 0 (cfg 4) m.safety.pulse (lookD chans (2 * k) {})
  let b := s.b.cycle (cfg 1) 1 (cfg 5) m.safety.pulse (lookD chans (2 * k + 1) {})
  let s := { s with a := a, b := b }
  if cfg 1 = 0 then m.setSafIn k s else
  let m := m.setSafIn k { s with
    discrepancy := if a.demand ≠ b.demand then s.discrepancy + 1 else 0,
    left := if s.latched then s.left else s.left - 1 }
  if m.safety.pulse = 7 then m.judgePair k else m

/-- Whether an input pair named in a mask is in demand (R218). -/
def Mod.masked (m : Mod) (mask : Nat) : Bool := (onBits 16 mask).any fun k => m.inDemand (m.safIn k) k

/-- Conditions 1, 3 and 4 of R218, without logic loss (R223). -/
def Mod.hardOk (m : Mod) (p : Nat) : Bool :=
  let s := m.safOut p
  decide (m.act (0x3530 + p) 1 = 1 ∧ s.requests = 0 ∧ m.safety.dom = 1) && !s.latched && !s.loss

/-- Conditions 1 to 4 of R218. -/
def Mod.pairOk (m : Mod) (p : Nat) : Bool := m.hardOk p && !m.masked (m.act (0x3530 + p) 2)

/-- The readback of an output pair's channels in a cycle (R225), whatever the state of the domain: how long a channel has read
low while commanded on, and a channel that reads high while commanded off. -/
def Mod.readOut (m : Mod) (rb : List (Nat × Bool)) (p : Nat) : Mod :=
  let s := m.safOut p
  let level := fun ch => match look rb (2 * p + ch) with | some l => l | none => s.on && !(s.ch ch).fault
  let low := fun ch => if s.on && !(s.ch ch).fault && !level ch then satAdd 2 (s.ch ch).low 1 else 0
  let m := m.setSafOut p { s with a := { s.a with low := low 0 }, b := { s.b with low := low 1 } }
  let m := if !(s.on && !s.a.fault) && level 0 then m.failsOn p 0 else m
  if !(s.on && !s.b.fault) && level 1 then m.failsOn p 1 else m

/-- One output pair in a cycle (R218 to R220, R225): readback, conditions. -/
def Mod.cycleOut (m : Mod) (rb : List (Nat × Bool)) (p : Nat) : Mod :=
  let m := m.readOut rb p
  let m := m.setSafOut p { m.safOut p with delay := (m.safOut p).delay.map (· - 1) }
  let s := m.safOut p
  let manual := decide (m.act (0x3530 + p) 3 = 0)
  if s.on then
    if !m.hardOk p then m.setSafOut p (s.off manual m.safety.cycle)
    else if s.delay.isSome then m
    else if m.masked (m.act (0x3530 + p) 2) then
      (if m.act (0x3530 + p) 4 = 0 then m.setSafOut p (s.off manual m.safety.cycle)
       else m.setSafOut p { s with delay := some (m.act (0x3530 + p) 4) })
    else m
  else if m.pairOk p && !s.needRestart then m.setSafOut p s.switchOn
  else m

/-- Safe stop (R210): every output off, every linked bank cut, recorded. -/
def Mod.safeStop (m : Mod) : Mod :=
  if m.safety.dom = 3 then m else
  let old := m.safety.dom
  let m := m.allOff
  let m := { m with safety := { m.safety with dom := 3, disagree := 0, alive := false } }
  (m.cutPass.bump 0x3500 9).logGal 0x040 0 [old]

/-- An output pair's degraded window as a ms passes (R226). -/
def SafOutSt.age (s : SafOutSt) : SafOutSt := { s with left := if s.latched then s.left else s.left - 1 }

/-- Whether keep-alives are delivered (R343): by the fabric from step 4 of a bring-up on, by the always-on domain in standby; asked
at each safety cycle (log entry 123). -/
def Mod.keepsAlive (m : Mod) : Bool := m.started || decide (m.life = .standby ∨ m.life = .waking)

/-- The timers of the domain in a cycle (R208, R210, R211, R226, R343), with whether a keep-alive has arrived in time. -/
def SafetySt.tick (s : SafetySt) (i : SafetyIn) (keepAlive : Bool) : SafetySt :=
  { s with cycle := s.cycle + 1, alive := keepAlive && decide (s.dom ≠ 3),
           arm := s.arm.map (fun (a : Arm) => { a with ms := a.ms + 1 }),
           disagree := if i.disagree then s.disagree + 1 else 0,
           outputs := s.outputs.map fun (p : Nat × SafOutSt) => (p.1, p.2.age) }

/-- The level of ALIVE `us` µs after the rising edge with which it began to toggle (R343): 1 kHz, low where it is still. -/
def SafetySt.aliveHigh (s : SafetySt) (us : Nat) : Bool := s.alive && decide (us % 1000 < 500)

/-- Every input pair in a cycle. -/
def Mod.cycleIns (m : Mod) (chans : List (Nat × ChanIn)) : Mod :=
  overAll (List.range 16) (fun (m : Mod) k => m.cycleIn chans k) m
/-- Every output pair in a cycle. -/
def Mod.cycleOuts (m : Mod) (rb : List (Nat × Bool)) : Mod :=
  overAll (List.range 8) (fun (m : Mod) p => m.cycleOut rb p) m

/-- SAFETY_CYCLE (R208, R214, R343): evaluation while the domain runs; timers, inputs, readbacks, keep-alive and an arm's age in
any case; then the next ms of the test-pulse cycle. -/
def Mod.safetyCycle (m0 : Mod) (i : SafetyIn) : Mod :=
  let m := ({ m0 with safety := m0.safety.tick i (i.keepAlive && m0.keepsAlive) } : Mod).cycleIns i.chans
  let m : Mod := { m with safety := { m.safety with pulse := (m.safety.pulse + 1) % 8 } }
  if m.safety.dom ≠ 1 then (overAll (List.range 8) (fun (m : Mod) p => m.readOut i.readback p) m).cutPass
  else if 2 ≤ m.safety.disagree then m.safeStop
  else (m.cycleOuts i.readback).cutPass

/-- OFF_DELAY_EXPIRY's effect (R219). -/
def Mod.offDelayExpiry (m : Mod) (p : Nat) : Mod :=
  let s := m.safOut p
  if 8 ≤ p ∨ !s.on ∨ s.delay ≠ some 0 then m else
  (m.setSafOut p (s.off (decide (m.act (0x3530 + p) 3 = 0)) m.safety.cycle)).cutPass

/-- SAFETY_DEBOUNCE's effect (R216): the channel's demand level has held against its demand state for the debounce
time. -/
def Mod.safetyDebounce (m : Mod) (k ch : Nat) : Mod :=
  let s := m.safIn k
  let c := s.ch ch
  match c.held with
  | some n =>
    if 16 ≤ k ∨ m.act (0x3510 + k) 1 = 0 ∨ n < m.act (0x3510 + k) 2 then m
    else m.setSafIn k (s.setCh ch { c with demand := !c.demand, held := none })
  | none => m

/-- Whether a dark test of a channel is due (R224): channel A's a period after its last one, channel B's half a period
after channel A's instants, which go on where channel A is not tested. -/
def SafOutSt.testDue (s : SafOutSt) (ch period cyc : Nat) : Bool :=
  let last := (s.ch ch).test
  if ch = 0 ∨ s.a.fault ∧ s.a.test = none then
    match last with
    | none => true
    | some t => decide (t + period ≤ cyc)
  else match s.a.test with
    | none => false
    | some a =>
      let half := a + period / 2
      decide (half ≤ cyc) && (match last with
        | none => true
        | some t => decide (t < half + (cyc - half) / period * period))

/-- SAFE_OUTPUT_DARK_TEST's effect (R224, R225, R227): the channel is switched off for its pulse, and passes where its
readback falls low, `fell` µs into it, before the pulse ends. A faulted channel is tested on request while the pair is
off. -/
def Mod.safeDark (m : Mod) (p ch : Nat) (fell : Option Nat) : Mod :=
  let s := m.safOut p
  let cyc := m.safety.cycle
  let pass := match fell with
    | some us => decide (us < m.act (0x3530 + p) 8)
    | none => false
  if 8 ≤ p ∨ 2 ≤ ch then m
  else if (s.ch ch).fault then (if s.on then m else m.setSafOut p (s.setCh ch { s.ch ch with tested := pass }))
  else if !s.testDue ch (m.act (0x3530 + p) 7 * 1000) cyc ∨ m.safety.lastTest = some cyc then m
  else
    let m0 := m
    let m := m.setSafOut p (s.setCh ch { s.ch ch with test := some cyc })
    let m := { m with safety := { m.safety with lastTest := some cyc } }
    if s.on then (if pass then m else m.failsOn p ch)
    else match s.offAt with
      | some c => if cyc ≤ c + 1 then m.bump (0x3530 + p) 0x0F else m0
      | none => m0

/-- Logic loss (R223): pairs with action 1 switch off as the hold window expires. -/
def Mod.logicLoss (m : Mod) : Mod :=
  (overAll (List.range 8) (fun m p =>
    if m.act (0x3530 + p) 6 = 1 ∧ m.act (0x3530 + p) 1 = 1 ∧ !(m.safOut p).loss then
      let s := (m.safOut p).off true m.safety.cycle
      (m.setSafOut p { s with loss := true }).pairEvent 1 p 11 0
    else m) m).cutPass

/-! ### Partner writes -/

/-- A restart accepted (R220, R223). -/
def Mod.restartPair (m : Mod) (p : Nat) : Mod :=
  let s := m.safOut p
  m.setSafOut p { s with needRestart := false, loss := false }

/-- Whether a restart is accepted (R220): conditions 1 to 4, logic loss being what it ends. -/
def Mod.restartOk (m : Mod) (p : Nat) : Bool :=
  (m.setSafOut p { m.safOut p with loss := false }).pairOk p

/-- Whether a fault reset is accepted (R227). -/
def Mod.faultResetOk (m : Mod) (side k : Nat) : Bool :=
  if side = 0 then
    let s := m.safIn k
    decide (2 ≤ s.passes) && decide (s.a.demand = s.b.demand)
  else
    let s := m.safOut k
    (!s.a.fault || s.a.tested) && (!s.b.fault || s.b.tested)

/-- A fault reset accepted (R227). -/
def Mod.faultResetDo (m : Mod) (side k : Nat) : Mod :=
  if side = 0 then
    let s := m.safIn k
    (m.setSafIn k { s with a := { s.a with fault := false }, b := { s.b with fault := false }, fault := 0, latched := false,
                           left := 0 }).pairEvent 0 k s.fault 3
  else
    let s := m.safOut k
    (m.setSafOut k { s with a := { s.a with fault := false, tested := false }, b := { s.b with fault := false, tested := false },
                            fault := 0, latched := false, left := 0, needRestart := true }).pairEvent 1 k s.fault 3

/-- The first pending object that breaks a rule of the chapter, as its offset from 0x3500 (R211, R214, R218). -/
def Mod.armFailure (m : Mod) : Option Nat :=
  let c := m.cfg
  let named := (List.range 16).flatMap fun k =>
    [c (0x3510 + k) 4, c (0x3510 + k) 5].filter fun s => decide (s < 16)
  let bad := fun k =>
    let a := c (0x3510 + k) 4
    let b := c (0x3510 + k) 5
    decide (a < 16 ∧ a = b) || [a, b].any fun s => decide (s < 16 ∧ 2 < named.count s)
  match (List.range 16).find? bad with
  | some k => some (0x10 + k)
  | none =>
    match (List.range 8).find? fun p => (onBits 16 (c (0x3530 + p) 2)).any fun k => decide (c (0x3510 + k) 1 = 0) with
    | some p => some (0x30 + p)
    | none => none

/-- An arm accepted (R211): a new non-zero challenge, a free value (log entry 12). -/
def Mod.arm (m : Mod) (a : Nat) : Mod :=
  let d := m.draw
  let c := d.1 % 65535 + 1
  let m := { d.2 with safety := { d.2.safety with arm := some { assoc := a, challenge := c } } }
  (m.setRo 0x3500 5 c).setRo 0x3500 0x0B 0

/-- An arm ended (R212). -/
def Mod.disarm (m : Mod) : Mod := ({ m with safety := { m.safety with arm := none } }).setRo 0x3500 5 0

/-- Whether a confirm is right (R211, R212). -/
def Mod.confirmOk (m : Mod) (a v : Nat) : Bool :=
  match m.safety.arm with
  | some r => decide (r.assoc = a) && decide (r.ms ≤ 10000) && decide (v = 65535 - r.challenge)
  | none => false

/-- A confirmed safety reset (R212): every safe output off and every linked bank cut, the domain restarted with the
pending configuration, faults and windows cleared, request sets kept (R221). -/
def Mod.safetyReset (m : Mod) : Mod :=
  let m := m.allOff
  let cfg := m.pendingSafety
  let m := { m with safety := { m.safety with
    dom := 2, active := cfg, storedActive := cfg, storedPending := cfg, storedOk := true, pendingOk := true,
    disagree := 0, pulse := 0, cutHold := m.linkedBanks, inputs := [],
    outputs := m.safety.outputs.map fun (p : Nat × SafOutSt) => (p.1, { requests := p.2.requests, offAt := p.2.offAt }) } }
  ((m.disarm).cutPass).bump 0x3500 8

/-- SAFETY_DOMAIN_RUNNING's effect (R212). -/
def Mod.domainRuns (m : Mod) : Mod :=
  if m.safety.dom = 0 ∨ m.safety.dom = 2 then
    if m.safety.dom = 0 ∧ !m.safety.storedOk then m.safeStop
    else ({ m with safety := { m.safety with dom := 1, cutHold := 0 } } : Mod).cutPass
  else m

/-- ARM_TIMEOUT's effect (R211, R212). -/
def Mod.armTimeout (m : Mod) : Mod :=
  match m.safety.arm with
  | some a => if 10000 < a.ms then m.disarm else m
  | none => m

/-- A committed write of the pending configuration stored (R212). -/
def Mod.storePending (m : Mod) : Mod :=
  { m with safety := { m.safety with storedPending := m.pendingSafety, pendingOk := true } }

/-- The domain as a power-on finds it (R209, R212, R221): configuration from its own area, the pending copy replaced by
the active one where its CRC fails, every pair to be restarted. -/
def Mod.powerSafety (m : Mod) (activeOk pendingOk : Bool) : Mod :=
  let s := m.safety
  let pend := if s.pendingOk && pendingOk then s.storedPending else s.storedActive
  let m := { m with objs := pend.foldl (fun (l : SMap Nat) (p : Nat × Nat) => put l p.1 p.2) (without isSafetyCfg m.objs) }
  let m := { m with safety := { active := s.storedActive, storedActive := s.storedActive, storedPending := pend,
                                storedOk := s.storedOk && activeOk, pendingOk := true, dom := 0 } }
  m.cutPass

end Sys2Proof.Machine
end

