-- ==== Sys2Proof/Machine/Journal.lean ====
section
/-! DEFINITION. The journal and the resets that need no restored state (12): checkpoints and their slots, the pool
mirror, configuration copies, the scan for a restore point, and what a reset that takes hold leaves. -/

namespace Sys2Proof.Machine

/-- Journal set. -/
def Mod.setJournal (m : Mod) (j : JournalSt) : Mod := { m with journal := j }
/-- Reset state set. -/
def Mod.setReset (m : Mod) (r : ResetSt) : Mod := { m with reset := r }

/-! ### What is configuration (R298) -/

/-- Objects with stores of their own: load objects, safety configuration, option block and role keys, and the gallery's settings
per code (R298, R385). -/
def ownStore (k : Nat) : Bool :=
  let idx := k / 256 % 65536
  let sub := k % 256
  decide (idx = 0x4021) || decide (2 ^ 32 ≤ k) || isSafetyCfg k ||
  (decide (idx = 0x1100) && (decide (7 ≤ sub ∧ sub ≤ 0x0A) || decide (0x21 ≤ sub)))

/-- A value that an association holds for itself (R415): it is kept with the hall. -/
def ownedKey (k : Nat) : Bool := decide (2 ^ 24 ≤ k ∧ k < 2 ^ 32)

/-- Whether a key is part of the configuration: RW or RWL without a store of its own. -/
def isConfig (k : Nat) : Bool :=
  !ownStore k &&
  (match place (k / 256 % 65536) (k % 256) with
   | some p => decide (p.row.acc = .rw ∨ p.row.acc = .rwl)
   | none => false)

/-- The state object of a trigger, which a restore brings back (R283). -/
def trigState (k : Nat) : Bool := decide (0x3840 ≤ k / 256 % 65536 ∧ k / 256 % 65536 < 0x3848 ∧ k % 256 = 0x0F)

/-- Delay trims and residuals, kept in MRAM across every reset (R174, R175). -/
def trimKey (k : Nat) : Bool :=
  let idx := k / 256 % 65536
  (decide (0x3100 ≤ idx ∧ idx < 0x3140) && decide (k % 256 = 2 ∨ k % 256 = 3)) || decide (k = okey 0 0x3190 4)

/-- Values of the module set that a restore leaves as they stand: resets and power counts, the gallery, the safety
domain, the recording's counters, the field side and the timebase (R256, R286, R304). -/
def keepLive (k : Nat) : Bool :=
  let idx := k / 256 % 65536
  decide (idx = 0x1000) || decide (k = okey 0 0x1100 0x13) || decide (idx = 0x1300) || decide (idx = 0x2000 ∧ (k % 256 = 0x0A ∨ k % 256 = 0x11)) || decide (0x1400 ≤ idx ∧ idx < 0x1402) || decide (idx = 0x1500) || decide (idx = 0x1510) ||
  decide (idx = 0x1620) || trimKey k || decide (0x34C0 ≤ idx ∧ idx < 0x3540) || (decide (0x3800 ≤ idx ∧ idx < 0x3861) && !trigState k) ||
  (decide (idx = 0x4020) && decide (7 ≤ k % 256 ∧ k % 256 ≤ 0x0A)) || decide (idx = 0x4021)

/-! ### Checkpoints (R17, R159, R296) -/

/-- The control state of the module as it stands. -/
def Mod.capture_ (m : Mod) : Saved :=
  { objs := m.objs.filter fun p => ownedKey p.1 || (!isConfig p.1 && !ownStore p.1), ro := m.ro, loops := m.loops, tracks := m.tracks,
    pulses := m.pulses, undo := m.undo, active := m.rov 0x4020 1, axes := m.axes, tiles := m.tiles, hall := m.hall,
    inputs := m.inputs, canObjs := m.canObjs, tpos := m.tpos, trigs := m.record.trigs,
    duty := m.field.dutyOn, image := m.field.built.getD m.buildImage }

/-- Entries in one slice of the repetitive pool. -/
def sliceSize : Nat := 32768
/-- The slice of a pool. -/
def sliceOf (pool : SMap Int) (k : Nat) : SMap Int :=
  pool.filter fun p => decide (k * sliceSize ≤ p.1 ∧ p.1 < (k + 1) * sliceSize)

/-- The flight that ends with the present tread: its state, its delta and the configuration are captured (R17, R298). A delta
that no checkpoint has taken joins the next one's. -/
def Mod.endFlight (m : Mod) (asStands : Mod) : Mod :=
  m.setJournal { m.journal with ending := some (asStands.capture_, asStands.pool),
                                ended := m.journal.ended ++ m.journal.delta, delta := [],
                                cfgEnd := asStands.objs.filter fun p => isConfig p.1, cfgFlight := m.tread / 100 }

/-- Whether a configuration copy covers the deltas up to a flight (R297, R298). -/
def JournalSt.covers (j : JournalSt) (f : Nat) : Bool :=
  j.copyA.ok && decide (f ≤ j.copyA.fc) || j.copyB.ok && decide (f ≤ j.copyB.fc)

/-- The copies of a pool slice as one of them begins to be written (R159): the older one, which no longer passes until the
write completes. -/
def JournalSt.openMirror (j : JournalSt) (k : Nat) : JournalSt :=
  match look j.mirrorA k, look j.mirrorB k with
  | some a, some b => if a.1 ≤ b.1 then { j with mirrorA := drop j.mirrorA k } else { j with mirrorB := drop j.mirrorB k }
  | _, _ => j

/-- A flight's checkpoint write starts (R17, R296): its slot is no longer valid until the write completes. -/
def Mod.startCheckpoint (m : Mod) (f : Nat) (requested : Bool) : Mod :=
  let j := m.journal
  match j.ending with
  | none => m
  | some e =>
    let s : Slot := { flight := f, requested := requested, final := j.finalDue, saved := e.1, delta := j.ended,
                      prev := j.lastDelta.filter fun p => !j.covers p }
    let j := j.openMirror (f % 64)
    m.setJournal { j with slots := drop j.slots (f % 32), writing := some s, ending := none,
                          slice := some (f % 64, f, sliceOf e.2 (f % 64)), ended := [], finalDue := false,
                          lastDelta := if j.ended.isEmpty then j.lastDelta else some f }

/-- Bytes of a delta: index, subindex and value, each entry 4 bytes and its value (R298). -/
def deltaBytes (l : List (Nat × Nat)) : Nat :=
  l.foldl (fun n p => n + 4 + (match place (p.1 / 256 % 65536) (p.1 % 256) with | some q => q.row.ty.size.getD 0 | none => 0)) 0

/-- The body of a flight's slot (R296): with its header it fills at most 128 KiB. -/
def slotBody (f : Nat) : List Nat := ((Config.slotBody f).take (128 * 1024 - 64)).map (·.toNat)

/-- The first 60 bytes of a slot's header (R297). -/
def Slot.head60 (s : Slot) : List Nat :=
  let ro := fun sub => stGet s.saved.ro (okey 0 0x1400 sub)
  [0x43, 0x56, 0x4A, 0x4E] ++ leBytes 2 1 ++ leBytes 2 (b2n s.final + 2 * b2n s.requested + 4 * b2n (!s.delta.isEmpty)) ++
  leBytes 8 s.flight ++ leBytes 8 (100 * s.flight + 99) ++ leBytes 4 (slotBody s.flight).length ++
  leBytes 4 (deltaBytes s.delta) ++ leBytes 8 (s.prev.getD (2 ^ 64 - 1)) ++ leBytes 4 (ro 0x0E) ++ leBytes 4 (ro 9) ++
  List.replicate 12 0

/-- The 64 bytes of a slot's header (R297): the CRC-32C covers the other 60 and then the body. -/
def Slot.header (s : Slot) : List Nat := s.head60 ++ leBytes 4 (crc32c (s.head60 ++ slotBody s.flight))

/-- The older of two copies of a pool slice takes the new one. -/
def JournalSt.mirror (j : JournalSt) (k f : Nat) (s : SMap Int) : JournalSt :=
  match look j.mirrorA k, look j.mirrorB k with
  | none, _ => { j with mirrorA := put j.mirrorA k (f, s) }
  | some _, none => { j with mirrorB := put j.mirrorB k (f, s) }
  | some a, some b =>
    if a.1 ≤ b.1 then { j with mirrorA := put j.mirrorA k (f, s) } else { j with mirrorB := put j.mirrorB k (f, s) }

/-- The checkpoint written whole, its CRC in place: the journalled tread rises (R17, R52, R296). -/
def Mod.completeCheckpoint (m : Mod) : Mod :=
  let j := m.journal
  match j.writing with
  | none => m
  | some s =>
    let j := match j.slice with | some x => j.mirror x.1 x.2.1 x.2.2 | none => j
    let m := m.setJournal { j with slots := put j.slots (s.flight % 32) s, writing := none, slice := none }
    let m := m.setRo 0x1200 0xD (100 * s.flight + 99)
    let m := { m with undo := m.undo.filter fun u => decide (100 * s.flight + 99 < u.tread) }
    if s.final then m.setRo 0x1400 0x11 (100 * s.flight + 99) else m

/-- A configuration value that commits enters the delta of the present flight (R298). -/
def Mod.enterDelta (m : Mod) (k v : Nat) : Mod :=
  if isConfig k then m.setJournal { m.journal with delta := m.journal.delta ++ [(k, v)] } else m

/-- CONFIGURATION_COPY_WRITE's effect (R298): the older copy written again, folded up to the last flight that ended. -/
def Mod.writeCopy (m : Mod) : Mod :=
  let j := m.journal
  if j.cfgFlight = 0 then m else
  let c : CfgCopy := { fc := j.cfgFlight, objs := j.cfgEnd, ok := true }
  if !j.copyA.ok ∨ (j.copyB.ok ∧ j.copyA.fc ≤ j.copyB.fc) then m.setJournal { j with copyA := c }
  else m.setJournal { j with copyB := c }

/-! ### The scan (R299) -/

/-- The slots as a cold start clears them (R304): a header with flight number 0 and a bad CRC in every slot. -/
def clearedSlots : SMap Slot := (List.range 32).map fun i => (i, { flight := 0, saved := {}, ok := false })

/-- The valid slot of a flight. -/
def JournalSt.slot (j : JournalSt) (f : Nat) : Option Slot :=
  match look j.slots (f % 32) with
  | some s => if s.flight = f ∧ s.ok then some s else none
  | none => none

/-- The newest valid slot whose tread lies before `now`. -/
def JournalSt.newest (j : JournalSt) (now : Tread) : Option Slot :=
  j.slots.foldl (fun b p =>
    let newer : Bool := match b with
      | some (x : Slot) => decide (x.flight < p.2.flight)
      | none => true
    if p.2.ok && decide (100 * p.2.flight + 99 < now) && newer then some p.2 else b) none

/-- The chain of deltas from a slot back to one at or below `fc`, oldest first; none where it is broken. -/
def JournalSt.chain (j : JournalSt) (fc : Nat) : Nat → Slot → Option (List (List (Nat × Nat)))
  | 0, _ => none
  | n + 1, s =>
    if s.flight ≤ fc then some [] else
    match s.prev with
    | none => some [s.delta]
    | some p =>
      if p ≤ fc then some [s.delta] else
      match j.slot p with
      | some q => (j.chain fc n q).map fun l => l ++ [s.delta]
      | none => none

/-- The newest copy at or before a flight. -/
def JournalSt.copy (j : JournalSt) (f : Nat) : Option CfgCopy :=
  let ok := fun (c : CfgCopy) => c.ok && decide (c.fc ≤ f)
  match ok j.copyA, ok j.copyB with
  | true, true => if j.copyB.fc ≤ j.copyA.fc then some j.copyA else some j.copyB
  | true, false => some j.copyA
  | false, true => some j.copyB
  | false, false => none

/-- The configuration with deltas applied in order. -/
def applyDeltas (objs : SMap Nat) (l : List (List (Nat × Nat))) : SMap Nat :=
  l.foldl (fun o d => d.foldl (fun o p => stPut o p.1 p.2) o) objs

/-- The restore point (R299); none where the journal is not valid. -/
def JournalSt.scan (j : JournalSt) (now : Tread) : Option Restore :=
  match j.newest now with
  | none => none
  | some s =>
    match j.copy s.flight with
    | none => none
    | some c =>
      match j.chain c.fc 33 s with
      | none => none
      | some ds =>
        some { flight := s.flight, saved := s.saved, cfg := applyDeltas c.objs ds,
               lastDelta := if s.delta.isEmpty then s.prev else some s.flight }

/-- Each slice restored from the newer of its copies that pass their CRC; a slice without one is set to 0 and counted (R159).
The bring-up's report says which stored copies fail. -/
def Mod.restorePool (m : Mod) : Mod :=
  let j := m.journal
  let bad := match m.reset.report with | some b => (b.mirrorABad, b.mirrorBBad) | none => (0, 0)
  let pass := fun (mask : Nat) (l : SMap (Nat × SMap Int)) k => if tb mask k then none else look l k
  overAll (List.range 64) (fun m k =>
    let newer : Option (Nat × SMap Int) := match pass bad.1 j.mirrorA k, pass bad.2 j.mirrorB k with
      | some a, some b => if b.1 ≤ a.1 then some a else some b
      | some a, none => some a
      | none, b => b
    match newer with
    | some s => { m with pool := s.2.foldl (fun l p => putD 0 l p.1 p.2) m.pool }
    | none => m.bump 0x2000 0x11) { m with pool := [] }

/-! ### A reset takes hold -/

/-- Every grant slot free (R404). -/
def Mod.freeTokens (m : Mod) : Mod :=
  { m with orphans := 0, ro := m.ro.filter fun p => !(decide (okey 0 0x1600 0x10 ≤ p.1 ∧ p.1 ≤ okey 0 0x1600 0x1F)) }

/-- What a reset cuts off (R384, R404): loads in progress are cancelled; calibrations and a clear fail; a validation
or verification starts again once the bring-up is complete. -/
def Mod.cutLoads (m : Mod) : Mod :=
  let m : Mod := { m with reruns := b2n (decide (m.rov 0x4020 7 = 2)) + 2 * b2n (decide (m.rov 0x1620 6 = 2)) }
  let m := if m.rov 0x4020 7 = 1 then m.emptyShadow else m
  let m := if m.rov 0x1620 6 = 1 then
      { m.setRo 0x1620 6 0 with firmware := { m.firmware with image := 0, received := 0, top := 0 } } else m
  let m := if m.rov 0x1500 5 = 2 then m.setRo 0x1500 5 (if 16384 ≤ m.rov 0x1500 4 then 1 else 0) else m
  let m := if m.rov 0x3190 2 = 1 then { m.setRo 0x3190 2 3 with skewSince := none } else m
  let m := overAll m.convs (fun m p => if p.2.calSince.isSome then
      (m.setConv p.1 { p.2 with calSince := none }).setRo (0x3100 + p.1) 0xA 3 else m) m
  { m with gal := { m.gal with queue := [] } }

/-- What every reset of the logic side ends: transactions (R53), chains, open blocks and windows (R283), outputs of the
timebase (R356), reservations, tokens (R404), transfers of the link, engine resynchronisations. -/
def Mod.dropLogic (m : Mod) : Mod :=
  let m := m.tpoQuiet.loseStreams
  let m := overAll [3, 4] (fun m sub => if m.rov 0x2000 sub = 1 then m.setRo 0x2000 sub 0 else m) m
  let m := ((m.setRo 0x1410 2 0).setRo 0x1200 7 0).freeTokens.cutLoads
  { m with asks := [], switch := {}, staged := [], reads := [], waiting := [], replies := [], out := [], landings := [], axRefused := [], released := [],
           poolDue := [], reserved := [], engine := { m.engine with forceA := 0, forceB := 0 }, wlog := [], wold := [],
           field := { m.field with built := none },
           journal := { m.journal with writing := none, ending := none, slice := none, ended := [], delta := [] } }

/-- A reset in standby returns the module to the state it came from, with wake cause 4 (R396). -/
def Mod.endStandby (m : Mod) : Mod :=
  if m.life ≠ .standby ∧ m.life ≠ .waking then { m with power := { m.power with standby := none, early := none } } else
  let m := ((m.setRo 0x1400 0x27 4).setRo 0x1400 0x28 0).setRo 0x1400 0x21 m.power.prior
  { m.setCfg 0x1400 0x22 m.power.prior with power := { prior := m.power.prior } }

/-- HOLD_UP_EXHAUSTED's effect (R205, R207, R307): everything off. -/
def Mod.powerOff (m : Mod) : Mod :=
  let m := if m.life = .off ∨ m.life = .held then m else m.dropLogic
  { m.unpowerField with life := .off, safety := { m.safety with alive := false } }

/-- A logic reset takes hold (R284, R286): the field side holds, the safety domain runs on. -/
def Mod.logicReset (m : Mod) (cause flag : Nat) : Mod :=
  if m.life = .off then m else
  let m := m.dropLogic.endStandby
  let m := (m.bump 0x1400 9).setRo 0x1400 1 cause
  { m with life := .held, reset := { m.reset with cause := cause, flag := flag, at_ := m.tread, request := none,
                                                  report := none, restore := none, needP3 := false, diff := none } }

/-- The time for which PFAIL_N has been low, in us (R309): by the treads that it has lasted, or as `us` gives it where none run. -/
def Mod.heldUp (m : Mod) (t : Tread) (us : Nat) : Nat := if m.life = .run then (m.tread - t) * 10 else us

/-- BROWNOUT's effect (R284, R309, R386): longer than 2 us; the hold-up time is kept. While VHU has not yet been charged nothing
bridges the failure, and the module loses its power. -/
def Mod.brownout (m : Mod) (ns us : Nat) : Mod :=
  if ns ≤ 2000 then m
  else if tb (m.rov 0x1400 0x2F) 1 then m.powerOff else
  let m := match m.journal.pfail with
    | some t => (m.setRo 0x1400 0x12 (m.heldUp t us)).setJournal { m.journal with pfail := none }
    | none => m
  m.logicReset 2 0

/-- RESET_N's effect (R285): 50 low samples. -/
def Mod.resetPin (m : Mod) (samples : Nat) : Mod := if samples < 50 then m else m.logicReset 3 0

/-- FABRIC_WATCHDOG's effect (R284): three late treads in a row. -/
def Mod.watchdog (m : Mod) (late : Nat) : Mod := if late < 3 then m else m.logicReset 4 0

/-- REQUESTED_RESET_HOLD (R288): a committed request takes hold at the first flight boundary after its commit, the
checkpoint of the flight that has ended written with the requested flag. -/
def Mod.requestedHold (m : Mod) : Mod :=
  match m.reset.request with
  | some (cause, flag, n) =>
    if m.tread % 100 ≠ 0 ∨ m.tread < n + 1 then m else
    let m := if m.journal.ending.isSome then m.startCheckpoint (m.tread / 100 - 1) true else m
    m.completeCheckpoint.logicReset cause flag
  | none => m

/-- PFAIL_FALL's effect (R309): low for 10 us; the next checkpoint is final. -/
def Mod.pfailFall (m : Mod) (us : Nat) : Mod :=
  if us < 10 ∨ m.journal.pfail.isSome then m else
  m.setJournal { m.journal with pfail := some m.tread, finalDue := true }

/-- PFAIL_RISE's effect (R309): recorded, and the module carries on; the checkpoint that its fall made final stays so. -/
def Mod.pfailRise (m : Mod) (us : Nat) : Mod :=
  match m.journal.pfail with
  | some _ => (m.setJournal { m.journal with pfail := none }).logGal 0x061 0 [us]
  | none => m

/-- What a power-on reset keeps: MRAM (journal, gallery, banks, calibration, safety configuration, option block and
keys, firmware), and its counts, the operating time as stored each second (R284, R291, R304, R345, R376). The last two operands say whether the stored active and
pending safety configurations pass their CRCs (R212). -/
def Mod.powerOn (m : Mod) (bootsel clkmode : Nat) (activeOk pendingOk : Bool) : Mod :=
  let start := match m.journal.newest (2 ^ 64) with
    | some s => 100 * (s.flight + 1)
    | none => 0
  let kept := m.ro.filter fun p =>
    let idx := p.1 / 256 % 65536
    trimKey p.1 || decide (idx = 0x1000) || decide (idx = 0x1500) || decide (idx = 0x1510) || decide (idx = 0x1620) ||
      decide (p.1 = okey 0 0x1400 0x0E) || (decide (idx = 0x4020) && decide (7 ≤ p.1 % 256 ∧ p.1 % 256 ≤ 0x0A))
  let m : Mod := { ({} : Mod) with
    objs := m.objs.filter fun p => ownStore p.1, ro := kept, life := .held, tread := start, fresh := m.fresh,
    bankA := m.bankA, bankB := m.bankB, undo := m.undo, load := m.load, selector := m.selector, 
    cal := m.calDue.foldl (fun l p => put l p.1 p.2) m.cal,
    safety := m.safety, gal := { m.gal with queue := [], counted := start / 100 },
    journal := { m.journal with writing := none, ending := none, slice := none, ended := [], delta := [], pfail := none, finalDue := false },
    firmware := m.firmware, reruns := m.reruns,
    reset := { bootsel := if bootsel = 3 then 2 else bootsel, cause := 1, at_ := start, stored := m.reset.stored },
    time := { clkmode := clkmode } }
  let m := m.setRo 0x1500 8 (m.rov 0x1500 8 / 1000 * 1000)
  let m := (m.bump 0x1400 0x0E).setRo 0x1400 1 1
  let m := m.setRo 0x1400 0x0D (bootsel % 4 + 4 * (clkmode % 4))
  m.freshField.powerSafety activeOk pendingOk

/-- Whether frames and commands are served: in service, with boundaries (R342, R391). -/
def Mod.serving (m : Mod) : Bool := decide (m.life = .run)

end Sys2Proof.Machine
end

