-- ==== Sys2Proof/Machine/Services.lean ====
section
/-! DEFINITION. Services that stand beside the tread: tiles and power states (01, 17), the gallery (16), maintenance
tokens, the output pulse test and firmware (18), per-block resets (12). -/

namespace Sys2Proof.Machine

/-! ### Tiles (R20, R21) -/

/-- Bits of the wake mask set in turn. -/
def orAll (l : List Nat) : Nat := l.foldl orBits 0

/-- The steps that a step may lead to: next, branch targets, timeout target. -/
def Mod.nextSteps (m : Mod) (n : Nat) : List Nat :=
  let e := m.stepE n
  [bits (wordOf e 3) 0 16, bits (wordOf e 3) 16 16, bits (wordOf e 4) 0 16, bits (wordOf e 4) 16 16].filter fun s =>
    decide (s ≠ 0xFFFF)

/-- The wake masks of the current steps of running tracks, which are those RUNNING or PAUSED (log entry 66), and of those they may enter next (R21): after a START the
first step of the entry point (R77). -/
def Mod.trackMask (m : Mod) : Nat :=
  orAll (m.tracks.flatMap fun p =>
    if p.2.state = 1 ∨ p.2.state = 2 then
      (if p.2.step = 0xFFFF then [m.wakeMask (bits (lookD m.bank.entries p.2.entryPoint 0) 0 16)] else m.wakeMask p.2.step :: (m.nextSteps p.2.step).map m.wakeMask) ++
      (match p.2.wait with
       | some (.enter n _ _) => [m.wakeMask n]
       | _ => [])
    else [])

/-- The tile bit of an analog input's signal. -/
def tileOf (sig : Sig) : Nat := if 0x800 ≤ sig ∧ sig < 0x900 then 2 ^ ((sig - 0x800) / 32) else 0

/-- Tiles with a channel that feeds a loop not in OFF. -/
def Mod.loopTiles (m : Mod) : Nat :=
  orAll ((m.members 0x2200 512 1).flatMap fun p =>
    [0x10, 0x12, 0x13].map fun sub => tileOf (m.cfg (0x2200 + p.1) sub))

/-- Whether a trigger is armed. -/
def Mod.armed (m : Mod) (k : Nat) : Bool := decide (m.trigState k = 1)

/-- Tiles with a channel that an armed trigger names, or a converter with an armed injected-sequence trigger. -/
def Mod.trigTiles (m : Mod) : Nat :=
  orBits (orAll ((List.range 8).map fun k => if m.armed k ∧ m.trigCfg k 1 ≠ 0 ∧ m.trigCfg k 1 ≤ 3 then
      orBits (tileOf (m.trigCfg k 2)) (if m.trigCfg k 3 < 16 then tileOf (m.cfg 0x3850 (m.trigCfg k 3 + 1)) else 0)
    else 0))
    (orAll ((List.range 64).map fun c =>
      let k := m.inForce (0x3140 + c) 0x18
      if m.injLen c ≠ 0 ∧ (m.inForce (0x3140 + c) 0x17 ≠ 0 ∨ (k < 8 ∧ m.armed k)) then 2 ^ (c / 8) else 0))

/-- Links with an axis that moves, stops, has moves queued or follows a loop (R253). -/
def Mod.busyLinks (m : Mod) : Nat :=
  orAll (m.axes.map fun p => if m.axisBusy p.1 ∨ m.follows p.2 p.1 then 2 ^ (8 + p.1 / 8) else 0)

/-- Ports with an enabled message object. -/
def Mod.busyPorts (m : Mod) : Nat :=
  orAll ((List.range 2).map fun p => if (m.mos p).isEmpty then 0 else 2 ^ (12 + p))

/-- The capture unit's bit: a capture window armed or open. -/
def Mod.captureTile (m : Mod) : Nat :=
  if !m.record.windows.isEmpty || (List.range 8).any (fun k => m.armed k && decide (m.trigCfg k 0xA ≠ 0)) then 2 ^ 14 else 0

/-- The grants by slot: mask, holder and activity (R402). -/
def Mod.grants (m : Mod) : List (Nat × Nat) :=
  (List.range 16).filterMap fun s =>
    let g := m.rov 0x1600 (0x10 + s)
    if g = 0 then none else some (s, g)
/-- Resources held. -/
def Mod.heldMask (m : Mod) : Nat := orAll (m.grants.map fun g => g.2 % 2 ^ 32)
/-- The holder of a resource bit; a number that no association has where the holder has left (R404). -/
def Mod.holder (m : Mod) (bit : Nat) : Option Nat :=
  (m.grants.find? fun g => tb g.2 bit).map fun g => bits g.2 32 8 + 256 * b2n (tb m.orphans g.1)

/-- Tiles and links of maintenance tokens, in the layout of the wake mask. -/
def Mod.tokenTiles (m : Mod) : Nat := bits m.heldMask 0 8 + 2 ^ 8 * bits m.heldMask 22 4

/-- The awake set (R20). -/
def Mod.awakeSet (m : Mod) : Nat :=
  orAll [m.trackMask, bits (m.cfg 0x1400 0x20) 0 15, m.loopTiles, m.trigTiles, m.busyLinks, m.busyPorts, m.captureTile,
    m.tokenTiles] % 2 ^ 15

/-- Power state: 0 RUN, 1 IDLE, 2 STANDBY. -/
def Mod.powerState (m : Mod) : Nat := m.rov 0x1400 0x21

/-- The counts of treads outside the awake set, as the tread ends, on its committed state (R20). -/
def Mod.countTiles (m : Mod) : Mod :=
  let set := m.frozen.awakeSet
  { m with tiles := { m.tiles with idle := (List.range 15).foldl (fun (l : SMap Nat) t =>
      if tb set t then drop l t else put l t (lookD l t 0 + 1)) m.tiles.idle } }

/-- The channel maps that the gating or waking of an ADC tile changes (R269). -/
def Mod.tileMaps (m : Mod) (tile : Nat) (t : Tread) : Mod := m.inputMaps ((List.range 32).map (32 * tile + ·)) t

/-- The channel map of S3 that the gating or waking of an axis link, tile `tile` of the wake mask, changes: where the link serves
a selected axis (R269). -/
def Mod.linkMap (m : Mod) (tile : Nat) (t : Tread) : Mod :=
  if (List.range 8).any fun s => m.selected 3 (8 * (tile - 8) + s) then m.mapChanged 3 t else m

/-- A tile gated or asleep: its inputs go stale, the capture buffer is lost, maps show it. -/
def Mod.sleepTile (m : Mod) (t : Nat) : Mod :=
  let m := { m with tiles := { m.tiles with awake := setBit m.tiles.awake t false, waking := setBit m.tiles.waking t false } }
  if t < 8 then (m.restartTile t (m.tread + 1)).tileMaps t m.tread
  else if t < 12 then m.linkMap t m.tread
  else if t = 14 then m.setRecord { m.record with buffer := [], bufSince := m.tread }
  else m

/-- TILE_GATE (R20): at a flight boundary in IDLE, the tiles of a mask that have been outside the awake set for 100
treads. -/
def Mod.gateTiles (m : Mod) (mask : Nat) : Mod :=
  if m.powerState ≠ 1 then m else
  overAll (onBits 15 (m.tiles.awake &&& mask)) (fun m t => if 100 ≤ lookD m.tiles.idle t 0 then m.sleepTile t else m) m

/-- The bits of the axis links in the wake mask (R18). -/
def linkBits : Nat := 0xF00
/-- Every tile but the axis links is gated before the boundary samples, so that a gated tile gives no slot 0 (R20, R23); at
boundary N as at every other flight boundary (log entry 111). -/
def Mod.gateEarly (m : Mod) : Mod := m.gateTiles (2 ^ 15 - 1 - linkBits)
/-- Axis links are gated once the boundary has committed: not while an axis on them moves, has moves queued or follows
(R253). -/
def Mod.gateLinks (m : Mod) : Mod := m.gateTiles (clrBits linkBits m.busyLinks)

/-- The tiles that must be awake: all in RUN, the awake set in IDLE. -/
def Mod.wantAwake (m : Mod) : Nat := if m.powerState = 0 then 2 ^ 15 - 1 else m.awakeSet

/-- Tiles that start waking at the present boundary (R20, R21, R389). -/
def Mod.wakePass (m : Mod) : Mod :=
  { m with tiles := { m.tiles with waking := clrBits (orBits m.tiles.waking m.wantAwake) m.tiles.awake } }

/-- TILE_WAKE_COMPLETE's effect (R21, R183). -/
def Mod.wakeTile (m : Mod) (t : Nat) : Mod :=
  if !tb m.tiles.waking t then m else
  let m := { m with tiles := { m.tiles with awake := setBit m.tiles.awake t true, waking := setBit m.tiles.waking t false } }
  if t < 8 then (m.restartTile t (m.tread + 1)).tileMaps t (m.tread + 1)
  else if t < 12 then m.linkMap t (m.tread + 1)
  else if t = 14 then m.setRecord { m.record with buffer := [], bufSince := m.tread }
  else m

/-! ### Power states (R389 to R396) -/

/-- A request for RUN or IDLE that has committed takes effect at a flight boundary (R389), but for one that only cancelled
a request for standby (R390; log entry 102). -/
def Mod.powerPass (m : Mod) : Mod :=
  let r := m.cfg 0x1400 0x22
  if r ≤ 1 ∧ !m.power.stays then m.setRo 0x1400 0x21 r else m

/-- Whether a partner's request for standby is refused with STATE (R390). -/
def Mod.standbyBarred (m : Mod) : Bool :=
  (m.tracks.any fun p => decide (p.2.state = 1 ∨ p.2.state = 2)) ||
  ((m.members 0x2200 512 1).any fun p => decide (2 ≤ p.2)) ||
  (m.axes.any fun p => decide (2 ≤ p.2.state ∧ p.2.state ≤ 4) || !p.2.queue.isEmpty) ||
  ((List.range 8).any fun k => decide (m.trigState k = 2)) || !m.record.windows.isEmpty ||
  decide (m.shadowState = 1 ∨ m.shadowState = 2) || !m.grants.isEmpty ||
  (m.convs.any fun p => p.2.calSince.isSome) || decide (m.rov 0x3190 2 = 1) || decide (bits (m.cfg 0x1400 0x23) 0 3 = 0)

/-- Whether the timed wake lies too near for a commit at tread `n` (R390). -/
def Mod.wakeTooNear (m : Mod) (n : Tread) : Bool :=
  tb (m.cfg 0x1400 0x23) 2 && decide (m.cfg 0x1400 0x26 < n + 600)

/-- Whether a standby request stands between its commit and B: writes that would bar it are refused (R390). -/
def Mod.standingBy (m : Mod) : Bool := m.power.standby.isSome

/-- Whether a requested reset that committed before the present boundary takes hold at it (R288). -/
def Mod.resetsNow (m : Mod) : Bool :=
  decide (m.tread % 100 = 0) && (match m.reset.request with | some r => decide (r.2.2 < m.tread) | none => false)

/-- Whether the present boundary is the B of a standby request that committed before it (R391). -/
def Mod.entersNow (m : Mod) : Bool :=
  decide (m.tread % 100 = 0) && (match m.power.standby with | some n => decide (n < m.tread) | none => false)

/-- Whether the module leaves service at a flight boundary: a standby or reset request committed before it (R288, R391). -/
def Mod.leaves (m : Mod) : Bool := m.entersNow || m.resetsNow

/-- The ports outside the wake port mask, and DP, powered down (R392). -/
def Mod.portsDown (m : Mod) : Mod :=
  let m := overAll ((List.range 4).filter fun p => !tb (m.cfg 0x1400 0x24) p)
    (fun (m : Mod) p => m.setRo 0x1100 0x13 (putBits (m.rov 0x1100 0x13) (8 * p) 8 0)) m
  m.setRo 0x3838 0xE 0

/-- A wake source that occurs in standby (R393, R394): the first is kept. One that occurs between B and the moment at which
standby has taken hold starts the wake then (R391). -/
def Mod.wakeBy (m : Mod) (cause detail : Nat) : Mod :=
  if !tb (m.cfg 0x1400 0x23) (cause - 1) then m
  else if m.life = .standby then
    let m := (m.setRo 0x1400 0x27 cause).setRo 0x1400 0x28 detail
    { m with life := .waking, power := { m.power with timed := decide (cause = 3) } }
  else if m.life = .run ∧ m.entersNow ∧ !m.resetsNow ∧ m.power.early.isNone then
    { m with power := { m.power with early := some (cause, detail) } }
  else m

/-- STANDBY_ENTRY's effect (R391, R392), at boundary B. A requested reset that takes hold at B cancels it. -/
def Mod.standbyEntry (m : Mod) : Mod :=
    if m.life ≠ .run ∨ !m.entersNow ∨ m.resetsNow then m else
    let m := if m.journal.ending.isSome then m.startCheckpoint (m.tread / 100 - 1) false else m
    let m := m.completeCheckpoint.haltStreams (m.tread - 1) 0
    let m := { m with chain2 := {}, chain4 := {} }
    let prior := m.powerState
    let m := overAll (onBits 15 m.tiles.awake) (fun m t => m.sleepTile t) m
    let early := m.power.early
    let m := m.portsDown.setRo 0x1400 0x21 2
    let m := { m with life := .standby, out := [], tiles := { m.tiles with awake := 0, waking := 0 },
                      power := { standby := none, entry := m.tread, prior := prior, timed := false } }
    match early with
    | some w => m.wakeBy w.1 w.2
    | none => m

/-- SAF_IMAGE_REPEAT's effect (R392): the last applied images again, whole. -/
def Mod.repeatImage (m : Mod) : Mod :=
  if (m.life ≠ .standby ∧ m.life ≠ .waking) ∨ !m.field.powered then m else (m.latchImage m.field.image).setLevels

/-- The first flight boundary at least 2 treads after a tread. -/
def firstFlight (now : Tread) : Tread := (now + 2 + 99) / 100 * 100

/-- The boundary N at which standby ends (R394, R395). -/
def Mod.wakeTread (m : Mod) (now : Tread) : Tread :=
  let b := m.power.entry
  Max.max (if m.power.timed then (m.cfg 0x1400 0x26 + 99) / 100 * 100 else firstFlight (Max.max now b)) (b + 100)

/-- Every lease's count starts anew at a boundary, and every sequence resynchronises (R301, R395). -/
def Mod.renewHall (m : Mod) (n : Tread) : Mod :=
  { m with hall := m.hall.map fun (p : Nat × Partner) => (p.1, { p.2 with last := n, resync := true }) }

/-- What the services resume at N (R395). -/
def Mod.wakeServices (m : Mod) : Mod :=
  let m := overAll (List.range 8) (fun m t => m.restartTile t m.tread) m.tpoResume.canAfresh
  let m := m.setTime { m.time with near := 0, far := 0 }
  if m.time.ptp ∧ m.rov 0x1300 1 = 3 then m.setRo 0x1300 1 2 else m

/-- WAKE_COMPLETE's effect (R394, R395): the next boundary is N, with the state that stood at B. -/
def Mod.wakeComplete (m : Mod) (now : Tread) : Mod :=
  if m.life ≠ .waking then m else
  let n := m.wakeTread now
  let gap := n - m.power.entry
  let prior := m.power.prior
  let m := { m with tread := n }
  let m := (m.setRo 0x1400 0x21 prior).setCfg 0x1400 0x22 prior
  let m := (((m.bump 0x1400 0x29).setRo 0x1400 0x2A gap).wakeServices).renewHall n
  let m := m.timeTo ((n - 1) / 100)
  { m with life := .prepared, tread := n - 1, tiles := { m.tiles with awake := m.wantAwake, waking := 0 },
           field := { m.field with built := some m.field.image } }

/-- A miscompare of a pair in the present tread, whose results the comparators have passed (R398): they are discarded, and the
other pair's are released in their place, or the tread is lost where it has none (R137, R138, R141). -/
def Mod.lateMiss (m : Mod) (pair : Nat) : Mod :=
  if m.rov 0x2000 (3 + pair) ≠ 0 then m else
  let m := m.missed pair
  if m.rov 0x2000 (4 - pair) ≠ 0 then (m.bump 0x2000 0x0A).logicReset 5 0
  else if m.rov 0x2000 2 = pair then m.takeover (1 - pair)
  else m

/-- A loss of lock of a pair's PLL (R398), which touches the present tread and `more` further ones (log entry 133). -/
def Mod.pairLoss (m : Mod) (pair more : Nat) : Mod :=
  let m := { m with engine := if pair = 0 then { m.engine with forceA := more } else { m.engine with forceB := more } }
  if m.life = .run then m.lateMiss pair else m

/-- PLL_LOCK_LOSS's effect (R398). -/
def Mod.pllLoss (m : Mod) (d more : Nat) : Mod :=
  match d with
  | 0 => m.pairLoss 0 more
  | 1 => m.pairLoss 1 more
  | 7 => m.setRo 0x1100 0x13 0
  | 8 => m.setRo 0x3838 0x0E 0
  | _ => if d ≤ 6 ∧ m.life ≠ .standby then m.logicReset 4 0 else m

/-! ### The gallery (R376 to R384) -/

/-- A record as 64 words (R376). -/
def GalDue.words64 (d : GalDue) (seq pending : Nat) : List Nat :=
  let snap := d.snap.getD []
  [seq, d.code % 1024 + 1024 * b2n d.recipe + 2 ^ 11 * d.words.length + 2 ^ 16 * snap.length,
   d.opTime % 2 ^ 32, d.opTime / 2 ^ 32 % 65536, d.power, d.tread % 2 ^ 32, d.tread / 2 ^ 32 % 2 ^ 32, pending] ++
    d.words ++ snap

/-- A record written into the next slot (R376, R381, R382). -/
def Mod.writeRecord (m : Mod) (d : GalDue) : Mod :=
  let seq := m.rov 0x1500 6
  let held := m.rov 0x1500 4
  let g := m.galCode d.code
  let m := { m with gal := { m.gal with recs := put m.gal.recs held (ofWords (d.words64 seq g.pending)) } }
  let m := ((m.setRo 0x1500 6 (seq + 1)).setRo 0x1500 4 (held + 1)).setGalCode d.code
    { g with pending := 0, written := (g.written + 1) % 2 ^ 32 }
  if 16384 ≤ held + 1 then m.setRo 0x1500 5 1 else m

/-- The rate window of a code that is open at a flight, and how many records it holds (R379). -/
def Mod.rateWindow (m : Mod) (code f : Nat) : Option Nat × Nat :=
  let g := m.galCode code
  match g.opened with
  | some o => if f < o + m.galSet code 3 then (some o, g.inWindow) else (none, 0)
  | none => (none, 0)

/-- A record written and counted in its code's rate window, which it opens where none is open (R379). -/
def Mod.writeCounted (m : Mod) (d : GalDue) : Mod :=
  let f := d.tread / 100
  let w := m.rateWindow d.code f
  (m.setGalCode d.code { m.galCode d.code with opened := some (w.1.getD f), inWindow := w.2 + 1 }).writeRecord d

/-- Whether a record that is due falls to its code's rate limit (R379). -/
def Mod.rateFull (m : Mod) (d : GalDue) : Bool := decide (m.galSet d.code 2 ≤ (m.rateWindow d.code (d.tread / 100)).2)

/-- GALLERY_RECORD's effect (R379, R380): the oldest due record; at most 64 are written per flight. -/
def Mod.galleryRecord (m : Mod) : Mod :=
  if m.rov 0x1500 5 = 2 ∨ m.blockIn 17 then m else
  match m.gal.queue with
  | [] => m
  | d :: l =>
    let f := m.tread / 100
    let n := if m.gal.flight = f then m.gal.wrote else 0
    let rest := { m with gal := { m.gal with queue := l } }
    if m.rov 0x1500 5 = 1 then rest.bump 0x1500 7
    else if m.rateFull d then rest.suppress d.code
    else if 64 ≤ n then m
    else { m with gal := { m.gal with queue := l, flight := f, wrote := n + 1 } }.writeCounted d

/-! ### Tokens (R399 to R404) -/

/-- Permitted resources, class (true: ordinary) and least role of an activity (R400). -/
def activity : Nat → Option (Nat × Bool × Nat)
  | 1 | 2 => some (0xFF, true, 2)
  | 3 => some (0xFF00, true, 2)
  | 4 => some (0x3F0000, true, 2)
  | 5 => some (0x3C00000, true, 2)
  | 6 => some (2 ^ 26, true, 3)
  | 7 => some (2 ^ 27, true, 2)
  | 8 => some (2 ^ 27, false, 3)
  | 9 => some (2 ^ 28, false, 2)
  | 10 => some (2 ^ 29, false, 3)
  | 11 => some (2 ^ 30, false, 2)
  | 12 => some (2 ^ 31, false, 3)
  | _ => none

/-- Whether a mask is one that an activity permits (R400). -/
def maskOk (mask code : Nat) : Bool :=
  match activity code with
  | some x => decide (mask ≠ 0) && subBits 32 mask x.1 && decide (code ≠ 2 ∨ mask = 0xFF)
  | none => false

/-- Resource bits of a loop set to a mode (R401). -/
def Mod.modeRefs (m : Mod) (j mode : Nat) : Nat :=
  let d := m.dest j
  orBits (if mode = 2 ∨ mode = 3 then tileOf (m.cfg (0x2200 + j) 0x10) else 0)
    (if 1 ≤ mode ∧ mode ≤ 4 ∧ 0x900 ≤ d ∧ d < 0x940 then 2 ^ (8 + (d - 0x900) / 8) else 0)

/-- Resource bits that a signal stands for in a condition term or an action. -/
def sigRefs (s : Sig) : Nat :=
  if 0x800 ≤ s ∧ s < 0x900 then tileOf s
  else if 0x940 ≤ s ∧ s < 0xA00 then 2 ^ (16 + (s - 0x940) / 32)
  else if 0xA00 ≤ s ∧ s < 0xAC0 then 2 ^ (16 + (s - 0xA00) / 32)
  else 0

/-- Resource bits of an action. -/
def Mod.actRefs (m : Mod) (i : Nat) : Nat :=
  let e := m.bank.action i
  let tgt := actTgt e
  match actOp e with
  | 0x04 => m.modeRefs (tgt % 512) (m.bank.operand e)
  | 0x06 => 2 ^ (8 + (tgt - 0x900) / 8)
  | 0x07 | 0x08 | 0x09 | 0x0F => sigRefs tgt
  | 0x0A | 0x0B | 0x0C => 2 ^ (22 + (tgt - 0xB10) / 8)
  | 0x16 => 2 ^ 26
  | _ => 0

/-- Resource bits of a loop-mode set. -/
def Mod.setRefs (m : Mod) (set : Nat) : Nat :=
  if set = 0xFFFF then 0 else
  orBits (2 ^ 27) (orAll ((List.range 32).map fun i =>
    let w := wordOf (lookD m.bank.sets set 0) i
    if tb w 31 then m.modeRefs (bits w 0 9) (bits w 9 3) else 0))

/-- Banks of a 192-bit mask of outputs, as resource bits. -/
def bankRefs (mask : Nat) : Nat := orAll ((List.range 6).map fun b => if bits mask (32 * b) 32 = 0 then 0 else 2 ^ (16 + b))

/-- The resources that a track references (R401). -/
def Mod.trackRefs (m : Mod) (t : Nat) : Nat :=
  let s := m.track t
  let fault := 2 ^ 16 * bits (m.cfg (0x4000 + t) 0x0C) 0 6
  if (s.state = 1 ∨ s.state = 2) ∧ s.step ≠ 0xFFFF then
    let e := m.stepE s.step
    let wake := m.wakeMask s.step
    let acts := listOf (bits (wordOf e 9) 0 16) (bits (wordOf e 9) 16 8)
    let terms := (List.range 4).map fun i => if bits (wordOf e (5 + i)) 0 4 = 0 then 0 else sigRefs (bits (wordOf e (5 + i)) 4 12)
    orAll ([fault, wake % 256, 2 ^ 22 * bits wake 8 4, bankRefs s.heldMask, m.setRefs (bits (wordOf e 10) 0 16)] ++ terms ++
      acts.map m.actRefs)
  else if s.state = 3 then
    let e := m.landingE s.curLanding
    orAll ([fault, bankRefs s.heldMask, m.setRefs (bits (wordOf e 1) 0 16),
      if bits (wordOf e 4) 0 8 = 0 then 0 else 2 ^ 26] ++ (m.landingActs s.curLanding).map m.actRefs ++
      (onBits 32 (wordOf e 3)).map fun a => 2 ^ (22 + a / 8))
  else 0

/-- The check of R402: a status, 0 where granted, and the refusal record. -/
def Mod.tokenCheck (m : Mod) (mask code : Nat) : Nat × Nat :=
  let record := fun (mk holder act track status : Nat) =>
    mk % 2 ^ 32 + 2 ^ 32 * holder + 2 ^ 40 * act + 2 ^ 48 * track + 2 ^ 56 * status
  match m.grants.find? fun g => decide (((g.2 % 2 ^ 32) &&& mask) ≠ 0) with
  | some g => (0x16, record (orAll (m.grants.map fun g => g.2 % 2 ^ 32) &&& mask) (bits g.2 32 8) (bits g.2 40 8) 0xFF 0x16)
  | none =>
    let refs := m.tracks.find? fun p => decide ((m.trackRefs p.1 &&& mask) ≠ 0)
    match (match activity code with | some (_, true, _) => refs | _ => none) with
    | some p => (0x15, record (m.trackRefs p.1 &&& mask) 0 0 p.1 0x15)
    | none => if 16 ≤ m.grants.length then (0x1A, record mask 0 0 0xFF 0x1A) else (0, 0)

/-- An object that an association holds for itself and the module writes. -/
def Mod.rovOf (m : Mod) (a idx sub : Nat) : Nat := stGet m.ro (okey a idx sub)
/-- The same set. -/
def Mod.setRoOf (m : Mod) (a idx sub v : Nat) : Mod := { m with ro := stPut m.ro (okey a idx sub) v }

/-- A grant (R403): the lowest free slot. -/
def Mod.grant (m : Mod) (a mask code : Nat) : Mod :=
  match (List.range 16).find? fun s => decide (m.rov 0x1600 (0x10 + s) = 0) with
  | some s => (m.setRo 0x1600 (0x10 + s) (mask % 2 ^ 32 + 2 ^ 32 * a + 2 ^ 40 * code)).setRoOf a 0x1600 3 (s + 1)
  | none => m

/-- Whether an operation started under a grant with these resources is running (R404): a check that runs again after a reset was
started under none that stands. -/
def Mod.operating (m : Mod) (mask : Nat) : Bool :=
  (m.convs.any fun p => p.2.calSince.isSome && tb mask (p.1 / 8)) ||
  (decide (m.rov 0x3190 2 = 1) && decide (mask % 256 ≠ 0)) || (decide (m.rov 0x1500 5 = 2) && tb mask 29) ||
  (decide (m.shadowState = 2) && tb mask 28 && !tb m.reruns 0) || (decide (m.rov 0x1620 6 = 2) && tb mask 31 && !tb m.reruns 1)

/-- Whether a release write is refused with STATE (R404). -/
def Mod.releaseBarred (m : Mod) (a role slot : Nat) : Bool :=
  let g := m.rov 0x1600 (0x0F + slot)
  decide (g = 0) || ((decide (bits g 32 8 ≠ a) || tb m.orphans (slot - 1)) && decide (role ≠ 3)) || m.operating (g % 2 ^ 32)

/-- A grant ended: its slot is free, and a load under it is cancelled (R97, R404). -/
def Mod.endGrant (m : Mod) (slot : Nat) : Mod :=
  let g := m.rov 0x1600 (0x0F + slot)
  let m := if tb g 28 ∧ m.shadowState = 1 then m.emptyShadow else m
  let m := if tb g 31 ∧ m.rov 0x1620 6 = 1 then
      { m.setRo 0x1620 6 0 with firmware := { m.firmware with image := 0, received := 0, top := 0 } } else m
  { m.setRo 0x1600 (0x0F + slot) 0 with orphans := setBit m.orphans (slot - 1) false }

/-- Grants whose holders have left the hall end once nothing started under them runs (R404). -/
def Mod.freeLost (m : Mod) : Mod :=
  overAll m.grants (fun m g =>
    if !tb m.orphans g.1 ∨ m.operating (g.2 % 2 ^ 32) then m else m.endGrant (g.1 + 1)) m

/-- The holder of grants leaves the hall (R404): they end, or outlast what runs under them; who takes its ID later holds none of
them. -/
def Mod.holderLeaves (m : Mod) (a : Nat) : Mod :=
  let l := m.grants.filter fun g => decide (bits g.2 32 8 = a)
  { m with orphans := l.foldl (fun w (g : Nat × Nat) => setBit w g.1 true) m.orphans }.freeLost

/-- GALLERY_CLEAR's effect at its boundary (R384). -/
def Mod.galleryClear (m : Mod) (a role : Nat) : Mod :=
  { m.setRo 0x1500 5 2 with gal := { m.gal with clearBy := a, clearRole := role } }

/-- GALLERY_CLEAR_END's effect (R384), with the snapshot of code 0x002, which no rate limit suppresses (log entry 101). -/
def Mod.galleryClearEnd (m : Mod) (snap : List Nat) : Mod :=
  if m.rov 0x1500 5 ≠ 2 then m else
  let m := { m with gal := { m.gal with recs := [] } }
  let m := (((m.setRo 0x1500 4 0).setRo 0x1500 5 0).bump 0x1500 0xA).setRo 0x1500 7 0
  let m := m.writeCounted { tread := m.tread, code := 2, source := 0, words := [m.gal.clearBy, m.gal.clearRole],
                            snap := some snap, power := m.rov 0x1400 0x0E, opTime := m.rov 0x1500 8 }
  m.freeLost

/-- VALIDATION_END's effect (R99, R404). -/
def Mod.validationEnd (m : Mod) : Mod :=
  if m.blockIn 16 then m else { m.endValidation with reruns := setBit m.reruns 0 false }.freeLost

/-! ### Output pulse test (R405) -/

/-- Whether a track holds a pattern on a bank (R71). -/
def Mod.patternHeld (m : Mod) (b : Nat) : Bool := m.tracks.any fun p => decide (bits p.2.heldMask (32 * b) 32 ≠ 0)

/-- Whether a pulse test is refused with STATE. -/
def Mod.pulseBarred (m : Mod) (o : Nat) : Bool :=
  m.patternHeld (o / 32) || decide (m.snapBanks.getD (o / 32) 0 ≠ 0) || m.field.fallOut ||
  decide (m.cfg (0x3400 + m.lead o) 1 ≠ 1) || m.isDuty o || m.field.pulse.isSome

/-- A pulse test started at its boundary. -/
def Mod.startPulse (m : Mod) (o us : Nat) : Mod :=
  ({ m with field := { m.field with pulse := some (m.lead o, us, m.tread) } }.setRo 0x1610 3 m.tread).setLevels.pulsePass

/-- PULSE_TEST_END's effect: outputs of the bank that read high before the pulse and low at its end. -/
def Mod.endPulse (m : Mod) (before after : Nat) : Mod :=
  match m.field.pulse with
  | none => m
  | some p =>
    if (m.tread - p.2.2 + 1) * 10 ≤ p.2.1 then m else
    ({ m with field := { m.field with pulse := none } }.setRo 0x1610 2 (clrBits (before % 2 ^ 32) after)).setLevels

/-! ### Firmware (R407, R408) -/

/-- Target state (0x1620:06): 0 empty, 1 loading, 2 verifying, 3 valid, 4 invalid, 5 trial. -/
def Mod.fwState (m : Mod) : Nat := m.rov 0x1620 6
/-- Firmware set. -/
def Mod.setFw (m : Mod) (f : FirmwareSt) : Mod := { m with firmware := f }

/-- BEGIN. -/
def Mod.fwBegin (m : Mod) : Mod :=
  ((m.setFw { m.firmware with image := 0, received := 0, top := 0 }).setRo 0x1620 6 1).setCfg 0x1620 4 0

/-- A chunk at the load offset, which then advances; the received count is the highest offset written plus the length of
that chunk (R98, R407). -/
def Mod.fwChunk (m : Mod) (len data : Nat) : Mod :=
  let off := m.cfg 0x1620 4
  let f := m.firmware
  let image := f.image % 256 ^ off + 256 ^ off * (data % 256 ^ len) + 256 ^ (off + len) * (f.image / 256 ^ (off + len))
  let f := if off < f.top then f else { f with top := off, received := off + len }
  (m.setFw { f with image := image }).setCfg 0x1620 4 (off + len)

/-- CANCEL: the slot empty. -/
def Mod.fwCancel (m : Mod) : Mod := (m.setFw { m.firmware with image := 0, received := 0, top := 0 }).setRo 0x1620 6 0

/-- FIRMWARE_VERIFIED's effect: the first failure of signature, order number, length and format. -/
def Mod.fwVerified (m : Mod) (orderOk formatOk : Bool) (version : Nat) : Mod :=
  if m.fwState ≠ 2 ∨ m.blockIn 16 then m else
  let f := m.firmware
  let sig := Config.signatureHolds (bytesAt f.image 0 (m.cfg 0x1620 2))
  let code := if !sig then 1 else if !orderOk then 2 else if f.received ≠ m.cfg 0x1620 2 then 3 else if !formatOk then 4 else 0
  let m := { (m.setRo 0x1620 6 (if code = 0 then 3 else 4)).setRo 0x1620 9 code with reruns := setBit m.reruns 1 false }
  (if code = 0 then m.setRo 0x1620 (if f.running = 0 then 0x0A else 8) (version % 2 ^ 32) else m).freeLost

/-- A gallery record of a firmware event (R408): code and words are not given (log entry 32). -/
def Mod.fwRecord (m : Mod) : Mod := let d := m.draw; d.2.logGal 3 0 [16, d.1]

/-- ACTIVATE: the target slot has the higher priority. -/
def Mod.activate (m : Mod) : Mod := m.setFw { m.firmware with priority := 1 - m.firmware.running }

/-- The slot that runs, with what it changes: the target slot, the version. -/
def Mod.runSlot (m : Mod) (slot : Nat) : Mod :=
  let m := m.setFw { m.firmware with running := slot, priority := slot }
  ((m.setRo 0x1400 0x0F slot).setRo 0x1620 1 (1 - slot)).setRo 0x1000 9 (m.rov 0x1620 (if slot = 0 then 8 else 0x0A))

/-- The housekeeping processor starts (R290, R408): an activated image runs in trial. -/
def Mod.hkStart (m : Mod) : Mod :=
  let f := m.firmware
  if f.priority ≠ f.running ∧ m.fwState = 3 then
    let m := m.runSlot f.priority
    (m.setFw { m.firmware with trial := some m.tread }).setRo 0x1620 6 5
  else m

/-- CONFIRM: the image is permanent; the other slot holds the former one, which stays valid. -/
def Mod.confirmFw (m : Mod) : Mod :=
  ((m.setFw { m.firmware with trial := none }).setRo 0x1620 6 3).fwRecord

/-- TRIAL_TIMEOUT's effect: the former image is restored, the trial image invalid, the processor in per-block reset. -/
def Mod.trialTimeout (m : Mod) (failed : Bool) : Mod :=
  match m.firmware.trial with
  | none => m
  | some t =>
    if !failed ∧ m.tread < t + 60000000 then m else
    let m := m.runSlot (1 - m.firmware.running)
    let m := (m.setFw { m.firmware with trial := none }).setRo 0x1620 6 4
    (m.setRo 0x1410 2 (setBit (m.rov 0x1410 2) 16 true)).fwRecord

/-! ### Per-block resets (R289, R290) -/

/-- What a block does as its reset begins. -/
def Mod.enterBlock (m : Mod) (b : Nat) : Mod :=
  let m := m.setRo 0x1410 2 (setBit (m.rov 0x1410 2) b true)
  if b < 8 then m.restartTile b (m.tread + 1)
  else if b = 12 ∨ b = 13 then (m.dropPending (b - 12)).setCanPort (b - 12) { (m.dropPending (b - 12)).canPort (b - 12) with resp := [] }
  else if b = 14 then
    let m := overAll m.record.windows (fun (m : Mod) w => m.setStream w.slot { m.stream w.slot with first := none, groups := [] }) m
    (m.setRecord { m.record with windows := [], fires := [], buffer := [], bufSince := m.tread }).setRo 0x3850 0x12 0
  else m

/-- BLOCK_RESET's effect at its boundary. -/
def Mod.blockReset (m : Mod) (mask : Nat) : Mod := overAll (onBits 18 mask) (fun m b => m.enterBlock b) m

/-- What a block does as it leaves reset, the association service apart. -/
def Mod.leaveBlock (m : Mod) (b : Nat) : Mod :=
  let m := m.setRo 0x1410 2 (setBit (m.rov 0x1410 2) b false)
  if b < 8 then m.restartTile b (m.tread + 1)
  else if b = 12 ∨ b = 13 then m.resetPort (b - 12)
  else if b = 14 then
    overAll (List.range 8) (fun (m : Mod) k => if m.trigState k = 2 then m.holdOff k m.tread else m)
      (m.setRecord { m.record with buffer := [], bufSince := m.tread })
  else if b = 16 then m.hkStart
  else m

end Sys2Proof.Machine
end

