-- ==== Sys2Proof/Machine/Access.lean ====
section
/-! DEFINITION. The dictionary as an association reaches it (19): which objects it has, their values in the committed
state with the windows and the objects of R415, and the objects that belong to a per-block reset. -/

namespace Sys2Proof.Machine

/-! ### Associations -/

/-- The entry of an association that is in the hall and not leaving it. -/
def Mod.inHall (m : Mod) (a : Nat) : Option Partner :=
  match look m.hall a with
  | some p => if p.state = 1 then some p else none
  | none => none
/-- An association's entry set. -/
def Mod.setPartner (m : Mod) (a : Nat) (p : Partner) : Mod := { m with hall := put m.hall a p }
/-- The role of an association; observer for one that is gone. -/
def Mod.roleOf (m : Mod) (a : Nat) : Nat := match look m.hall a with | some p => p.role | none => 0
/-- The agreed profile of an association. -/
def Mod.profOf (m : Mod) (a : Nat) : Nat := match look m.hall a with | some p => p.agreed.profile | none => 1
/-- The agreed image format of an association (R323). -/
def Mod.formatOf (m : Mod) (a : Nat) : Nat := match look m.hall a with | some p => p.agreed.format | none => 2
/-- Whether an association has agreed a feature (R322). -/
def Mod.feature (m : Mod) (a bit : Nat) : Bool := match look m.hall a with | some p => tb p.agreed.features bit | none => false

/-! ### What exists -/

/-- Whether an index exists in a profile, and whether the subindex does (R31 steps 3.1 and 3.2, R324, R409): a status,
0 where the object exists. -/
def exists_ (prof idx sub : Nat) : Nat :=
  match famOf idx with
  | none => 0x10
  | some (f, _) =>
    if prof < famProf f then 0x10
    else if sub = 0 then 0
    else match place idx sub with
      | none => 0x11
      | some p => if p.row.prof ≤ prof then 0 else 0x10

/-! ### Descriptors (R420, R421) -/

/-- Earlier names of the objects that D3 renames (R421). -/
def aliasOf (p : Place) : Option String :=
  match p.fam, p.row.sub with
  | .loop, 2 => some "Set-point target"
  | .loop, 5 => some "Set-point"
  | .dout, 1 => some "Output"
  | _, _ => none

/-- A text as 32 bytes. -/
def textValue (s : String) : Nat := ofLe ((s.toList.map Char.toNat).take 32)

/-- The name of an object: as the object table gives it; members of a range, and names that are not ASCII, are not
given by the spec (log entry 13). -/
def nameOf (p : Place) (sel : Nat) : Nat :=
  if p.row.cnt = 1 ∧ p.row.name.toList.all (fun c => decide (c.toNat < 128)) then textValue p.row.name
  else (Config.memberName (sel % 65536) (bits sel 16 8)).toNat

/-- The descriptor of a selected object, 0 for one absent from the reader's profile. -/
def descriptorOf (prof sel : Nat) : Nat :=
  let idx := sel % 65536
  let sub := bits sel 16 8
  if exists_ prof idx sub ≠ 0 ∨ sel / 2 ^ 24 ≠ 0 then 0 else
  match place idx sub with
  | some p =>
    ofLe ([p.row.ty.code, p.row.acc.code, p.row.role, Max.max p.row.prof (famProf p.fam)] ++ leBytes 2 (sizeOf_ p) ++
      [b2n p.row.per + 2 * b2n (aliasOf p).isSome, 0])
  | none => ofLe [2, 1, 0, (match famOf idx with | some (f, _) => famProf f | none => 1), 1, 0, 0, 0]

/-- Name (D3 form) and alias of a selected object; without the alias-names feature the earlier name stands (R324). -/
def namesOf (prof : Nat) (d3 : Bool) (sel : Nat) : Nat × Nat :=
  let idx := sel % 65536
  let sub := bits sel 16 8
  if exists_ prof idx sub ≠ 0 ∨ sel / 2 ^ 24 ≠ 0 then (0, 0) else
  match place idx sub with
  | some p =>
    let old := match aliasOf p with | some s => textValue s | none => 0
    (if old ≠ 0 ∧ !d3 then old else nameOf p sel, old)
  | none => ((Config.memberName (sel % 65536) (bits sel 16 8)).toNat, 0)

/-! ### Windows and records -/

/-- The hall record of an association (R325), all 0 for none. -/
def Partner.record (p : Partner) (outstanding : Nat) : Nat :=
  let g := p.agreed
  ofLe ([p.id, g.cls, p.role, g.src.port, g.major, g.minor, g.profile, g.format] ++ leBytes 4 g.features ++
    leBytes 2 p.heartbeat ++ [p.lossAction, b2n g.auth] ++ leBytes 4 g.node ++ leBytes 6 g.src.mac ++
    leBytes 2 (if g.src.udp then g.src.udpPort else 0) ++ leBytes 4 (if g.src.udp then g.src.ip else 0) ++
    leBytes 8 p.since ++ leBytes 4 p.expect ++ leBytes 4 p.gaps ++ leBytes 4 p.authFails ++ leBytes 4 p.dups ++
    leBytes 2 outstanding ++ [0, 0] ++ leBytes 4 p.last)

/-- Messages of an association that are held behind a missing one (R320). -/
def Partner.waiting (p : Partner) : Nat := (p.held.filter fun x => decide (x.req ≠ .done)).length

/-- Outstanding transactions of an association (R29). -/
def Mod.outstandingOf (m : Mod) (a : Nat) : Nat :=
  (m.staged.filter fun s => decide (s.assoc = a)).length + (m.reads.filter fun r => decide (r.assoc = a)).length +
  (m.waiting.filter fun w => decide (w.2.assoc = a)).length +
  (match look m.hall a with | some p => p.waiting | none => 0)

/-- Outstanding transactions of all associations (R29). -/
def Mod.outstanding (m : Mod) : Nat :=
  m.staged.length + m.reads.length + m.waiting.length + m.hall.foldl (fun n p => n + p.2.waiting) 0

/-- The words of a snapshot list (0x1510:04). -/
def listWords (list : Nat) : Nat := (snapList 56 list).foldl (fun n p => n + wordsOf p.1 p.2) 0

/-- Objects of the per-code settings (0x1510), of the code that the association selects. -/
def Mod.galleryCodeObj (m : Mod) (a sub : Nat) : Option Nat :=
  let code := m.cfgOf a 0x1510 1
  let g := m.galCode code
  match sub with
  | 2 | 3 | 5 => some (m.galSet code sub)
  | 4 => some (listWords (m.galSet code 5))
  | 6 => some g.pending
  | 7 => some g.total
  | 8 => some g.written
  | _ => none

/-- Objects of the agreement (R419). -/
def Mod.agreedObj (m : Mod) (a sub : Nat) : Option Nat :=
  match look m.hall a with
  | none => none
  | some p =>
    match sub with
    | 4 => some p.agreed.major
    | 5 => some p.agreed.minor
    | 6 => some p.agreed.profile
    | 7 => some p.agreed.features
    | 8 => some p.agreed.format
    | 9 => some p.id
    | 10 => some p.role
    | _ => none

/-- Objects whose value depends on the reader, or stands in a window that the reader has set. -/
def Mod.readerObj (m : Mod) (ro : SMap Nat) (a : Nat) (p : Place) (sub : Nat) : Option Nat :=
  match p.fam with
  | .versions => m.agreedObj a sub
  | .descriptor =>
    let sel := m.cfgOf a 0x1002 1
    let n := namesOf (m.profOf a) (m.feature a 7) sel
    match sub with
    | 2 => some (descriptorOf (m.profOf a) sel)
    | 3 => some n.1
    | 4 => some n.2
    | _ => none
  | .link => if sub ≠ 0x11 then none else
      let sel := m.cfgOf a 0x1100 0x10
      some (match look m.hallCom sel with
        | some p => if p.state = 0 then 0 else p.record (lookD m.kept.outstanding sel 0)
        | none => 0)
  | .gallery => match sub with
    | 2 => some (lookD m.gal.recs (m.cfgOf a 0x1500 1) 0)
    | 3 => some (lookD m.gal.recs (m.cfgOf a 0x1500 1) 0 % 2 ^ 32)
    | _ => none
  | .galleryCode => m.galleryCodeObj a sub
  | .tokens => if sub = 3 ∨ sub = 4 then some (stGet ro (okey a 0x1600 sub)) else none
  | .mapped => if sub = 2 then some (m.mappedValue p.k).toF else none
  | .ringWindow => if sub = 2 then some (m.ringWindow (m.cfgOf a 0x3820 1)) else none
  | .mapWindow => if sub = 2 then some (m.mapWindow (m.cfgOf a 0x3830 1)) else none
  | .readWindow => match sub with
    | 2 => some (m.readWindow (m.cfgOf a 0x4023 1))
    | 3 => some (m.entryName (m.cfgOf a 0x4023 1))
    | _ => none
  | _ => none

/-- The value that an association reads in a state: its length in bytes and the value (R410, R413, R415). -/
def Mod.valueFor (m : Mod) (a idx sub : Nat) : Nat × Nat :=
  match place idx sub with
  | none => (1, match famOf idx with | some (f, _) => highestSub f (m.profOf a) | none => 0)
  | some p =>
    if p.row.acc = .wo ∨ p.row.ty = .octVar then (0, 0) else
    (sizeOf_ p,
      match m.readerObj m.ro a p (canSub p.fam sub) with
      | some v => v
      | none => if p.row.per then (if p.row.acc = .ro then stGet m.ro (okey a idx sub) else m.cfgOf a idx sub)
          else m.shared m.ro idx sub)
/-- The value that an association reads: of the committed state of the tread (R26, R42). -/
def Mod.readAs (m : Mod) (a idx sub : Nat) : Nat × Nat := m.frozen.valueFor a idx sub

/-- The snapshot of a code, as one read of the tread takes it (R378); per-association objects stand at their defaults
(R415). -/
def Mod.snapshot (m : Mod) (code : Nat) : List Nat :=
  (snapList 56 (m.galSet code 5)).flatMap fun o => lowWords (wordsOf o.1 o.2) (m.readAs 0 o.1 o.2).2
/-- The records that fell due in the tread have their snapshots taken (R378). -/
def Mod.fillSnaps (m : Mod) : Mod :=
  { m with gal := { m.gal with queue := m.gal.queue.map fun (d : GalDue) =>
      if d.snap.isNone then { d with snap := some (m.snapshot d.code) } else d } }

/-- Whether a read is refused in the committed state (R31, R444): the shadow bank, unless it is valid or invalid. -/
def Mod.readBarred (m : Mod) (a idx sub : Nat) : Bool :=
  decide (idx = 0x4023 ∧ 2 ≤ sub) && tb (m.cfgOf a 0x4023 1) 31 &&
    !(decide (m.frozen.shadowState = 3 ∨ m.frozen.shadowState = 4))

/-- Objects that the housekeeping processor serves (R46). -/
def served (idx sub : Nat) : Bool :=
  (decide (idx = 0x1500) && decide (sub = 2 ∨ sub = 3)) || (decide (idx = 0x4023) && decide (sub = 2 ∨ sub = 3)) ||
  decide (idx = 0x3830 ∧ sub = 2)

/-! ### Blocks (R31 step 3.7, R54, R289) -/

/-- The block of R289 that an object belongs to. -/
def blockOf (p : Place) (sub : Nat) : Option Nat :=
  match p.fam with
  | .input => some (p.k / 32)
  | .conv | .sequence => some (p.k / 8)
  | .tile => some p.k
  | .axis => some (8 + p.k / 8)
  | .axisLink => some (8 + p.k)
  | .canObject => some (12 + b2n (decide (0x10 < sub)))
  | .canPort => some (12 + p.k)
  | .trigger | .capture => some 14
  | .dataPort => some 15
  | .gallery | .galleryCode => some 17
  | _ => none

/-- Whether an object's block is in per-block reset; the load objects and those that the housekeeping processor serves
need that processor (R290). -/
def Mod.isolated (m : Mod) (p : Place) (idx sub : Nat) : Bool :=
  (match blockOf p sub with
   | some b => m.blockIn b
   | none => false) ||
  (m.blockIn 16 && (decide (p.fam = .load) || served idx sub))

end Sys2Proof.Machine
end

