-- ==== Sys2Proof/Machine/Rules.lean ====
section
/-! DEFINITION. What a write must satisfy (R31 step 3): for every object of the dictionary who may write it, which block
owns it and when that block is idle, the values it takes, and the states in which its chapter forbids the write. -/

namespace Sys2Proof.Machine

/-! ### Statuses (R416) -/

/-- OK. -/
def stOk : Nat := 0
/-- STAGED. -/
def stStaged : Nat := 1
/-- COMMITTED. -/
def stCommitted : Nat := 2
/-- SUPERSEDED. -/
def stSuperseded : Nat := 3
/-- LATE. -/
def stLate : Nat := 4
/-- TYPE. -/
def stType : Nat := 0x12
/-- RANGE. -/
def stRange : Nat := 0x13
/-- ACCESS. -/
def stAccess : Nat := 0x14
/-- STATE. -/
def stState : Nat := 0x15
/-- BUSY_TOKEN. -/
def stBusy : Nat := 0x16
/-- ISOLATED. -/
def stIsolated : Nat := 0x17
/-- VERSION. -/
def stVersion : Nat := 0x18
/-- AUTH. -/
def stAuth : Nat := 0x19
/-- OVERLOAD. -/
def stOverload : Nat := 0x1A
/-- TOO_LARGE. -/
def stTooLarge : Nat := 0x1B

/-- A status unless a condition holds. -/
def unless_ (ok : Bool) (status : Nat) : Nat := if ok then 0 else status
/-- The first status that is not 0. -/
def firstOf : List Nat → Nat
  | [] => 0
  | s :: l => if s = 0 then firstOf l else s

/-! ### What a transaction has written so far -/

/-- Keys of writes (R378 for per-code settings, R415 for per-association objects). -/
def Mod.writeKey (m : Mod) (a : Nat) (e : Entry) : Nat :=
  match place e.idx e.sub with
  | some p =>
    if p.row.per then okey a e.idx e.sub
    else if e.idx = 0x1510 then codeKey (m.cfgOf a 0x1510 1) e.sub
    else okey 0 e.idx e.sub
  | none => okey 0 e.idx e.sub

/-- The module as the entries of a transaction see it that stand after `e` in its list: its value, and for the load
objects of the stairwell and of firmware and the commands to an axis their effect (R30, R31, R239, R243). -/
def Mod.overlay (m : Mod) (a : Nat) (e : Entry) : Mod :=
  if e.idx = 0x4021 ∧ e.sub = 5 then (if m.shadowState = 1 then m.putChunk e.len e.val else m)
  else if e.idx = 0x4021 ∧ e.sub = 7 then
    (if e.val = 1 then m.beginLoad else if e.val = 2 then m.finishLoad else m.emptyShadow)
  else if e.idx = 0x1620 ∧ e.sub = 5 then (if m.fwState = 1 then m.fwChunk e.len e.val else m)
  else if e.idx = 0x1620 ∧ e.sub = 3 then
    (if e.val = 1 then m.fwBegin else if e.val = 2 then m.setRo 0x1620 6 2 else if e.val = 3 then m.fwCancel else m)
  else
    let m := { m with objs := stPut m.objs (m.writeKey a e) e.val }
    if 0x3600 ≤ e.idx ∧ e.idx < 0x3620 then m.axisWrite (e.idx - 0x3600) e.sub e.val else m

/-- The overlay of an entry whose transaction goes on with `later`; a command to an axis that a later entry or, `dead`, a later
transaction replaces does nothing (R30, R40). -/
def Mod.overlayIn (m : Mod) (a : Nat) (e : Entry) (dead : Bool) (later : List Entry) : Mod :=
  if 0x3600 ≤ e.idx ∧ e.idx < 0x3620 ∧ (dead ∨ later.any fun x => decide (x.idx = e.idx ∧ x.sub = e.sub)) then m
  else m.overlay a e

/-- An entry that is being validated: the module in its present state (R31 steps 3.4 and 3.8; log entry 44), with the
entries before it, and with itself; the association, the present time in ns, the boundary at which the write would
commit, the whole list and the entry's place in it. -/
structure Chk where
  was : Mod
  m : Mod
  n : Mod
  a : Nat
  ns : Nat
  due : Tread
  all : List Entry
  pos : Nat
  e : Entry
  p : Place
deriving DecidableEq, Repr

/-- The entries that follow. -/
def Chk.later (c : Chk) : List Entry := c.all.drop (c.pos + 1)
/-- The module as the whole transaction would leave it. -/
def Chk.fin (c : Chk) : Mod := c.later.foldl (fun m e => m.overlay c.a e) c.n
/-- The written value. -/
def Chk.v (c : Chk) : Nat := c.e.val
/-- Subindex in the layout of the first port for message objects. -/
def Chk.sub (c : Chk) : Nat := canSub c.p.fam c.e.sub
/-- Message object number. -/
def Chk.mo (c : Chk) : Nat := c.p.k + 128 * b2n (decide (0x10 < c.e.sub))
/-- Whether no later entry of the transaction satisfies a test: rules on the whole are judged there (R31). -/
def Chk.last (c : Chk) (f : Entry → Bool) : Bool := !c.later.any f
/-- Whether the transaction writes an object. -/
def Chk.writes (c : Chk) (idx sub : Nat) : Bool := c.all.any fun e => decide (e.idx = idx ∧ e.sub = sub)

/-! ### Access (R31 step 3.3) -/

/-- Whether an object is readable with a role and a profile. -/
def readable (role prof idx sub : Nat) : Bool :=
  decide (exists_ prof idx sub = 0) &&
  (match place idx sub with
   | some p => decide (p.row.acc ≠ .ro ∨ p.row.role ≤ role)
   | none => true)
/-- Whether it is writable with them. -/
def writable (role prof idx sub : Nat) : Bool :=
  decide (exists_ prof idx sub = 0) &&
  (match place idx sub with
   | some p => decide (p.row.acc ≠ .ro ∧ p.row.role ≤ role)
   | none => false)

/-- The entries of image map `k`. -/
def Mod.mapEntriesOf (m : Mod) (k : Nat) : List Nat :=
  (List.range (m.cfg (0x6000 + k) 5)).map fun i => m.cfg (0x6000 + k) (0x10 + i)

/-- Whether the enabling of a map is refused ACCESS (R332): by neither its partner nor service, or with an entry that
the partner may not reach. -/
def Mod.mapBarred (m : Mod) (a k : Nat) : Bool :=
  let q := m.mapPartner k
  (decide (q ≠ a) && decide (m.roleOf a < 3)) ||
  (match m.inHall q with
   | some p => (m.mapEntriesOf k).any fun o =>
      if m.cfg (0x6000 + k) 1 = 0 then !readable p.role p.agreed.profile (o % 65536) (bits o 16 8)
      else !writable p.role p.agreed.profile (o % 65536) (bits o 16 8)
   | none => false)

/-- Whether an association may write the role keys (R328): on P3, or authenticated. -/
def Mod.mayKey (m : Mod) (a : Nat) : Bool :=
  match look m.hall a with
  | some p => decide (p.agreed.src.port = 3) || p.agreed.auth
  | none => false

/-- Who may write, beyond the role (R83, R289, R328, R332, R335, R364, R400). -/
def Chk.accessMore (c : Chk) : Nat :=
  let role := c.m.roleOf c.a
  match c.p.fam with
  | .link => unless_ (decide (c.e.sub < 0x21) || c.m.mayKey c.a) stAccess
  | .satellite => unless_ (decide (c.e.sub ≠ 3 ∨ c.m.cfg c.e.idx 2 = 1) || decide (c.m.boundTo c.p.k = c.a)) stAccess
  | .imageMap => unless_ (decide (c.e.sub ≠ 6 ∨ c.v ≠ 1) || !c.m.mapBarred c.a c.p.k) stAccess
  | .canObject => unless_ (decide (c.sub ≠ 8) || decide (c.m.canCfg c.mo 1 < 2)) stAccess
  | .track => unless_ (decide (c.e.sub ≠ 1 ∨ c.v % 256 ≠ 3 ∨ 2 ≤ role)) stAccess
  | .blockReset => unless_ (!tb c.v 16 || decide (3 ≤ role)) stAccess
  | .tokens => if c.e.sub ≠ 1 then 0 else
      match activity (byteOf c.v 4) with
      | none => stRange
      | some x => unless_ (decide (x.2.2 ≤ role)) stAccess
  | _ => 0

/-- Step 3.3 for a write. -/
def Chk.access (c : Chk) : Nat :=
  if c.p.row.acc = .ro ∨ c.m.roleOf c.a < c.p.row.role then stAccess else c.accessMore

/-! ### Owners and idleness (R31 step 3.4, R413) -/

/-- Signals in the condition terms of the current steps of running and paused tracks (R413). -/
def Mod.condSigs (m : Mod) : List Nat :=
  m.tracks.flatMap fun p =>
    if (p.2.state = 1 ∨ p.2.state = 2) ∧ p.2.step ≠ 0xFFFF then
      (List.range 4).filterMap fun i =>
        let t := wordOf (m.stepE p.2.step) (5 + i)
        if bits t 0 4 = 0 then none else some (bits t 4 12)
    else []

/-- Whether a loop names a signal. -/
def Mod.loopNames (m : Mod) (s : Sig) : Bool :=
  [0x10, 0x11, 0x12, 0x13].any fun sub => (m.members 0x2200 512 sub).any fun p => decide (p.2 = s)
/-- Whether an image map names an object. -/
def Mod.mapNames (m : Mod) (idx sub : Nat) : Bool :=
  (List.range 64).any fun k => (m.mapEntriesOf k).any fun o => decide (o = idx + 65536 * sub)
/-- Whether a loop, an image map or a stairwell condition names a signal with its object. -/
def Mod.named (m : Mod) (s : Sig) (idx sub : Nat) : Bool := m.loopNames s || m.mapNames idx sub || m.condSigs.contains s

/-- Whether a tile is idle (R182). -/
def Mod.tileIdle (m : Mod) (t : Nat) : Bool :=
  !tb m.loopTiles t &&
  !((List.range 8).any fun k => m.armed k && decide (m.trigCfg k 1 ≠ 0 ∧ m.trigCfg k 1 ≤ 3) &&
      tb (orBits (tileOf (m.trigCfg k 2)) (if m.trigCfg k 3 < 16 then tileOf (m.cfg 0x3850 (m.trigCfg k 3 + 1)) else 0)) t) &&
  !((List.range 8).any fun i => decide (m.cfg (0x3140 + 8 * t + i) 0x17 ≠ 0 ∨ m.cfg (0x3140 + 8 * t + i) 0x18 ≠ 0xFF)) &&
  !(m.condSigs.any fun s => tb (tileOf s) t)

/-- Whether an AO group is idle: no loop drives one of its outputs. -/
def Mod.aoIdle (m : Mod) (g : Nat) : Bool := (List.range 8).all fun i => (m.driver (0x900 + 8 * g + i)).isNone
/-- Whether a bank is idle: no loop drives one of its outputs and no track holds a pattern on it. -/
def Mod.bankIdle (m : Mod) (b : Nat) : Bool :=
  !m.patternHeld b && (List.range 32).all fun i => (m.driver (0xA00 + 32 * b + i)).isNone

/-- Whether a CAN message object is idle (R360). -/
def Mod.moIdle (m : Mod) (k : Nat) : Bool :=
  let mode := m.canCfg k 1
  decide (mode = 0) || (decide (mode ≤ 2) && !m.named (0xC00 + k) (0x3700 + k % 128) (8 + 16 * (k / 128)))

/-- Whether a mapped signal is idle (R422). -/
def Mod.mappedIdle (m : Mod) (k : Nat) : Bool :=
  !m.named (0xF00 + k) (0x1700 + k) 2 && !(m.bank.actions.any fun p => decide (actTgt p.2 = 0xF00 + k)) &&
  !((List.range 8).any fun t => decide (m.trigCfg t 2 = 0xF00 + k))

/-- Whether the capture slots are free: no trigger armed and no window open (R281). -/
def Mod.slotsIdle (m : Mod) : Bool := !((List.range 8).any m.trigBusy) && m.record.windows.isEmpty

/-- The owner of an object: its token bits, and whether the block is idle; none where no owner is asked for. -/
def Chk.owner (c0 : Chk) : Option (Nat × Bool) :=
  let c := { c0 with m := c0.was }
  let rwl := decide (c.p.row.acc = .rwl)
  let k := c.p.k
  match c.p.fam with
  | .gallery => if c.e.sub = 9 then some (2 ^ 29, false) else none
  | .pulseTest => some (2 ^ (16 + byteOf c.v 0 / 32), decide (192 ≤ byteOf c.v 0))
  | .blockReset =>
    let mask := bits c.v 0 8 + 2 ^ 22 * bits c.v 8 4 + 2 ^ 29 * bits c.v 17 1
    some (mask, decide (mask = 0))
  | .conv => if rwl then some (2 ^ (k / 8), c.m.tileIdle (k / 8)) else none
  | .tile => some (2 ^ k, false)
  | .safety => if rwl ∨ c.e.sub = 4 ∨ c.e.sub = 6 then some (2 ^ 26, false) else none
  | f =>
    if !rwl then none else
    match f with
    | .loop | .repet => some (2 ^ 27, decide (c.m.mode k = 0))
    | .input => some (2 ^ (k / 32), c.m.tileIdle (k / 32))
    | .sequence => some (2 ^ (k / 8), c.m.tileIdle (k / 8))
    | .ao => some (2 ^ (8 + k / 8), c.m.aoIdle (k / 8))
    | .dout => some (2 ^ (16 + k / 32), c.m.bankIdle (k / 32))
    | .bank => some (2 ^ (16 + k), c.m.bankIdle k)
    | .safeIn | .safeOut => some (2 ^ 26, false)
    | .axis => some (2 ^ (22 + k / 8), c.m.axisLinkIdle (k / 8))
    | .axisLink => some (2 ^ (22 + k), c.m.axisLinkIdle k)
    | .track => some (2 ^ 28, decide ((c.m.track k).state ≠ 1 ∧ (c.m.track k).state ≠ 2))
    | .load => some (2 ^ 28, false)
    | .timebase => some (2 ^ 30, false)
    | .firmware => some (2 ^ 31, false)
    | .canObject => some (0, c.m.moIdle c.mo)
    | .canPort => some (0, decide (c.m.cfg c.e.idx 1 = 0))
    | .dataPort => some (0, decide (c.m.cfg 0x3838 1 = 0))
    | .trigger => some (0, !c.m.trigBusy k)
    | .capture => some (0, c.m.slotsIdle)
    | .tpo => some (0, decide (c.m.rov c.e.idx 7 = 0))
    | .mapped => some (0, c.m.mappedIdle k)
    | .satellite => some (0, !c.m.named (0xD00 + k) c.e.idx 3)
    | .imageMap => some (0, decide (c.m.cfg c.e.idx 6 = 0))
    | _ => none

/-- The status of a write that needs the tokens of `mask`. -/
def Chk.tokenFor (c : Chk) (mask : Nat) : Nat :=
  let held := (List.range 32).filter (tb mask)
  if mask ≠ 0 ∧ held.all fun b => decide (c.m.holder b = some c.a) then 0
  else if held.any fun b => match c.m.holder b with | some h => decide (h ≠ c.a) | none => false then stBusy
  else stState

/-- Step 3.4. -/
def Chk.ownerStatus (c : Chk) : Nat :=
  match c.owner with
  | none => 0
  | some (mask, idle) => if idle then 0 else c.tokenFor mask

/-! ### Types (R31 step 3.5, R412) -/

/-- Step 3.5. -/
def Chk.typeStatus (c : Chk) : Nat :=
  match c.p.row.ty.size with
  | some n => unless_ (decide (c.e.len = n)) stType
  | none => unless_ (decide (4 ≤ c.e.len ∧ c.e.len ≤ 4064 ∧ c.e.len % 4 = 0)) stType

/-! ### Ranges (R31 step 3.6) -/

/-- Whether a number lies in a range. -/
def within_ (lo hi v : Nat) : Bool := decide (lo ≤ v ∧ v ≤ hi)
/-- A finite F32. -/
def fin_ (v : Nat) : Bool := f32Fin v
/-- A finite F32 that is not negative. -/
def notNeg (v : Nat) : Bool := f32Fin v && Dy.zero.le (f32D v)
/-- A finite F32 above 0. -/
def positive (v : Nat) : Bool := f32Fin v && Dy.zero.lt (f32D v)
/-- A finite F32 between two numbers. -/
def between (lo hi : Dy) (v : Nat) : Bool := f32Fin v && lo.le (f32D v) && (f32D v).le hi
/-- Thousandths. -/
def milli (n : Int) : Dy := (f32D (toF32 (Dy.div64 (Dy.ofInt n) (Dy.ofInt 1000))))

/-- Signals that a loop may take as process value (R109). -/
def pvSignal (s : Sig) : Bool :=
  within_ 0x800 0x8FF s || within_ 0xB10 0xB2F s || within_ 0xC00 0xFEF s || decide (s = 0xFFF)

/-- Whether a map joins at most four outputs and none to the bank's first (R191). -/
def parallelOk (map : Nat) : Bool :=
  !tb map 0 && !((List.range 29).any fun i => tb map i && tb map (i + 1) && tb map (i + 2) && tb map (i + 3))

/-- Whether loop `j` may name a destination (R109, R191, R424). -/
def Mod.destSignal (m : Mod) (j : Nat) (s : Sig) : Bool :=
  within_ 0x900 0x93F s || (within_ 0x200 0x3FF s && decide (s ≠ 0x200 + j)) || within_ 0xB10 0xB2F s ||
  within_ 0xC00 0xEFF s || decide (s = 0xFFF) ||
  (within_ 0xF00 0xFEF s && mappedWritable (m.cfg (0x1700 + (s - 0xF00)) 1)) ||
  (within_ 0xA00 0xABF s && decide (m.cfg (0x3400 + (s - 0xA00)) 2 = 1) && decide (m.lead (s - 0xA00) = s - 0xA00) &&
    !tb (m.cfg (0x34C0 + (s - 0xA00) / 32) 6) ((s - 0xA00) % 32))

/-- Loops outward of loop `j`, followed for at most `n` links. -/
def Mod.outwards (m : Mod) : Nat → Nat → Nat
  | 0, _ => 0
  | n + 1, j => match m.outer j with
    | some i => 1 + m.outwards n i
    | none => 0

/-- Whether the periods of a link suit (R128). -/
def Mod.linkOk (m : Mod) (outer inner : Nat) : Bool :=
  match m.sched outer, m.sched inner with
  | some x, some y => decide (x.1 % y.1 = 0)
  | _, _ => true

/-- Whether the chain of loop `j` is at most 4 deep, without a cycle, its periods multiples (R128). -/
def Mod.chainOk (m : Mod) (j : Nat) : Bool :=
  decide (m.depth j + m.outwards 5 j ≤ 4) &&
  (match innerOf (m.dest j) with | some i => m.linkOk j i | none => true) &&
  (match m.outer j with | some o => m.linkOk o j | none => true)

/-- Schedules as they will stand after every write already staged and the entries up to this one, in the order in which they
commit (R119). -/
def Chk.schedules (c : Chk) : Mod :=
  let isSched := fun (e : Entry) => decide (0x2200 ≤ e.idx ∧ e.idx < 0x2400 ∧ e.sub = 0x0E)
  let put := fun (m : Mod) (e : Entry) => if isSched e then m.setCfg e.idx e.sub e.val else m
  let staged := sortBy (fun a b => decide (a.due < b.due ∨ (a.due = b.due ∧ a.arrived < b.arrived))) c.n.staged
  let fold := fun (m : Mod) (l : List Staged) => l.foldl (fun m s => s.entries.foldl put m) m
  let mine := (c.all.take (c.pos + 1)).foldl put (fold c.n (staged.filter fun s => decide (s.due ≤ c.due)))
  fold mine (staged.filter fun s => decide (c.due < s.due))

/-- A schedule's own layout (R118). -/
def scheduleOk (v : Nat) : Bool :=
  decide (v / 2048 = 0) && (match classPeriod (bits v 8 3) with
    | some k => decide (v % 256 < k)
    | none => decide (bits v 8 3 = 7))

/-- Ranges of a loop's objects (R109, R118, R119, R121, R126, R128, R133). -/
def Chk.loopRange (c : Chk) : Bool :=
  let v := c.v
  let j := c.p.k
  match c.e.sub with
  | 1 => decide (v ≤ 4)
  | 2 | 7 => fin_ v
  | 0x0D | 0x14 | 0x19 => decide (v ≤ 1)
  | 0x0E => scheduleOk v && c.n.chainOk j && decide (worstLoad c.schedules.scheduled ≤ 256)
  | 0x10 => pvSignal v
  | 0x12 | 0x13 => pvSignal v || (within_ 0x400 0x5FF v && decide (v ≠ 0x400 + j))
  | 0x11 => c.n.destSignal j v && c.n.chainOk j
  | 0x15 => notNeg v
  | 0x16 => decide (1 ≤ v)
  | _ => true

/-- Whether a coefficient bank as it stands is permitted (R125, R132). -/
def Mod.bankOk (m : Mod) (idx : Nat) : Bool :=
  let w := m.cfg idx
  let c := fun sub => f32D (w sub)
  let biquad := fun (a1 a2 : Dy) => a2.abs.lt Dy.one && a1.abs.lt (Dy.one.add a2)
  let l := ((c 0x0F).add (c 0x10)).add (c 0x11)
  let r := (Dy.one.add (c 0x12)).add (c 0x13)
  ((List.range 23).all fun i => fin_ (w (i + 1))) && Dy.zero.lt (c 4) && (c 4).le Dy.one && Dy.zero.le (c 6) &&
  (c 6).le Dy.one && Dy.zero.le (c 0x14) && Dy.zero.le (c 0x15) && (c 0x16).le (c 0x17) &&
  biquad (c 0x0D) (c 0x0E) && biquad (c 0x12) (c 0x13) &&
  ((l.sub r).abs.mul (Dy.ofInt 65536)).le (l.abs.max r.abs)

/-- Whether a repetitive controller's numbers are permitted after the whole transaction (R150, R153, R154). -/
def Chk.repWhole (c : Chk) : Bool :=
  let m := c.n
  let i := c.e.idx
  let n := m.cfg i 5
  let g := fun sub => f32D (m.cfg i sub)
  (!(c.writes i 4 || c.writes i 5) || (decide (n ≠ 1 ∧ n ≤ 8192 ∧ m.cfg i 4 + n ≤ 2097152))) &&
  (!c.writes i 3 || decide (m.cfg i 2 ≠ 0 ∨ m.cfg i 3 = 0xFFF)) &&
  (!c.writes i 0x0C || decide (m.cfg i 0x0C < Max.max 1 n)) &&
  notNeg (m.cfg i 8) && ([9, 0xA, 0xB].all fun s => fin_ (m.cfg i s)) &&
  (((g 9).abs.add (g 0xA).abs).add (g 0xB).abs).le Dy.one

/-- Ranges of a repetitive controller's objects. -/
def Chk.repRange (c : Chk) : Bool :=
  let v := c.v
  (match c.e.sub with
   | 2 => decide (v ≤ 3)
   | 3 => assigned v || decide (v = 0xFFF)
   | 6 => within_ 1 (2 ^ 31) v
   | 7 => within_ 1 50 v
   | 0x0D => positive v
   | 0x12 => decide (v = 1)
   | 0x13 => decide (v ≤ 8191)
   | _ => true) &&
  (!c.last (fun e => decide (e.idx = c.e.idx)) || c.repWhole)

/-- Regular slots of a converter that name input `x`, as configured. -/
def Mod.slotsNaming (m : Mod) (x : Nat) : Nat :=
  ((List.range (m.cfg (0x3140 + x / 4) 1)).filter fun s => decide (m.cfg (0x3140 + x / 4) (2 + s) = x % 4)).length

/-- Whether the counts and phases of a converter's inputs suit its sequence (R169); an input in no regular slot has no
window (log entry 79). -/
def Chk.windowsOk (c : Chk) (conv : Nat) : Bool :=
  (List.range 4).all fun i =>
    let x := 4 * conv + i
    let k := c.n.slotsNaming x
    let cnt := c.n.cfg (0x3000 + x) 2
    decide (k = 0 ∨ (cnt % k = 0 ∧ c.n.cfg (0x3000 + x) 4 < cnt / k))

/-- Whether an entry concerns a converter's windows. -/
def windowEntry (conv : Nat) (e : Entry) : Bool :=
  decide (0x3000 + 4 * conv ≤ e.idx ∧ e.idx < 0x3004 + 4 * conv ∧ (e.sub = 2 ∨ e.sub = 4)) ||
  decide (e.idx = 0x3140 + conv ∧ e.sub ≤ 0x11)

/-- Ranges of an analog input's objects (R161, R169, R173, R176). -/
def Chk.inputRange (c : Chk) : Bool :=
  let v := c.v
  (match c.e.sub with
   | 1 => decide (v ≤ 5)
   | 2 => within_ 1 256 v
   | 3 => decide (v ≤ 8)
   | 9 => decide (v = 0) || (decide (v ≤ 8) && decide (c.n.cfg c.e.idx 1 = 4))
   | 0xA => fin_ v && !(f32D v).eqv Dy.zero
   | 0xB => fin_ v
   | 0xE => decide (v = 0 ∨ c.n.cfg c.e.idx 1 ≠ 5)
   | _ => true) &&
  (!windowEntry (c.p.k / 4) c.e || !c.last (windowEntry (c.p.k / 4)) || c.windowsOk (c.p.k / 4))

/-- Ranges of converters, sequences, tiles and input globals (R162 to R167, R176). -/
def Chk.convRange (c : Chk) : Bool :=
  let v := c.v
  let s := c.e.sub
  match c.p.fam with
  | .conv => if s = 9 then decide (v = 1) else decide (v ≤ 1)
  | .sequence =>
    (if s = 1 then within_ 1 16 v
     else if s ≤ 0x11 then decide (v ≤ 4)
     else if s = 0x12 then decide (v ≤ 4)
     else if s ≤ 0x16 then decide (v ≤ 4)
     else if s = 0x17 then decide (v ≤ 15)
     else if s = 0x18 then decide (v ≤ 7 ∨ v = 0xFF)
     else decide (v ≤ 2)) &&
    (!windowEntry c.p.k c.e || !c.last (windowEntry c.p.k) || c.windowsOk c.p.k)
  | .tile => if s = 1 then between (Dy.ofInt (-10)) (Dy.ofInt 10) v else decide (v ≤ 1)
  | .inputs => if s = 1 then decide (v = 1) else if s = 9 then between (milli 10) (milli 500) v else true
  | _ => true

/-- Ranges of field objects (R184, R185, R187 to R192, R196, R197, R200, R203). -/
def Chk.fieldRange (c : Chk) : Bool :=
  let v := c.v
  let s := c.e.sub
  match c.p.fam with
  | .ao =>
    if s = 1 then decide (v ≤ 3)
    else if s = 2 then let sp := aoSpan (c.m.inForce c.e.idx 1); between sp.1 sp.2 v
    else let sp := aoSpan (c.n.cfg c.e.idx 1); between (if c.n.cfg c.e.idx 1 = 0 then sp.1 else Dy.zero) sp.2 v
  | .aoGroup => between (milli 1) (milli 500) v
  | .di => decide (1 ≤ v)
  | .dout => match s with
    | 2 => decide (v ≤ 1)
    | 3 => between Dy.zero Dy.one v
    | 4 => within_ 100 6000000 v
    | _ => true
  | .bank => match s with
    | 2 => decide (v ≤ 1)
    | 6 => parallelOk v
    | 7 => decide (v = 1 ∨ v = 3)
    | 8 => within_ 1000 86400000 v
    | 9 => within_ 10 300 v
    | 0xA => decide (v = 1)
    | _ => true
  | .field => within_ 1 250 v
  | _ => true

/-- Ranges of the safety objects (R211, R213, R214, R216, R217, R219 to R224, R227). -/
def Chk.safetyRange (c : Chk) : Bool :=
  let v := c.v
  let s := c.e.sub
  match c.p.fam with
  | .safety => if s = 4 then decide (v = 0xA5) && c.m.armFailure.isNone else if s = 7 then within_ 1 480 v else true
  | .safeIn => match s with
    | 1 => decide (v ≤ 2)
    | 2 => decide (v ≤ 250)
    | 3 => within_ 5 2000 v
    | 4 | 5 => decide (v ≤ 15 ∨ v = 0xFF)
    | 9 => decide (v = 1)
    | _ => true
  | .safeOut => match s with
    | 1 | 3 | 6 => decide (v ≤ 1)
    | 4 => decide (v ≤ 10000)
    | 5 => decide (v ≤ 63)
    | 7 => within_ 1 86400 v
    | 8 => within_ 100 500 v
    | 9 | 0xD => decide (v = 1)
    | _ => true
  | _ => true

/-- Whether the thresholds of an axis that are not 0 rise strictly (R237). -/
def Mod.thresholdsOk (m : Mod) (idx : Nat) : Bool :=
  let l := ([0x11, 0x12, 0x13, 0x14, 0x15].map (m.cfg idx)).filter fun w => !(f32D w).eqv Dy.zero
  ([0x11, 0x12, 0x13, 0x14, 0x15].all fun s => notNeg (m.cfg idx s)) &&
  (l.zip (l.drop 1)).all fun p => (f32D p.1).lt (f32D p.2)

/-- Ranges of an axis's objects (R237 to R247; log entry 34 for limits without a stated bound). -/
def Chk.axisRange (c : Chk) : Bool :=
  let v := c.v
  match c.e.sub with
  | 1 => decide (v ≤ 1)
  | 5 => positive v && (f32D v).le (Dy.ofInt 12800000)
  | 6 | 0xA => positive v
  | 7 | 8 | 9 | 0xB => notNeg v
  | 0xC => decide (v ≤ 1)
  | 0xE | 0xF => decide (v ≤ 63)
  | 0x10 => decide (v ≤ 10000)
  | 0x11 | 0x12 | 0x13 | 0x14 | 0x15 =>
    !c.last (fun e => decide (e.idx = c.e.idx ∧ 0x11 ≤ e.sub ∧ e.sub ≤ 0x15)) || c.n.thresholdsOk c.e.idx
  | 0x16 => within_ 1 2 (bits v 0 32) &&
      moveInRange ((c.m.axis c.p.k).moveTarget (bits v 0 32) (toSigned 32 (bits v 32 32)))
  | 0x17 => decide (v = 1)
  | 0x1C => within_ 1 2 v
  | _ => true

/-- Whether a frame length is permitted (R364). -/
def canLengthOk (fd : Bool) (n : Nat) : Bool := decide (n ≤ 8) || (fd && [12, 16, 20, 24, 32, 48, 64].contains n)

/-- Whether the length of a message object suits its frame's format, judged at the last entry of the transaction that writes
either (R364). -/
def Chk.frameOk (c : Chk) : Bool :=
  let base := c.e.sub - c.sub
  !c.last (fun e => decide (e.idx = c.e.idx ∧ (e.sub = base + 2 ∨ e.sub = base + 4))) ||
    canLengthOk (tb (c.n.canCfg c.mo 2) 30) (c.n.canCfg c.mo 4)

/-- Ranges of the CAN objects (R358 to R367, R370, R373). -/
def Chk.canRange (c : Chk) : Bool :=
  let v := c.v
  match c.p.fam with
  | .canObject => match c.sub with
    | 1 => decide (v ≤ 3)
    | 2 => c.frameOk
    | 3 => decide (v < 2 ^ 29)
    | 4 => canLengthOk true v && c.frameOk
    | 5 => decide (bits v 8 4 ≤ 7 ∧ v < 2 ^ 12)
    | 6 => fin_ v && !(f32D v).eqv Dy.zero
    | 7 => fin_ v
    | 9 => decide (v = 1)
    | 0xA => decide (v = 0) || within_ 10 1000000 v
    | 0xB => decide (v ≤ 15)
    | _ => true
  | _ => match c.e.sub with
    | 2 | 3 => !c.last (fun e => decide (e.idx = c.e.idx ∧ (e.sub = 2 ∨ e.sub = 3))) ||
        timingOk (c.n.cfg c.e.idx 2) (c.n.cfg c.e.idx 3)
    | 6 => decide (v = 1)
    | 0xD => decide (v ≤ 2)
    | 0xF => tb v 30
    | _ => true

/-- Whether a selection names only what its stream has (0x3810+s:02). -/
def selectionOk (s v : Nat) : Bool :=
  match s with
  | 0 => decide (v < 2 ^ 256)
  | 1 => true
  | 3 => decide (v < 2 ^ 32)
  | _ => decide (v = 0)

/-- Ranges of the recording's objects (R256, R260, R269, R274, R277 to R280). -/
def Chk.recordRange (c : Chk) : Bool :=
  let v := c.v
  let s := c.e.sub
  match c.p.fam with
  | .record => within_ 1 500 v
  | .stream => if s = 2 then selectionOk c.p.k v else true
  | .mapWindow => decide (bits v 16 3 ≤ 5 ∧ bits v 19 2 ≤ 2 ∧ v < 2 ^ 21)
  | .dataPort => if s = 2 then decide (v ≤ 3) else if s = 0xA then decide (v ≤ 1) else true
  | .trigger =>
    let high := decide (c.n.cfg c.e.idx 1 ≠ 3) || cmpF Dy.le (c.fin.cfg c.e.idx 5) (c.fin.cfg c.e.idx 6)
    match s with
    | 1 => decide (v ≤ 5)
    | 2 => assigned v
    | 3 => decide (v ≤ 15 ∨ v = 0xFF)
    | 4 => decide (v ≤ 2)
    | 5 => !c.last (fun e => decide (e.idx = c.e.idx ∧ (e.sub = 5 ∨ e.sub = 6))) || high
    | 6 => !c.last (fun e => decide (e.idx = c.e.idx ∧ (e.sub = 5 ∨ e.sub = 6))) ||
        cmpF Dy.le (c.n.cfg c.e.idx 5) v
    | 7 => notNeg v
    | 9 => decide (v ≤ 16384)
    | 0xB => decide (v ≤ 2)
    | 0xE => decide (v ≤ 1)
    | _ => true
  | .capture => within_ 0x800 0x8FF v || decide (v = 0xFFF)
  | _ => true

/-- Largest count of event words of a gallery code (R377): a step entry's record has two under any code. -/
def eventWords (code : Nat) : Nat :=
  if code = 1 then 6 else if code = 0x041 then 4
  else if code = 0x010 ∨ code = 0x011 ∨ code = 0x020 ∨ code = 0x021 then 3 else 2

/-- Whether a snapshot list is permitted (R378). -/
def listOk_ (code v : Nat) : Bool :=
  let n := (snapList 56 v).length
  ((List.range n).all fun i =>
    let o := wordOf v i
    decide (o < 2 ^ 24) && decide (exists_ 3 (o % 65536) (bits o 16 8) = 0) &&
    (match place (o % 65536) (bits o 16 8) with | some p => p.row.ty.size.isSome | none => true)) &&
  decide (listWords v + eventWords code ≤ 56)

/-- Whether a mapping is permitted (R422). -/
def mappingOk (v : Nat) : Bool :=
  let idx := v % 65536
  let sub := bits v 16 8
  decide (v = 0) || (decide (v < 2 ^ 24) && decide (exists_ 3 idx sub = 0) &&
    !(decide (0x1700 ≤ idx ∧ idx < 0x17F0 ∧ sub = 2)) &&
    (match place idx sub with
     | some p => !p.row.per && (match p.row.ty with | .str _ | .oct _ | .octVar | .tread => false | _ => true)
     | none => true))

/-- Whether an image map may name an object (R332, R415). -/
def mapEntryOk (v : Nat) : Bool :=
  let idx := v % 65536
  let sub := bits v 16 8
  decide (v = 0) || (decide (v < 2 ^ 24) && decide (exists_ 3 idx sub = 0) &&
    (match place idx sub with
     | some p => !p.row.per && p.row.ty.size.isSome
     | none => true))

/-- Ranges of image maps and satellite entries (R332, R335). -/
def Chk.mapRange (c : Chk) : Bool :=
  let v := c.v
  match c.p.fam with
  | .imageMap =>
    let i := c.e.idx
    match c.e.sub with
    | 1 => decide (v ≤ 1)
    | 2 => within_ 1 254 v
    | 3 => within_ 10 1000000 v
    | 4 => decide (v < c.fin.cfg i 3)
    | 5 => decide (v ≤ 128)
    | 6 => decide (v = 0) ||
        (decide (c.n.imageSize c.p.k ≤ if c.n.feature (c.n.mapPartner c.p.k) 3 then 1400 else 512) &&
         within_ 10 1000000 (c.n.cfg i 3) && decide (c.n.cfg i 4 < c.n.cfg i 3))
    | 0x0D => true
    | _ => mapEntryOk v
  | _ => decide (c.e.sub ≠ 2 ∨ v ≤ 1)

/-- Ranges of the timebase and its outputs (R345, R353, R354). -/
def Chk.timeRange (c : Chk) : Bool :=
  let v := c.v
  match c.p.fam with
  | .timebase => match c.e.sub with
    | 7 => between Dy.zero (Dy.ofInt 10) v
    | 8 => between Dy.zero (f32D (c.n.cfg 0x1300 7)) v
    | 9 => within_ 1 2 v
    | 0xA => decide (v ≤ 1)
    | 0xB => decide (v ≤ 127)
    | 0xF => decide (v ≤ 7)
    | 0x11 => decide (c.ns + 1000000 < v)
    | _ => true
  | _ => match c.e.sub with
    | 1 => decide (v ≤ 2)
    | 3 | 4 => (decide (c.e.sub ≠ 3) || within_ 1000 4000000000 v) &&
        (!c.last (fun e => decide (e.idx = c.e.idx ∧ (e.sub = 3 ∨ e.sub = 4))) ||
         (decide (20 ≤ c.n.cfg c.e.idx 4) && decide (c.n.cfg c.e.idx 4 < c.n.cfg c.e.idx 3)))
    | 6 => decide (v ≤ 1)
    | _ => true

/-- Ranges of resets, power and the housekeeping objects (R55, R206, R287, R289, R322, R384, R389, R390, R393). The association of a
CAN port's service cannot be evicted (R373, log entry 130). -/
def Chk.houseRange (c : Chk) : Bool :=
  let v := c.v
  match c.p.fam with
  | .link => match c.e.sub with
    | 5 => decide (v ≤ 15)
    | 7 => decide (0x600 ≤ v)
    | 0xD => (c.m.inHall v).any fun q => decide (q.agreed.cls ≠ 2)
    | _ => true
  | .commit => if c.e.sub = 6 then within_ 100 6000000 v else within_ 1 256 v
  | .reset => match c.e.sub with
    | 8 => within_ 10 250 v
    | 0x20 => decide (v < 2 ^ 15)
    | 0x22 => decide (v ≤ 1) || (decide (v = 2) && !c.m.wakeTooNear c.due)
    | 0x23 => decide (v ≤ 7)
    | 0x24 => decide (v ≤ 15)
    | _ => true
  | .softReset | .remoteReset => within_ 1 3 v
  | .blockReset => decide (v < 2 ^ 18)
  | .gallery => if c.e.sub = 9 then decide (v = 0x5A) else decide (c.e.sub ≠ 1 ∨ v ≤ 16383)
  | .galleryCode => match c.e.sub with
    | 1 => within_ 1 1023 v
    | 3 => within_ 1 86400000 v
    | 5 => listOk_ (c.m.cfgOf c.a 0x1510 1) v
    | _ => true
  | _ => true

/-- Ranges of tokens, the pulse test and firmware (R400, R404, R405, R407). -/
def Chk.serviceRange (c : Chk) : Bool :=
  let v := c.v
  match c.p.fam with
  | .tokens => if c.e.sub = 1 then maskOk (bits v 0 32) (byteOf v 4) && decide (v < 2 ^ 40) else within_ 1 16 v
  | .pulseTest => decide (byteOf v 0 < 192 ∧ byteOf v 1 = 0) && within_ 10 300 (bits v 16 16)
  | .firmware => match c.e.sub with
    | 2 => within_ 4096 8388608 v
    | 3 => within_ 1 5 v
    | 4 => decide (v % 4 = 0)
    | 5 => decide (c.m.cfg 0x1620 4 + c.e.len ≤ c.m.cfg 0x1620 2)
    | _ => true
  | _ => true

/-- The patch slots of a transaction that take effect (R30): subindices written once more later are dropped. -/
def patchSlots : List Entry → List (Nat × Nat)
  | [] => []
  | e :: l =>
    if e.idx = 0x4022 ∧ !(l.any fun x => decide (x.idx = 0x4022 ∧ x.sub = e.sub)) then
      (bits e.val 0 32, bits e.val 32 32) :: patchSlots l
    else patchSlots l

/-- Rules on a patch slot (R103, R104). -/
def Chk.patchRange (c : Chk) : Bool :=
  let slots := patchSlots c.all
  let again := c.later.any fun x => decide (x.idx = 0x4022 ∧ x.sub = c.e.sub)
  let i := slots.length - (patchSlots (c.all.drop c.pos)).length
  let after := slots.foldl (fun (b : Bank) s => b.setSel s.1 s.2) c.m.bank
  within_ 1 5 (selKind (bits c.v 0 32)) && (again || patchRules c.m.bank after slots i)

/-- Ranges of the stairwell's objects (R83, R94, R98, R100, R102, R103, R444). -/
def Chk.stairRange (c : Chk) : Bool :=
  let v := c.v
  match c.p.fam with
  | .track =>
    if c.e.sub = 1 then within_ 1 6 (bits v 0 8) && decide (v < 65536) &&
      (decide (v % 256 ≠ 1) || decide (bits v 8 8 < c.m.bank.entryCount) || decide (c.m.rov 0x4020 1 = 0xFF))
    else decide (v < 2 ^ 20)
  | .banks => decide (v = (c.m.viewBanks 5).getD 0)
  | .load => match c.e.sub with
    | 2 => decide (v = 2 ∨ v = 3)
    | 3 => within_ 64 2621440 v
    | 4 => decide (v % 4 = 0 ∧ v < c.m.cfg 0x4021 3)
    | 5 => decide (c.m.cfg 0x4021 4 + c.e.len ≤ c.m.cfg 0x4021 3)
    | _ => within_ 1 3 v
  | .patch => c.patchRange
  | .readWindow => decide (bits v 28 3 ≠ 0) && (decide (bits v 28 3 ≠ 5) || decide (bits v 17 11 = 0))
  | _ => true

/-- The ranges of an object by its chapter. -/
def Chk.chapterRange (c : Chk) : Bool :=
  match c.p.fam with
  | .link | .commit | .reset | .softReset | .remoteReset | .blockReset | .gallery | .galleryCode => c.houseRange
  | .descriptor => decide (c.v < 2 ^ 24)
  | .timebase | .tpo => c.timeRange
  | .tokens | .pulseTest | .firmware => c.serviceRange
  | .mapped => mappingOk c.v
  | .engine => decide (c.v ≤ 1)
  | .loop => c.loopRange
  | .coefA | .coefB => !c.last (fun e => decide (e.idx = c.e.idx)) || c.n.bankOk c.e.idx
  | .profile => if c.e.sub = 9 then fin_ c.v else notNeg c.v
  | .repet => c.repRange
  | .input => c.inputRange
  | .conv | .sequence | .tile | .inputs => c.convRange
  | .ao | .aoGroup | .di | .dout | .bank | .field => c.fieldRange
  | .safety | .safeIn | .safeOut => c.safetyRange
  | .axis => c.axisRange
  | .canObject | .canPort => c.canRange
  | .record | .stream | .mapWindow | .dataPort | .trigger | .capture => c.recordRange
  | .track | .banks | .load | .patch | .readWindow => c.stairRange
  | .satellite | .imageMap => c.mapRange
  | .identity | .versions | .axisLink | .ringWindow | .chains | .seqCounters | .event => true

/-- Step 3.6: the types' own ranges (R412) and the chapter's. -/
def Chk.rangeStatus (c : Chk) : Nat :=
  let ty := match c.p.row.ty with
    | .bool => decide (c.v ≤ 1)
    | .sig => decide (c.v < 4096)
    | _ => true
  if !ty ∨ !c.chapterRange then stRange
  else if c.p.fam = .load ∧ c.e.sub = 2 ∧ c.m.formatOf c.a < c.v then stVersion
  else 0

/-! ### States (R31 step 3.8) -/

/-- Whether loop `j` has an analog input among a set of tiles as a source. -/
def Mod.feeds (m : Mod) (tiles j : Nat) : Bool :=
  [0x10, 0x12, 0x13].any fun sub => decide ((tileOf (m.cfg (0x2200 + j) sub) &&& tiles) ≠ 0)

/-- Whether a no-swap step in which a track stands names loop `j` (R72). -/
def Mod.noSwap (m : Mod) (j : Nat) : Bool :=
  m.tracks.any fun p =>
    decide (p.2.state = 1 ∨ p.2.state = 2) && decide (p.2.step ≠ 0xFFFF) && tb (wordOf (m.stepE p.2.step) 0) 24 &&
    (setLoops (m.bank.stepSet p.2.step)).contains j

/-- Whether a CAN signal's object is not in the mode a loop needs (R360). -/
def Mod.canUnfit (m : Mod) (s : Sig) (mode : Nat) : Bool :=
  decide (0xC00 ≤ s ∧ s < 0xD00) && decide (m.canCfg (s - 0xC00) 1 ≠ mode)

/-- Whether loop `j` moves an axis that follows it (R242). -/
def Mod.movesAxis (m : Mod) (j : Nat) : Bool :=
  let d := m.dest j
  decide (0xB10 ≤ d ∧ d < 0xB30) && m.follows (m.axis (d - 0xB10)) (d - 0xB10)

/-- States that forbid a loop's objects (R72, R110, R118, R123, R360, R390). -/
def Chk.loopState (c : Chk) : Bool :=
  let j := c.p.k
  match c.e.sub with
  | 1 => c.m.modeOk j c.v
  | 7 => !(c.m.standingBy && c.m.movesAxis j)
  | 0x0D => decide (c.a = 0) || !c.m.noSwap j
  | 0x0E => decide (bits c.v 8 3 ≠ 7 ∨ c.was.mode j = 0)
  | 0x10 | 0x12 | 0x13 => !c.m.canUnfit c.v 2
  | 0x11 => !c.m.canUnfit c.v 1 &&
      (decide (c.v = 0xFFF) || !((c.m.members 0x2200 512 0x11).any fun p => decide (p.2 = c.v ∧ p.1 ≠ j)))
  | _ => true

/-- Whether the table of loop `j` overlaps another loop's (R150). -/
def Mod.overlaps (m : Mod) (j : Nat) : Bool :=
  let b := m.cfg (0x2A00 + j) 4
  let n := m.cfg (0x2A00 + j) 5
  decide (n ≠ 0) && (m.members 0x2A00 512 5).any fun p =>
    decide (p.1 ≠ j ∧ p.2 ≠ 0 ∧ m.cfg (0x2A00 + p.1) 4 < b + n ∧ b < m.cfg (0x2A00 + p.1) 4 + p.2)

/-- Whether a period source has a reference that suits it (R150, R153): for source 1 any time output, whatever its mode at the
moment of the check (log entry 119). -/
def Mod.referenceOk (m : Mod) (j : Nat) : Bool :=
  let s := m.cfg (0x2A00 + j) 3
  match m.cfg (0x2A00 + j) 2 with
  | 0 => true
  | 1 => within_ 0xAF0 0xAFF s
  | 2 => within_ 0xB10 0xB2F s && decide (m.cfg (0x2A00 + j) 6 ≠ 0)
  | _ => within_ 0x940 0x9FF s

/-- States that forbid a repetitive controller's objects (R150). -/
def Chk.repState (c : Chk) : Bool :=
  let j := c.p.k
  match c.e.sub with
  | 1 => decide (c.v = 0) || (decide (c.m.cfg c.e.idx 5 ≠ 0) && c.m.referenceOk j)
  | 4 | 5 => !c.last (fun e => decide (e.idx = c.e.idx ∧ (e.sub = 4 ∨ e.sub = 5))) || !c.fin.overlaps j
  | _ => true

/-- The tokens that a calibration or a return to service needs: conditions of their chapters, judged at step 3.8 and
again at the commit boundary (R140, R175, R180; log entry 55). -/
def Chk.startTokens (c : Chk) : Nat :=
  match c.p.fam with
  | .engine => if c.e.sub = 0x0E then c.tokenFor (2 ^ 27) else 0
  | .inputs => if c.e.sub = 1 then c.tokenFor 0xFF else 0
  | .conv => if c.e.sub = 9 then c.tokenFor (2 ^ (c.p.k / 8)) else 0
  | _ => 0

/-- States that forbid a calibration (R175, R180) or, in the standby window, begin one (R390). -/
def Chk.inputState (c0 : Chk) : Bool :=
  let c := { c0 with m := c0.was }
  match c.p.fam with
  | .conv => decide (c.e.sub ≠ 9) || (!c.m.standingBy &&
      !(c.m.anyTrack && (c.m.members 0x2200 512 1).any fun p => decide (p.2 = 2 ∨ p.2 = 3) &&
        [0x10, 0x12, 0x13].any fun sub =>
          let s := c.m.cfg (0x2200 + p.1) sub
          decide (0x800 ≤ s ∧ s < 0x900 ∧ (s - 0x800) / 4 = c.p.k)))
  | _ => decide (c.e.sub ≠ 1) || (!c.m.standingBy && decide (c.m.loopTiles = 0))

/-- States that forbid writes of the field's objects (R71, R110, R190, R197, R222). -/
def Chk.fieldState (c : Chk) : Bool :=
  let m := c.was
  let k := c.p.k
  match c.p.fam with
  | .dout => match c.e.sub with
    | 1 => decide (m.snapBanks.getD (k / 32) 0 = 0) && decide (m.lead k = k) &&
        (decide (c.a = 0) || !(m.tracks.any fun p => tb p.2.heldMask k))
    | 3 => decide (m.snapBanks.getD (k / 32) 0 = 0)
    | _ => true
  | _ => decide (c.e.sub ≠ 2 ∨ c.v = 0) || (match m.snapBanks.getD k 0 with
      | 1 => (m.fbank k).qualified
      | 2 => false
      | _ => true)

/-- States that forbid writes of the safety objects (R212, R220, R227). -/
def Chk.safetyState (c : Chk) : Bool :=
  let m := c.m
  match c.p.fam with
  | .safety => decide (c.e.sub ≠ 6) || m.confirmOk c.a c.v
  | .safeIn => decide (c.e.sub ≠ 9) || m.faultResetOk 0 c.p.k
  | _ => if c.e.sub = 9 then m.restartOk c.p.k else if c.e.sub = 0xD then m.faultResetOk 1 c.p.k else true

/-- States that forbid writes of an axis's objects (R239, R246, R247, R390). -/
def Chk.axisState (c : Chk) : Bool :=
  let m := c.m
  let a := c.p.k
  match c.e.sub with
  | 1 => m.enableOk a c.v
  | 0x16 => m.moveOk a && !m.standingBy
  | 0x1C => if c.v = 1 then m.clearOk a else m.reRefOk a
  | 0x20 => m.setPosOk a
  | _ => true

/-- States that forbid writes of a CAN port's objects (R370, R372). -/
def Chk.canState (c : Chk) : Bool :=
  if c.e.sub = 6 then decide (c.m.portState c.p.k = 4) else if c.e.sub = 0x11 then c.m.owns c.p.k c.a c.v else true

/-- Whether a block reset is permitted in the present state (R289). -/
def Mod.blockResetOk (m : Mod) (mask : Nat) : Bool :=
  !((m.members 0x2200 512 1).any fun p => decide (p.2 = 2 ∨ p.2 = 3) && m.feeds (mask % 256) p.1) &&
  ((List.range 4).all fun k => !tb mask (8 + k) || m.axisLinkIdle k) &&
  decide ((mask &&& m.rov 0x1410 2) = 0)

/-- States that forbid a reset (R79, R287 to R289). -/
def Chk.resetState (c : Chk) : Bool :=
  match c.p.fam with
  | .blockReset => c.was.blockResetOk c.v
  | _ => decide (c.all.length = 1) && c.m.reset.request.isNone

/-- States that forbid a power request, or the removal of every wake source in the standby window (R390). -/
def Chk.powerState (c : Chk) : Bool :=
  match c.e.sub with
  | 0x22 => decide (c.v ≠ 2) || !c.m.standbyBarred
  | 0x23 => !(c.m.standingBy && decide (c.v % 8 = 0))
  | _ => true

/-- Status of a token write in the present state (R402, R404). -/
def Chk.tokenState (c : Chk) : Nat :=
  if c.e.sub = 1 then
    (if c.m.standingBy then stState else (c.m.tokenCheck (bits c.v 0 32) (byteOf c.v 4)).1)
  else unless_ (!c.m.releaseBarred c.a (c.m.roleOf c.a) c.v) stState

/-- States that forbid a firmware write (R407, R408): a CONFIRM once the 600 s of its trial have passed too (log entry 132). -/
def Chk.firmwareState (c : Chk) : Bool :=
  let st := c.m.fwState
  match c.e.sub with
  | 3 => match c.v with
    | 1 | 3 => decide (st ≠ 2)
    | 2 => decide (st = 1 ∧ c.m.cfg 0x1620 2 ≤ c.m.firmware.received)
    | 4 => decide (st = 3)
    | _ => decide (st = 5) && (match c.m.firmware.trial with | some t => decide (c.m.tread < t + 60000000) | none => false)
  | 4 | 5 => decide (st = 1)
  | _ => true

/-- States that forbid a write of the load objects (R98, R102, R390). -/
def Chk.loadState (c : Chk) : Bool :=
  let st := c.m.shadowState
  match c.e.sub with
  | 4 | 5 => decide (st = 1)
  | 7 => match c.v with
    | 1 => decide (st ≠ 2) && !c.m.standingBy &&
        !(decide (c.m.rov 0x4020 0xC ≠ 0) && decide (c.m.rov 0x1200 0xD < c.m.rov 0x4020 0xD))
    | 2 => decide (st = 1 ∧ c.m.cfg 0x4021 3 ≤ c.m.rov 0x4021 6)
    | _ => decide (st ≠ 2)
  | _ => true

/-- Status of a track command in the present state (R79, R84, R102, R291, R390). -/
def Chk.trackState (c : Chk) : Bool :=
  if c.e.sub ≠ 1 then true else
  decide (c.all.length = 1) && decide (c.m.arrivalOutcome c.p.k (c.v % 256) ≠ 1) &&
  !(decide (c.v % 256 = 1) && (decide (c.m.rov 0x4020 1 = 0xFF) || c.m.reset.service || c.m.standingBy))

/-- Status of a patch slot in the present state (R103, R106). -/
def Chk.patchState (c : Chk) : Nat :=
  if c.m.selInUse c.due (bits c.v 0 32) then stState
  else if 1024 < c.m.awaiting + ((patchSlots c.all).map (·.1)).eraseDups.length ∧
      c.last (fun e => decide (e.idx = 0x4022)) then stOverload
  else 0

/-- Whether a loop drives the value that an entry writes, itself or through a mapped signal (R110, R364, R424): judged by the
loops that drove as the present boundary came. -/
def Chk.driven (c : Chk) : Bool :=
  let m := c.was
  let k := c.p.k
  (match c.p.fam with
   | .ao => decide (c.e.sub = 2) && (m.driverWas (0x900 + k)).isSome
   | .dout => (decide (c.e.sub = 1) && (m.driverWas (0xA00 + k)).isSome) ||
       (decide (c.e.sub = 3) && (m.driverWas (0xA00 + m.lead k)).isSome)
   | .canObject => decide (c.sub = 8) && (m.driverWas (0xC00 + c.mo)).isSome
   | .satellite => decide (c.e.sub = 3) && (m.driverWas (0xD00 + k)).isSome
   | _ => false) || (decide (c.p.row.acc = .rws) && m.mappedDriven c.e.idx c.e.sub)

/-- Step 3.8 by chapter. -/
def Chk.chapterState (c : Chk) : Nat :=
  let st := fun (b : Bool) => unless_ b stState
  match c.p.fam with
  | .timebase => st (decide (c.e.sub ≠ 0x11) || !c.m.time.timeSet)
  | .tpo => unless_ (!(decide (c.e.sub = 6 ∧ c.v = 1) && c.m.tpoLate c.p.k c.due)) stLate
  | .reset => st c.powerState
  | .softReset | .remoteReset | .blockReset => st c.resetState
  | .gallery => st (decide (c.e.sub ≠ 9 ∨ c.m.rov 0x1500 5 ≠ 2))
  | .tokens => c.tokenState
  | .pulseTest => st (!c.m.pulseBarred (byteOf c.v 0))
  | .firmware => st c.firmwareState
  | .engine => firstOf [c.startTokens, st (decide (c.m.rov 0x2000 (3 + c.v) = 2))]
  | .loop => st c.loopState
  | .repet => st c.repState
  | .conv | .inputs => firstOf [c.startTokens, st c.inputState]
  | .dout | .bank => st c.fieldState
  | .safety | .safeIn | .safeOut => st c.safetyState
  | .axis => st c.axisState
  | .canPort => st c.canState
  | .track => st c.trackState
  | .banks => st (decide (c.m.shadowState = 3) && !c.m.anyTrack)
  | .load => st c.loadState
  | .patch => c.patchState
  | .imageMap =>
    if c.e.sub = 6 then st (decide (c.v = 0) || (c.m.inHall (c.m.mapPartner c.p.k)).isSome)
    else if 0x10 ≤ c.e.sub then st (!decide (0x4000 ≤ c.v % 65536 ∧ c.v % 65536 < 0x4010 ∧ bits c.v 16 8 = 1))
    else 0
  | _ => 0

/-- Step 3.8. -/
def Chk.stateStatus (c : Chk) : Nat :=
  if c.driven then stState else c.chapterState

/-- Steps 3.3 to 3.8 of one write entry, its index and subindex known to exist. -/
def Chk.status (c : Chk) : Nat :=
  firstOf [c.access, c.ownerStatus, c.typeStatus, c.rangeStatus, unless_ (!c.m.isolated c.p c.e.idx c.e.sub) stIsolated,
    c.stateStatus]

/-! ### At the commit boundary -/

/-- Objects whose state rule is judged again at the commit boundary, at the transaction's turn (R72, R100, R103, R150, R180,
R390, R402, and for the other acts of the module by the same pattern; log entry 35), beside a value that a loop drives by
then (R110): `Chk.driven`. Loop modes and schedules are judged
against the state after the boundary's other effects (R118, R123): `Mod.unfit`. A hold that begins after a write of an output's
state was staged does not refuse it (log entry 113). -/
def recheckState (p : Place) (sub : Nat) : Bool :=
  match p.fam with
  | .timebase => decide (sub = 0x11)
  | .tpo => decide (sub = 6)
  | .reset => decide (sub = 0x22 ∨ sub = 0x23)
  | .softReset | .remoteReset | .blockReset | .tokens | .pulseTest | .firmware | .engine | .repet | .inputs | .safety |
    .safeIn | .safeOut | .axis | .canPort | .banks | .load | .patch => true
  | .gallery | .conv => decide (sub = 9)
  | .loop => decide (sub = 7 ∨ sub = 0x0D ∨ (0x10 ≤ sub ∧ sub ≤ 0x13))
  | .bank => decide (sub = 2)
  | .imageMap => decide (sub = 6)
  | _ => false

/-- The status of an entry at its commit boundary: a write that passed its range check at arrival is not judged by range
again (R34, R38), but a swap that no longer names the shadow image gets STATE (R100), as a calibration does for whatever
stops it there (R180), and a START whose entry point the active image no longer has and a move whose target has come to lie out of range get RANGE
(R94, R239; log entry 115). -/
def Chk.recheck (c : Chk) : Nat :=
  if c.driven then stState
  else if c.p.fam = .banks ∧ c.rangeStatus ≠ 0 then stState
  else if c.p.fam = .track ∧ c.e.sub = 1 ∧ c.v % 256 = 1 ∧ c.rangeStatus ≠ 0 then stRange
  else if c.p.fam = .axis ∧ c.e.sub = 0x16 ∧ c.rangeStatus ≠ 0 then stRange
  else if recheckState c.p c.sub then
    let st := c.chapterState
    if st ≠ 0 ∧ (c.p.fam = .conv ∨ c.p.fam = .inputs ∨ c.p.fam = .engine) then stState else st
  else 0

end Sys2Proof.Machine
end

