-- ==== Sys2Proof/Machine/Commit.lean ====
section
/-! DEFINITION. The commit unit (02): what every written object does when its write commits, the sealed set of a
boundary in arrival order, the outcomes, and the release of replies. -/

namespace Sys2Proof.Machine

/-! ### Departures (R55, R339, R340) -/

/-- An association is declared lost, evicted, or has sent BYE: what it has not sealed is discarded, and it leaves at the
next boundary. `sealed` is the boundary up to which sets are sealed. -/
def Mod.depart (m : Mod) (a why : Nat) (sealed_ : Tread) : Mod :=
  match m.inHall a with
  | none => m
  | some p =>
    { m with
      hall := put m.hall a { p with state := 2, leaving := why, declared := m.tread, held := [], part := none },
      staged := m.staged.filter fun s => !decide (s.assoc = a ∧ sealed_ < s.due),
      reads := m.reads.filter fun r => !decide (r.assoc = a),
      waiting := m.waiting.filter fun w => !decide (w.2.assoc = a),
      replies := m.replies.filter fun r => !decide (r.assoc = a) }

/-- The last boundary whose set is sealed at a moment of the present tread (R33). -/
def Mod.sealedTo (m : Mod) (off : Offset) : Tread := if 9600 < off then m.tread + 1 else m.tread

/-! ### Replies (R35, R50) -/

/-- The CAN port whose service an association is (R373). -/
def Mod.canPortOf (m : Mod) (a : Nat) : Option Nat :=
  (List.range 2).find? fun p => decide (a ≠ 0 ∧ (m.canPort p).assoc = a)

/-- A reply as a response of the access service (R373): no value of more than 56 bytes reaches it. -/
def Reply.canBytes (r : Reply) : List Nat :=
  let val := match r.vals with | [(n, v)] => leBytes n v | _ => []
  let tread := if r.status = 0 ∨ r.status = 2 ∨ r.status = 3 then r.tread % 2 ^ 32 else 0
  [r.status, r.tag % 256, val.length, 0] ++ leBytes 4 tread ++ val

/-- A final reply sent: queued at the link, or at the CAN port for its service's association, and kept with the last 16
of its association (R320, R373). Nothing is sent to an association that has left or leaves (R55). -/
def Mod.send (m : Mod) (r : Reply) : Mod :=
  match m.inHall r.assoc with
  | none => m
  | some p =>
    match m.canPortOf r.assoc with
    | some c => m.setCanPort c { m.canPort c with resp := (m.canPort c).resp ++ [{ bytes := r.canBytes }] }
    | none =>
      let cache := (p.cache ++ [r])
      { m with replies := m.replies ++ [r],
               hall := put m.hall r.assoc { p with cache := cache.drop (cache.length - 16) } }

/-- Whether a final reply must wait behind an earlier one of its association: in the order of tread and issue (R50). -/
def Mod.blocked (m : Mod) (r : Reply) : Bool :=
  let before := fun (t : Tread) (n : Nat) => decide (t < r.tread ∨ (t = r.tread ∧ n < r.arrived))
  (m.waiting.any fun w => decide (w.2.assoc = r.assoc) && before w.2.tread w.2.arrived) ||
  (m.reads.any fun d => decide (d.assoc = r.assoc) && before d.due d.arrived)

/-- A final reply that names a tread: sent, or held behind an earlier one, or until a checkpoint covers its commit. -/
def Mod.finalReply (m : Mod) (r : Reply) (journalled : Bool) : Mod :=
  if journalled ∨ m.blocked r then { m with waiting := m.waiting ++ [(journalled, r)] } else m.send r

/-- Held replies that nothing holds any more are sent, in order; at most `n` of them. -/
def Mod.releaseHeld : Nat → Mod → Mod
  | 0, m => m
  | n + 1, m =>
    match m.waiting.find? fun w => !w.1 && !m.blocked w.2 with
    | some w => Mod.releaseHeld n ({ m with waiting := m.waiting.erase w }.send w.2)
    | none => m

/-- Every reply that may go now. -/
def Mod.flush (m : Mod) : Mod := m.releaseHeld m.waiting.length

/-- A failure of an image's write, kept for the next report (R47, R333, R334). -/
def Mod.imageFailed (m : Mod) (a map status pos : Nat) : Mod :=
  let m := ((m.bump (0x6000 + map) 9).setRo (0x6000 + map) 0x0A status).setRo (0x6000 + map) 0x0B pos
  match look m.hall a with
  | some p => { m with hall := put m.hall a { p with imgFail := map, imgStatus := status, imgPos := pos,
                                                     imgCount := (p.imgCount + 1) % 2 ^ 32 } }
  | none => m

/-- Where an object of a list of entries belongs to a block in per-block reset. -/
def Mod.isolatedAt (m : Mod) (l : List Entry) : Option Nat :=
  l.findIdx? fun e => match place e.idx e.sub with
    | some p => m.isolated p e.idx e.sub
    | none => false

/-- A block reset has begun (R54): every transaction with an entry in the block is refused whole, but for the writes of the
sets that are sealed already, up to boundary `sealed_`, and the reads whose service has begun. -/
def Mod.refuseIsolated (m : Mod) (sealed_ : Tread) : Mod :=
  let w := m.staged.filter fun s => decide (sealed_ < s.due) && (m.isolatedAt s.entries).isSome
  let r := m.reads.filter fun s => !s.begun && (m.isolatedAt s.entries).isSome
  let m := { m with staged := m.staged.filter (!w.contains ·), reads := m.reads.filter (!r.contains ·) }
  let m := overAll w (fun (m : Mod) s =>
    let pos := (m.isolatedAt s.entries).getD 0
    match s.origin with
    | .image k => m.imageFailed s.assoc k stIsolated pos
    | _ => m.send { assoc := s.assoc, seq := s.seq, tag := s.tag, status := stIsolated, pos := pos }) m
  (overAll r (fun (m : Mod) s =>
    m.send { assoc := s.assoc, seq := s.seq, tag := s.tag, status := stIsolated, pos := (m.isolatedAt s.entries).getD 0,
             write := false }) m).flush

/-! ### The hall as commits change it (R323, R373, R415) -/

/-- Whether an association ID may be given out (R323): not in the hall, not reserved, not barred for the second after
its release. -/
def Mod.idFree (m : Mod) (k : Nat) : Bool :=
  (look m.hall k).isNone && (look m.reserved k).isNone &&
  (match look m.barred k with | some t => decide (t + 100000 ≤ m.tread) | none => true)
/-- The lowest free association ID. -/
def Mod.freeId (m : Mod) : Option Nat := ((List.range 254).map (· + 1)).find? m.idFree

/-- The in-direction entries bound to an association become lost as it leaves (R336). -/
def Mod.loseSatellites (m : Mod) (a : Nat) : Mod :=
  overAll ((m.members 0x5000 512 1).filter fun p => decide (m.boundTo p.1 = a ∧ m.cfg (0x5000 + p.1) 2 = 0)) (fun (m : Mod) p =>
    m.setRoBit (0x5000 + p.1) 4 1 true) m

/-- An association gone from the hall: its objects, claims and grants with it (R372, R404, R415). -/
def Mod.leaveHall (m : Mod) (a : Nat) : Mod :=
  let m := (m.loseSatellites a).unclaim a
  { m with hall := drop m.hall a, barred := put m.barred a m.tread,
           objs := without (fun k => decide (k / 2 ^ 24 = a)) m.objs,
           ro := without (fun k => decide (k / 2 ^ 24 = a)) m.ro }.holderLeaves a

/-- The access service of a port joins the hall (R373), where it is enabled and has not. -/
def Mod.canJoin (m : Mod) (p : Nat) : Mod :=
  let s := m.cfg (0x3780 + p) 0x0D
  if s = 0 ∨ (m.canPort p).assoc ≠ 0 then m else
  match m.freeId with
  | none => m
  | some k =>
    let q : Partner := { id := k, agreed := { src := { port := 4 + p }, cls := 2, at_ := m.tread }, role := s - 1,
                         lossAction := 0, heartbeat := 0, state := 1, since := m.tread, last := m.tread }
    ({ m with hall := put m.hall k q }.setCanPort p { m.canPort p with assoc := k, issue := 0 }).setRo (0x3780 + p) 0x12 k

/-- It leaves: the service or the port is disabled. -/
def Mod.canLeave (m : Mod) (p : Nat) : Mod :=
  let a := (m.canPort p).assoc
  if a = 0 then m else
  ((m.setCanPort p { m.canPort p with assoc := 0, resp := [] }).leaveHall a).setRo (0x3780 + p) 0x12 0

/-- The access service set (R373): a change of role keeps the association. -/
def Mod.canService (m : Mod) (p v : Nat) : Mod :=
  if v = 0 then m.canLeave p else
  let m := m.canJoin p
  match look m.hall (m.canPort p).assoc with
  | some q => { m with hall := put m.hall (m.canPort p).assoc { q with role := v - 1 } }
  | none => m

/-! ### What written objects do (R36, R39 item 1) -/

/-- A value stored at its key, in the boundary's log and the flight's delta. -/
def Mod.store (m : Mod) (who a : Nat) (e : Entry) : Mod :=
  let k := m.writeKey a e
  let m := m.note who k
  ({ m with objs := stPut m.objs k e.val }).enterDelta k e.val

/-- The gallery record of a hold window left too short (R206), judged after each entry that writes one of the two windows (log
entry 120). -/
def Mod.warnHold (m : Mod) : Mod := if m.holdShort then m.logGal 0x032 0 [m.cfg 0x34D0 1, m.cfg 0x1400 8] else m

/-- A table window written (R157): entries beyond the table are ignored; the change of r is made bumpless (R156). -/
def Mod.writeTable (m : Mod) (who j data : Nat) : Mod :=
  let m := m.note who (okey 0 (0x2A00 + j) 0x14)
  let b := m.cfg (0x2A00 + j) 4
  let n := m.cfg (0x2A00 + j) 5
  let off := m.cfg (0x2A00 + j) 0x13
  overAll (List.range 128) (fun (m : Mod) i =>
    if n ≤ off + i then m
    else { m with pool := putD 0 m.pool (b + off + i) (toSigned 16 (bits data (16 * i) 16)) })
    (m.setLoop j { m.loop j with rep := { (m.loop j).rep with bump := true } })

/-- Writes of the loop engine's objects. While a later write of the boundary still gives the loop's allocation its base or
length, nothing touches the table: that write sets the new table to 0 (R150). -/
def Mod.actLoop (m : Mod) (who a : Nat) (e : Entry) (p : Place) (later : List Entry) : Mod :=
  let j := p.k
  let more := later.any fun x => decide (x.idx = e.idx ∧ (x.sub = 4 ∨ x.sub = 5))
  let v := e.val
  match p.fam with
  | .engine => (m.store who a e).resync v
  | .loop => match e.sub with
    | 1 => m.enterMode who j v
    | 7 => m.writeManual who j v
    | 0x0D => m.selectBank who j v
    | 0x0E => let changed := decide (m.cfg e.idx e.sub ≠ v)
              let m := m.store who a e
              if changed && m.selected 1 j then m.mapChanged 1 (m.tread + 1) else m
    | _ => m.store who a e
  | .coefA => m.writeCoef who 0 j e.sub v
  | .coefB => m.writeCoef who 1 j e.sub v
  | .profile => if e.sub = 9 then (m.store who a e).jumpTo who j v else m.store who a e
  | _ => match e.sub with
    | 4 | 5 =>
      let m := m.store who a e
      if more then m else m.restartTable j
    | 2 | 3 =>
      let changed := decide (m.cfg e.idx e.sub ≠ v)
      let m := m.store who a e
      if changed then m.restartLock j else m
    | 0x12 => let m := m.store who a e
              if more then m else m.clearTableOf j
    | 0x14 => if more then m.note who (okey 0 e.idx 0x14) else m.writeTable who j v
    | _ => m.store who a e

/-- Writes of analog inputs and of the field's objects. -/
def Mod.actField (m : Mod) (who a : Nat) (e : Entry) (p : Place) : Mod :=
  let k := p.k
  let v := e.val
  match p.fam with
  | .input =>
    let changed := decide (m.cfg e.idx e.sub ≠ v)
    let m := m.store who a e
    if e.sub = 0xC ∨ e.sub = 0xD then m.judgeValue k (m.rov (0x3000 + k) 5)
    else if changed && [1, 2, 3, 4, 9, 0xA, 0xB].contains e.sub then m.inputMaps [k] (m.tread + 1) else m
  | .conv => if e.sub = 9 then (m.store who a e).beginCal k else m.store who a e
  | .inputs =>
    let m := m.store who a e
    if e.sub = 1 then m.beginSkew
    else if e.sub = 8 then overAll (List.range 256) (fun m x => m.judge x) m else m
  | .dout => if e.sub = 1 then m.setDo who k v else m.store who a e
  | .bank => match e.sub with
    | 2 => (m.store who a e).setFbank k { m.fbank k with req := some v }
    | 0xA => (m.store who a e).setFbank k { m.fbank k with ack := true }
    | _ => m.store who a e
  | .field => (m.store who a e).warnHold
  | _ => m.store who a e

/-- Writes of the safety objects and of axes. -/
def Mod.actSafety (m : Mod) (who a : Nat) (e : Entry) (p : Place) : Mod :=
  let k := p.k
  let m := m.store who a e
  let kept := if p.row.acc = .rwl then m.storePending else m
  match p.fam with
  | .safety => if e.sub = 4 then m.arm a else if e.sub = 6 then m.safetyReset else kept
  | .safeIn => if e.sub = 9 then m.faultResetDo 0 k else kept
  | .safeOut => match e.sub with
    | 9 => m.restartPair k
    | 0xA => m.request 16 k (decide (e.val = 1))
    | 0xD => m.faultResetDo 1 k
    | _ => kept
  | .axis => m.axisWrite k e.sub e.val
  | _ => m

/-- Writes of the CAN objects. -/
def Mod.actCan (m : Mod) (who a : Nat) (e : Entry) (p : Place) : Mod :=
  let m := m.store who a e
  match p.fam with
  | .canObject =>
    let k := p.k + 128 * b2n (decide (0x10 < e.sub))
    (match canSub p.fam e.sub with
     | 1 => m.putMo k { since := m.tread }
     | 9 => m.sendMo k
     | _ => m)
  | _ => match e.sub with
    | 1 => if e.val = 1 then (m.portOn p.k).canJoin p.k else (m.portOff p.k).canLeave p.k
    | 6 => m.recover p.k
    | 0x0D => m.canService p.k e.val
    | 0x11 => m.acknowledge p.k a e.val
    | _ => m

/-- Writes of the recording's objects. -/
def Mod.actRecord (m : Mod) (who a : Nat) (e : Entry) (p : Place) : Mod :=
  let changed := decide (m.cfg e.idx e.sub ≠ e.val)
  let m := m.store who a e
  match p.fam with
  | .stream => if e.sub ≠ 1 then m else if e.val = 1 then m.openStreams m.tread else m.disableStream p.k
  | .dataPort => if e.sub = 1 ∧ e.val = 1 ∧ changed then m.dpStart else m
  | .trigger => if e.sub = 0x0E then m.triggerArm p.k e.val else m
  | .capture => if changed then (m.mapChanged 5 (m.tread + 1)).setRecord { m.record with buffer := [], bufSince := m.tread } else m
  | _ => m

/-- A swap, and NOTIFY SWAPPED to every host association (R100, R341). -/
def Mod.swapNow (m : Mod) : Mod :=
  let data := leBytes 4 m.shadow.id ++ leBytes 4 m.bank.id ++ leBytes 8 m.tread
  let m := m.swapBanks
  overAll (m.hall.filter fun q => decide (q.2.state = 1 ∧ q.2.agreed.cls = 0)) (fun (m : Mod) q => m.notify q.1 4 data) m

/-- Writes of the stairwell's objects but for track commands and patches. -/
def Mod.actStair (m : Mod) (who a : Nat) (e : Entry) (p : Place) (all later : List Entry) : Mod :=
  match p.fam with
  | .banks => (m.store who a e).swapNow
  | .load => match e.sub with
    | 5 => m.putChunk e.len e.val
    | 7 => let m := m.store who a e
           if e.val = 1 then m.beginLoad else if e.val = 2 then m.finishLoad else m.emptyShadow
    | _ => m.store who a e
  | .patch =>
    let m := m.store who a e
    if later.any fun x => decide (x.idx = 0x4022) then m else m.applyPatch (patchSlots all)
  | _ => m.store who a e

/-- Writes of firmware, tokens and the pulse test. -/
def Mod.actService (m : Mod) (who a : Nat) (e : Entry) (p : Place) : Mod :=
  let v := e.val
  match p.fam with
  | .tokens =>
    let m := m.store who a e
    if e.sub = 1 then m.grant a (bits v 0 32) (byteOf v 4) else m.endGrant v
  | .pulseTest => (m.store who a e).startPulse (byteOf v 0) (bits v 16 16)
  | _ => match e.sub with
    | 5 => m.fwChunk e.len v
    | 3 =>
      let m := m.store who a e
      (match v with
       | 1 => m.fwBegin
       | 2 => m.setRo 0x1620 6 2
       | 3 => m.fwCancel
       | 4 => m.activate
       | _ => m.confirmFw)
    | _ => m.store who a e

/-- Writes of the housekeeping objects. -/
def Mod.actHouse (m : Mod) (who a : Nat) (e : Entry) (p : Place) : Mod :=
  let m := m.store who a e
  let v := e.val
  match p.fam with
  | .link =>
    if e.sub = 0x0D then
      ({ m with out := m.out ++ [Out.msg 8 v [2, 0, 0, 0]] }.depart v 1 m.tread).bump 0x1100 0xC
    else m
  | .timebase => if e.sub = 0x11 then m.stepTime v else m
  | .tpo => if e.sub = 6 then (if v = 1 then m.tpoArm p.k else m.tpoDisarm p.k) else m
  | .reset => match e.sub with
    | 8 => m.warnHold
    | 0x22 => if m.entersNow then m else
        { m with power := { m.power with standby := if v = 2 then some m.tread else none,
                                         stays := m.power.standby.isSome && decide (v ≠ 2) } }
    | _ => m
  | .softReset => m.setReset { m.reset with request := some (7, v, m.tread) }
  | .remoteReset => m.setReset { m.reset with request := some (6, v, m.tread) }
  | .blockReset => (m.blockReset v).refuseIsolated m.tread
  | .gallery => if e.sub = 9 then m.galleryClear a (m.roleOf a) else m
  | .satellite =>
    if e.sub = 1 then m.setRoBit e.idx 4 1 true
    else if e.sub = 3 ∧ m.cfg e.idx 2 = 0 then
      let m := m.setRo e.idx 6 m.tread
      if fin_ v then m.setRo e.idx 4 0 else m
    else m
  | _ => m

/-- One written entry at its commit boundary. -/
def Mod.commitEntry (m : Mod) (who a : Nat) (e : Entry) (all later : List Entry) : Mod :=
  match place e.idx e.sub with
  | none => m
  | some p =>
    match p.fam with
    | .engine | .loop | .coefA | .coefB | .profile | .repet => m.actLoop who a e p later
    | .input | .conv | .sequence | .tile | .inputs | .ao | .aoGroup | .di | .dout | .bank | .field => m.actField who a e p
    | .safety | .safeIn | .safeOut | .axis | .axisLink => m.actSafety who a e p
    | .canObject | .canPort => m.actCan who a e p
    | .record | .stream | .ringWindow | .mapWindow | .dataPort | .trigger | .capture | .chains => m.actRecord who a e p
    | .track | .seqCounters | .event | .banks | .load | .patch | .readWindow => m.actStair who a e p all later
    | .tokens | .pulseTest | .firmware => m.actService who a e p
    | .identity | .versions | .descriptor | .link | .commit | .timebase | .tpo | .reset | .softReset | .remoteReset |
      .blockReset | .gallery | .galleryCode | .mapped | .satellite | .imageMap => m.actHouse who a e p

/-! ### The sealed set (R33, R34, R39, R40) -/

/-- Entries that act each in its own place, and are never superseded (R30, R40). -/
def inPlace (e : Entry) : Bool :=
  decide ((e.idx = 0x4021 ∨ e.idx = 0x1620) ∧ (e.sub = 4 ∨ e.sub = 5))

/-- The key of a write, told apart where it acts in its own place. -/
def Mod.keys (m : Mod) (a : Nat) : List Entry → List Nat
  | [] => []
  | e :: l =>
    let k := m.writeKey a e
    let m := if e.idx = 0x1510 ∧ e.sub = 1 then m.setCfgOf a 0x1510 1 e.val else m
    k :: m.keys a l

/-- The check of an entry of a sealed transaction as it stands at the boundary; `was` is the module at the transaction's turn,
`m` with the transaction's earlier entries in it. -/
def Mod.chkAt (m was : Mod) (dead : Nat → Bool) (a : Nat) (all : List Entry) (pos : Nat) (e : Entry) (p : Place) : Chk :=
  { was := was, m := m, n := m.overlayIn a e (dead (m.writeKey a e)) (all.drop (pos + 1)), a := a, ns := 0, due := m.tread, all := all, pos := pos, e := e, p := p }

/-- The first entry of a sealed transaction that fails at the boundary: status, position and check. -/
def Mod.recheckFrom (m was : Mod) (dead : Nat → Bool) (a : Nat) (all : List Entry) : Nat → List Entry → Option (Nat × Nat × Chk)
  | _, [] => none
  | pos, e :: l =>
    match place e.idx e.sub with
    | none => m.recheckFrom was dead a all (pos + 1) l
    | some p =>
      let c := m.chkAt was dead a all pos e p
      let st := c.recheck
      if st ≠ 0 then some (st, pos, c) else c.n.recheckFrom was dead a all (pos + 1) l

/-- What a refusal writes: the last-refusal record (R402), the object at fault in an arm (R211), an arm cancelled by a
wrong confirm (R212). -/
def Chk.noteRefusal (c : Chk) (status : Nat) (m : Mod) : Mod :=
  match c.p.fam with
  | .tokens =>
    if c.e.sub = 1 ∧ (status = stBusy ∨ status = stState ∨ status = stOverload) ∧ !c.m.standingBy then
      m.setRoOf c.a 0x1600 4 (c.m.tokenCheck (bits c.v 0 32) (byteOf c.v 4)).2
    else m
  | .safety =>
    if c.e.sub = 4 ∧ status = stRange ∧ c.v = 0xA5 then m.setRo 0x3500 0x0B (c.m.armFailure.getD 0)
    else if c.e.sub = 6 ∧ status = stState ∧ c.ownerStatus = 0 then m.disarm
    else m
  | _ => m

/-- Whether a list of entries patches the active bank. -/
def patches (l : List Entry) : Bool := l.any fun e => decide (e.idx = 0x4022)

/-- A track command at its boundary (R85, R86): the value commits whatever the outcome. No track starts while the module is about
to enter standby (R390). -/
def Mod.commitCommand (m : Mod) (who : Nat) (s : Staged) (e : Entry) (dead : Bool) : Mod × Nat × Nat :=
  let t := e.idx - 0x4000
  let code := e.val % 256
  let st := if code = 1 ∧ m.standingBy then 1 else m.outcomeOf t code
  let m1 := m.store who s.assoc e
  if dead then (m, stCommitted, 0)
  else if st = 1 then (m1, stState, 0)
  else if st = 2 then (m1, stLate, 0)
  else (m1.command t code (bits e.val 8 8) s.assoc, stCommitted, 0xFFFF)

/-- The entries of a transaction that take effect: of several that name one object the last (R30), and none whose value a
later transaction of the boundary replaces (R40). -/
def standing (dead : Nat → Bool) : List Nat → List Entry → List Entry
  | k :: ks, e :: l => if !inPlace e && (ks.contains k || dead k) then standing dead ks l else e :: standing dead ks l
  | _, _ => []

/-- The standing entries applied in list order; `pend` are writes of later transactions that complete them. -/
def Mod.applyEntries (m : Mod) (who a : Nat) (all pend : List Entry) : List Entry → Mod
  | [] => m
  | e :: l => (m.commitEntry who a e all (l ++ pend)).applyEntries who a all pend l

/-- The writes of base and length by which later transactions of the boundary complete the allocations of these entries'
tables (R150). -/
def allocPending (dead : Nat → Bool) (l : List Entry) : List Entry :=
  (l.filter fun e => decide (0x2A00 ≤ e.idx ∧ e.idx < 0x2C00)).flatMap fun e =>
    ([4, 5].filter fun n => dead (okey 0 e.idx n)).map fun n => { idx := e.idx, sub := n, len := 0, val := 0 }

/-- A transaction that commits: its standing entries; a patch counts also where later transactions have replaced every
slot of it (R105). -/
def Mod.commitEntries (m : Mod) (who a : Nat) (all : List Entry) (dead : Nat → Bool) (ks : List Nat) : Mod :=
  let live := standing dead ks all
  let m := m.applyEntries who a live (allocPending dead live) live
  if patches all && !patches live then m.bump 0x4020 4 else m

/-- One sealed transaction at its boundary: the module, its status (2 while it is the last writer) and position. `dead`
tells the keys that a later transaction of the boundary writes. -/
def Mod.commitTxn (m : Mod) (who : Nat) (s : Staged) (dead : Nat → Bool) (remote : Bool) : Mod × Nat × Nat :=
  let bad := m.recheckFrom m dead s.assoc s.entries 0 s.entries
  match s.entries with
  | [] => (m, stCommitted, 0xFFFF)
  | e :: _ =>
    if patches s.entries ∧ s.swaps ≠ m.rov 0x4020 0x0C then
      (m, stState, (s.entries.findIdx fun x => decide (x.idx = 0x4022)))
    else if e.idx = 0x1401 ∧ remote then (m, stState, 0)
    else match bad with
    | some (st, pos, c) => (c.noteRefusal st m, st, pos)
    | none =>
      let ks := m.keys s.assoc s.entries
      if 0x4000 ≤ e.idx ∧ e.idx < 0x4010 ∧ e.sub = 1 then m.commitCommand who s e (dead (ks.headD 0))
      else (m.commitEntries who s.assoc s.entries dead ks, stCommitted, 0xFFFF)

/-- Keys that the transactions of a list write, but for those whose number stands in `failed`. -/
def Mod.laterKeys (m : Mod) (failed : List Nat) : Nat → List Staged → List Nat
  | _, [] => []
  | i, s :: l =>
    (if failed.contains i then [] else m.keys s.assoc (s.entries.filter fun e => !inPlace e)) ++ m.laterKeys failed (i + 1) l

/-- The transactions of a sealed set in arrival order, from number `i` on; those in `barred` are refused. -/
def Mod.commitFrom (m : Mod) (barred : List (Nat × Nat)) (failed : List Nat) : Nat → List Staged → Mod × List (Staged × Nat × Nat × Nat)
  | _, [] => (m, [])
  | i, s :: l =>
    let after := m.laterKeys failed (i + 1) l
    let remote := l.any fun x => x.entries.any fun e => decide (e.idx = 0x1402)
    let r := match look barred i with
      | some pos => (m, stState, pos)
      | none => m.commitTxn i s (fun k => after.contains k) remote
    let rest := r.1.commitFrom barred failed (i + 1) l
    (rest.1, (s, i, r.2.1, r.2.2) :: rest.2)

/-- Whether an entry asks for what the state after the boundary's effects forbids (R118, R123): a mode that the loop may
not enter, or no schedule for a loop that is not in OFF. -/
def Mod.unfitEntry (m : Mod) (e : Entry) : Bool :=
  decide (0x2200 ≤ e.idx ∧ e.idx < 0x2400) &&
  ((decide (e.sub = 1) && !m.modeOk (e.idx - 0x2200) e.val) ||
   (decide (e.sub = 0x0E ∧ bits e.val 8 3 = 7) && decide (m.mode (e.idx - 0x2200) ≠ 0)))

/-- The first transaction in arrival order that stands and is refused by R118 or R123 after the boundary's other effects:
its number and the entry's position. -/
def Mod.unfit (m : Mod) : List (Staged × Nat × Nat × Nat) → Option (Nat × Nat)
  | [] => none
  | x :: l =>
    if x.2.2.1 = stCommitted then
      match x.1.entries.findIdx? m.unfitEntry with
      | some pos => some (x.2.1, pos)
      | none => m.unfit l
    else m.unfit l

/-- A set committed, and what follows it at the boundary (`after`, R39 items 2 to 4). Which transactions of the set have no
effect decides whose values stand, so it is taken again until that is settled; then a transaction that R118 or R123 refuses
for what the boundary has made of the loop is taken out whole, and the rest settled anew (log entry 85). -/
def Mod.settle (m : Mod) (after : Mod → Mod) (set : List Staged) :
    Nat → List (Nat × Nat) → List Nat → Mod × List (Staged × Nat × Nat × Nat)
  | 0, barred, failed =>
    let r := m.commitFrom barred failed 0 set
    (after r.1, r.2)
  | n + 1, barred, failed =>
    let r := m.commitFrom barred failed 0 set
    let now := (r.2.filter fun x => decide (x.2.2.1 ≠ stCommitted) &&
      !(x.1.entries.any fun e => decide (0x4000 ≤ e.idx ∧ e.idx < 0x4010))).map (·.2.1)
    if now = failed then
      let e := after r.1
      match e.unfit r.2 with
      | some x => m.settle after set n (put barred x.1 x.2) failed
      | none => (e, r.2)
    else m.settle after set n barred now

/-- The set sealed for the present boundary, in arrival order, taken from the staged writes, and what follows it. -/
def Mod.commitSealed (m : Mod) (after : Mod → Mod) : Mod × List (Staged × Nat × Nat × Nat) :=
  let set := sortBy (fun a b => decide (a.arrived < b.arrived)) (m.staged.filter fun s => decide (s.due ≤ m.tread))
  let m := { m with staged := m.staged.filter fun s => !decide (s.due ≤ m.tread) }
  m.settle after set (3 * set.length + 4) [] []

/-! ### Outcomes (R35, R40, R47) -/

/-- Keys of an entry for R40: a jump also counts as a write of the target (R147). -/
def jumpKeys (k : Nat) (e : Entry) : List Nat :=
  if 0x2800 ≤ e.idx ∧ e.idx < 0x2A00 ∧ e.sub = 9 then [k, okey 0 (e.idx - 0x600) 2] else [k]

/-- The first position whose value another writer replaced: the last occurrence of its object counts. -/
def supersededAt (log : List (Nat × Nat)) (who : Nat) : Nat → List Nat → List Entry → Option Nat
  | pos, k :: ks, e :: l =>
    if inPlace e ∨ ks.contains k then supersededAt log who (pos + 1) ks l
    else if (jumpKeys k e).any fun x => decide (lastWriter log x ≠ some who) && (log.any fun w => decide (w.1 = x)) then some pos
    else supersededAt log who (pos + 1) ks l
  | _, _, _ => none

/-- The final answer of one transaction of the sealed set once every item of R39 has acted. A track command commits whatever
its outcome (R86) and names its commit tread; any other refusal names tread 0 (R331; log entry 78). Only a commit is held
for a checkpoint (R52). -/
def Mod.answer (m : Mod) (keysOf : List Nat) (x : Staged × Nat × Nat × Nat) : Mod :=
  let s := x.1
  let sup := if x.2.2.1 = stCommitted then supersededAt m.wlog x.2.1 0 keysOf s.entries else none
  let st := if sup.isSome then stSuperseded else x.2.2.1
  let pos := sup.getD x.2.2.2
  let m := if st = stSuperseded then m.bump 0x1200 9
    else if st = stLate ∧ !(s.entries.any fun e => decide (0x1340 ≤ e.idx ∧ e.idx < 0x1350)) then m.bump 0x1200 0xA
    else if st = stOverload then m.bump 0x1200 0xB else m
  match s.origin with
  | .image k => if st = stCommitted then m else m.imageFailed s.assoc k st pos
  | _ =>
    let r : Reply := { assoc := s.assoc, seq := s.seq, tag := s.tag, status := st, pos := pos, arrived := s.arrived }
    if st ≤ stSuperseded ∨ (st ≠ stRange ∧ s.entries.any fun e => decide (0x4000 ≤ e.idx ∧ e.idx < 0x4010 ∧ e.sub = 1)) then
      m.finalReply { r with tread := m.tread } (s.journalled && decide (st ≤ stSuperseded))
    else m.send r

/-- Every answer of the boundary (R35). -/
def Mod.answerAll (m : Mod) (l : List (Staged × Nat × Nat × Nat)) : Mod :=
  overAll l (fun (m : Mod) x => m.answer (m.keys x.1.assoc x.1.entries) x) m

end Sys2Proof.Machine
end

