-- ==== Sys2Proof/Machine/Arrive.lean ====
section
/-! DEFINITION. Arrivals (02): limits, validation of writes and reads, staging, and the service of reads. -/

namespace Sys2Proof.Machine

/-- A transaction as it is fully received: who sends it, its numbers, its control bits and its entries. -/
structure Txn where
  assoc : Nat
  seq : Nat
  tag : Nat
  write : Bool
  named : Option Tread
  early : Bool
  journalled : Bool
  entries : List Entry
  origin : Origin := .message
deriving DecidableEq, Repr

/-- A transaction refused at its arrival: answered at once, without a tread (R50, R331); an image's write is reported
instead (R47). -/
def Mod.refuse (m : Mod) (x : Txn) (status pos : Nat) : Mod :=
  let m := if status = stLate then m.bump 0x1200 0xA else if status = stOverload then m.bump 0x1200 0xB else m
  match x.origin with
  | .image k => m.imageFailed x.assoc k status pos
  | _ => m.send { assoc := x.assoc, seq := x.seq, tag := x.tag, status := status, pos := pos, write := x.write }

/-- Whether the limits on outstanding transactions leave no room (R29). -/
def Mod.full (m : Mod) (a : Nat) : Bool := decide (256 ≤ m.outstanding ∨ m.cfg 0x1200 8 ≤ m.outstandingOf a)

/-- Whether a control bit is used whose feature has not been agreed (R330). -/
def Mod.featureBad (m : Mod) (x : Txn) : Bool :=
  (x.named.isSome && !m.feature x.assoc 1) || (x.early && !m.feature x.assoc 0) || (x.journalled && !m.feature x.assoc 6)

/-- The boundary a write commits at (R33, R37): a status where it names one that cannot be. -/
def Mod.dueOfWrite (m : Mod) (named : Option Tread) (off : Offset) : Nat × Tread :=
  match named with
  | none => (0, if off ≤ 9600 then m.tread + 1 else m.tread + 2)
  | some t =>
    (if t < m.tread + 1 ∨ (t = m.tread + 1 ∧ 9600 < off) then stLate
     else if m.tread + m.cfg 0x1200 6 < t then stRange else 0, t)

/-- The snapshot tread of a read (R42, R44, R51). -/
def Mod.dueOfRead (m : Mod) (a : Nat) (named : Option Tread) (off : Offset) : Nat × Tread :=
  match named with
  | none =>
    let t := if off ≤ 8600 then m.tread else m.tread + 1
    (0, (m.staged.filter fun s => decide (s.assoc = a) && !s.named).foldl (fun t s => Max.max t s.due) t)
  | some t =>
    (if t < m.tread ∨ (t = m.tread ∧ 8600 < off) then stLate
     else if m.tread + m.cfg 0x1200 6 < t then stRange else 0, t)

/-! ### Writes -/

/-- Steps 3.1 and 3.2: whether the object exists; a patch slot's address stands for a subindex (R103). -/
def Mod.existStatus (m : Mod) (a : Nat) (e : Entry) : Nat :=
  let s := exists_ (m.profOf a) e.idx e.sub
  if s ≠ 0 then s
  else if e.idx = 0x4022 ∧ e.sub ≠ 0 ∧ e.len = 8 ∧ within_ 1 5 (selKind (bits e.val 0 32)) ∧
      !m.bank.selOk (bits e.val 0 32) then 0x11
  else 0

/-- The first entry of a write that fails step 3: status, position, and the check where there was one (R31). -/
def Mod.validateIn (was m : Mod) (a ns : Nat) (due : Tread) (all : List Entry) : Nat → List Entry → Option (Nat × Nat × Option Chk)
  | _, [] => none
  | pos, e :: l =>
    let ex := m.existStatus a e
    if ex ≠ 0 then some (ex, pos, none) else
    match place e.idx e.sub with
    | none => some (stAccess, pos, none)
    | some p =>
      let c : Chk := { was := was, m := m, n := m.overlayIn a e false (all.drop (pos + 1)), a := a, ns := ns, due := due, all := all, pos := pos, e := e, p := p }
      let st := c.status
      if st ≠ 0 then some (st, pos, some c) else was.validateIn c.n a ns due all (pos + 1) l

/-- The first entry that fails in the present state: status, position and check. -/
def Mod.validateFrom (m : Mod) (a ns : Nat) (due : Tread) (all : List Entry) (pos : Nat) (l : List Entry) :
    Option (Nat × Nat × Option Chk) := m.validateIn m a ns due all pos l

/-- Bytes that a transaction adds to the delta of its flight (R298). -/
def Mod.configBytes (m : Mod) (a : Nat) (l : List Entry) : Nat :=
  deltaBytes (l.filterMap fun e => let k := m.writeKey a e; if isConfig k then some (k, e.val) else none)

/-- Whether a write would take the delta of its commit flight past 48 KiB (R298). -/
def Mod.deltaFull (m : Mod) (a : Nat) (due : Tread) (l : List Entry) : Bool :=
  let mine := m.configBytes a l
  let same := m.staged.filter fun s => decide (s.due / 100 = due / 100)
  let staged := same.foldl (fun n s => n + m.configBytes s.assoc s.entries) 0
  let now := if due / 100 = m.tread / 100 then deltaBytes m.journal.delta else 0
  decide (mine ≠ 0 ∧ 49152 < mine + staged + now)

/-- A write that has passed validation: staged, with a STAGED reply where one is due (R32, R35). -/
def Mod.stage (m : Mod) (x : Txn) (due : Tread) : Mod :=
  let n := m.arrivals
  let s : Staged := { assoc := x.assoc, seq := x.seq, tag := x.tag, due := due, entries := x.entries, arrived := n,
                      early := x.early, journalled := x.journalled, named := x.named.isSome,
                      swaps := m.rov 0x4020 0x0C, origin := x.origin }
  let m := { m with arrivals := n + 1, staged := m.staged ++ [s] }
  if (x.early ∨ x.named.isSome) ∧ x.origin = .message then
    { m with replies := m.replies ++ [{ assoc := x.assoc, seq := x.seq, tag := x.tag, status := stStaged, tread := due,
                                        interim := true, arrived := n }] }
  else m

/-- A write validated at a moment of the present tread (R31 to R33). -/
def Mod.arriveWrite (m : Mod) (x : Txn) (off : Offset) : Mod :=
  let due := m.dueOfWrite x.named off
  match m.validateFrom x.assoc (m.now + off) due.2 x.entries 0 x.entries with
  | some (st, pos, c) =>
    let m := match c with | some c => c.noteRefusal st m | none => m
    m.refuse x st pos
  | none =>
    if due.1 ≠ 0 then m.refuse x due.1 0xFFFF
    else if m.deltaFull x.assoc due.2 x.entries then m.refuse x stOverload 0xFFFF
    else m.stage x due.2

/-! ### Reads -/

/-- The first entry of a read that fails at its arrival (R31, R45). -/
def Mod.readFail (m : Mod) (a : Nat) : Nat → List Entry → Option (Nat × Nat)
  | _, [] => none
  | pos, e :: l =>
    let ex := exists_ (m.profOf a) e.idx e.sub
    if ex ≠ 0 then some (ex, pos)
    else match place e.idx e.sub with
      | none => m.readFail a (pos + 1) l
      | some p =>
        if p.row.acc = .ro ∧ m.roleOf a < p.row.role then some (stAccess, pos)
        else if m.isolated p e.idx e.sub then some (stIsolated, pos)
        else m.readFail a (pos + 1) l

/-- A read validated (R42, R44). -/
def Mod.arriveRead (m : Mod) (x : Txn) (off : Offset) : Mod :=
  match m.readFail x.assoc 0 x.entries with
  | some (st, pos) => m.refuse x st pos
  | none =>
    let due := m.dueOfRead x.assoc x.named off
    if due.1 ≠ 0 then m.refuse x due.1 0xFFFF
    else
      { m with arrivals := m.arrivals + 1,
               reads := m.reads ++ [{ assoc := x.assoc, seq := x.seq, tag := x.tag, due := due.2, entries := x.entries,
                                      named := x.named.isSome, arrived := m.arrivals }] }

/-- A transaction in its turn: authentication, version and features, then its entries (R31, R330). -/
def Mod.arrive (m : Mod) (x : Txn) (authOk versionOk : Bool) (off : Offset) : Mod :=
  if !authOk then m.refuse x stAuth 0xFFFF
  else if !versionOk ∨ m.featureBad x then m.refuse x stVersion 0xFFFF
  else if x.write then m.arriveWrite x off else m.arriveRead x off

/-! ### Service of reads (R42, R43, R46) -/

/-- A value in a reply takes its bytes padded to a multiple of 4, and 4 more (R331). -/
def replyBytes (vals : List (Nat × Nat)) : Nat := vals.foldl (fun n v => n + 4 + (v.1 + 3) / 4 * 4) 20

/-- The largest reply body of an association: 2 segments of 1 440 bytes, or 8 (R319). -/
def Mod.replyLimit (m : Mod) (a : Nat) : Nat := 1440 * (if m.feature a 4 then 8 else 2)

/-- What a read whose service begins now finds: its failure, or the values of the committed state; a queue window that
it reads is claimed (R28, R319, R372, R444). -/
def Mod.takeValues (m : Mod) (a : Nat) (l : List Entry) : Mod × List (Nat × Nat) :=
  l.foldl (fun (r : Mod × List (Nat × Nat)) e =>
    if 0x3780 ≤ e.idx ∧ e.idx < 0x3782 ∧ e.sub = 0x10 then
      let q := r.1.claim (e.idx - 0x3780) a
      (q.1, r.2 ++ [(88, q.2)])
    else (r.1, r.2 ++ [r.1.readAs a e.idx e.sub])) (m, [])

/-- The queue entries that an association owns in one state and not in another, by port and sequence. -/
def Mod.claimedSince (m was : Mod) (a : Nat) : List (Nat × Nat) :=
  (List.range 2).flatMap fun p =>
    ((m.canPort p).queue.filter fun e => decide (e.owner = a) && !was.owns p a e.seq).map fun e => (p, e.seq)

/-- READ_SERVICE's effect (R42): service begins, in the named tread, or in the first that is due. -/
def Mod.beginRead (m : Mod) (r : ReadSt) : Mod :=
  let barred := r.entries.findIdx? fun e => m.readBarred r.assoc e.idx e.sub
  let t := m.takeValues r.assoc r.entries
  let total := t.2.foldl (fun n v => n + v.1) 0
  let big := decide (4096 < total ∨ m.replyLimit r.assoc < replyBytes t.2)
  let done := fun (m : Mod) (x : ReadSt) => { m with reads := m.reads.map fun y => if y = r then x else y }
  match barred with
  | some pos => done m { r with begun := true, due := m.tread, fail := some (stState, pos) }
  | none =>
    if big then done m { r with begun := true, due := m.tread, fail := some (stTooLarge, 0xFFFF) }
    else done t.1 { r with begun := true, due := m.tread, vals := t.2, claimed := t.1.claimedSince m r.assoc }

/-- The read of an association with a sequence number. -/
def Mod.readOf (m : Mod) (a seq : Nat) : Option ReadSt := m.reads.find? fun r => decide (r.assoc = a ∧ r.seq = seq)

/-- Whether the service of a read may begin in the tread (R42). -/
def Mod.readDue (m : Mod) (r : ReadSt) : Bool :=
  !r.begun && decide (r.due ≤ m.tread) && !(r.named && decide (m.tread ≠ r.due))

/-- Whether a read names a queue window (R372). -/
def ReadSt.window (r : ReadSt) : Bool := r.entries.any fun e => decide (0x3780 ≤ e.idx ∧ e.idx < 0x3782 ∧ e.sub = 0x10)

/-- Reads of queue windows that are served in the tread and arrived before another: they claim before it (R372). -/
def Mod.readsBefore (m : Mod) (r : ReadSt) : List ReadSt :=
  if r.window then m.reads.filter fun x => m.readDue x && x.window && decide (x.arrived < r.arrived) else []

/-- READ_SERVICE. -/
def Mod.readService (m : Mod) (a seq : Nat) : Mod :=
  match m.readOf a seq with
  | some r =>
    if !m.readDue r then m else (overAll (m.readsBefore r) (fun (m : Mod) x => m.beginRead x) m).beginRead r
  | none => m

/-- READ_SERVICE_END (R43, R46): the values, or a refusal where the housekeeping processor did not deliver in time; the
read then has no effect, and what it claimed is unclaimed. -/
def Mod.readServiceEnd (m : Mod) (a seq : Nat) (delivered : Bool) : Mod :=
  match m.readOf a seq with
  | none => m
  | some r =>
    if !r.begun then m else
    let m := { m with reads := m.reads.filter fun x => !decide (x = r) }
    let late := r.entries.findIdx? fun e => served e.idx e.sub && (!delivered || m.blockIn 16)
    let x : Reply := { assoc := a, seq := seq, tag := r.tag, status := 0, write := false, arrived := r.arrived }
    match r.fail, late with
    | some (st, pos), _ => (m.send { x with status := st, pos := pos }).flush
    | none, some pos => ((overAll r.claimed (fun (m : Mod) c => m.unclaimOne c.1 c.2) m).send { x with status := stIsolated, pos := pos }).flush
    | none, none => (m.finalReply { x with tread := r.due, vals := r.vals } false).flush

/-- Journalled replies that a checkpoint covers are sent (R52). -/
def Mod.journalledReply (m : Mod) (a seq : Nat) : Mod :=
  let ok := fun (w : Bool × Reply) => w.1 && decide (w.2.assoc = a ∧ w.2.seq = seq ∧ w.2.tread ≤ m.rov 0x1200 0xD)
  ({ m with waiting := m.waiting.map fun w => if ok w then (false, w.2) else w }).flush

end Sys2Proof.Machine
end

