-- ==== Sys2Proof/Machine/Hall.lean ====
section
/-! DEFINITION. The hall (13): announcing, negotiating, associating and leaving, heartbeats and notifications, and what
the module's frames carry. -/

namespace Sys2Proof.Machine

/-! ### Frames of the module (R315, R316, R327, R331) -/

/-- A frame header. -/
def headerBytes (major minor kind assoc seq tag len flags : Nat) : List Nat :=
  [major, minor, kind, assoc] ++ leBytes 4 seq ++ leBytes 2 tag ++ leBytes 2 len ++ leBytes 4 flags

/-- The trailer of a frame of an authenticated association. -/
def Partner.trailer (p : Partner) (bytes : List Nat) : List Nat :=
  mac16 p.key (leBytes 16 p.agreed.moduleNonce ++ leBytes 16 p.agreed.partnerNonce ++ bytes)

/-- A returned value: its length, and the value padded to a multiple of 4. -/
def valueBytes (v : Nat × Nat) : List Nat := leBytes 2 v.1 ++ [0, 0] ++ leBytes ((v.1 + 3) / 4 * 4) v.2

/-- The body of a reply. -/
def Reply.body (r : Reply) : List Nat :=
  [r.status, b2n r.write + 2 * b2n r.interim] ++ leBytes 2 r.pos ++ leBytes 4 r.seq ++ leBytes 8 r.tread ++
    leBytes 2 r.vals.length ++ [0, 0] ++ r.vals.flatMap valueBytes

/-- A message as frames of at most 1 440 body bytes each, from segment `i` of `n` on. -/
def Partner.segments (p : Partner) (kind seq tag flags : Nat) (body : List Nat) : Nat → Nat → List (List Nat)
  | _, 0 => []
  | i, n + 1 =>
    let b := (body.drop (1440 * i)).take 1440
    let f := headerBytes p.agreed.major p.agreed.minor kind p.id seq tag b.length
      (flags + b2n p.agreed.auth + 4 * i + 32 * (i + n)) ++ b
    (if p.agreed.auth then f ++ p.trailer f else f) :: p.segments kind seq tag flags body (i + 1) n

/-- The frames of a reply under the module's sequence number `seq` (R318, R320). -/
def Partner.replyFrames (p : Partner) (seq : Nat) (r : Reply) : List (List Nat) :=
  p.segments 4 seq r.tag (2 + 256 * b2n r.again) r.body 0 ((r.body.length + 1439) / 1440)

/-- The body of a message of the module's own accord, with its kind (R317, R341); none for another association. -/
def Out.body (o : Out) (a : Nat) : Option (Nat × List Nat) :=
  match o with
  | .notify b code data => if b = a then some (6, leBytes 2 code ++ leBytes 2 data.length ++ data) else none
  | .msg kind b data => if b = a ∧ kind < 9 then some (kind, data) else none
  | .send .. => none

/-- The frames that an association is sent in the present tread, replies first, under the module's sequence numbers from
the next one on, each in the encapsulation of its ASSOCIATE (R314, R315, R320); the association of a CAN port has none. A
message that answers nothing carries tag 0 (log entry 36). -/
def Mod.sentTo (m : Mod) (a : Nat) : List (List Nat) :=
  match look m.hall a with
  | none => []
  | some p =>
    if p.agreed.cls = 2 then [] else
    let rs := m.replies.filter fun r => decide (r.assoc = a)
    let os := m.out.filterMap (·.body a)
    let seq := fun i => (p.seqOut + 1 + i) % 2 ^ 32
    (((List.range rs.length).zip rs).flatMap (fun x => p.replyFrames (seq x.1) x.2) ++
      ((List.range os.length).zip os).flatMap (fun x => p.segments x.2.1 (seq (rs.length + x.1)) 0 0 x.2.2 0 1)).map
      fun f => m.framing p.agreed.src f ++ f

/-! ### HELLO (R321) -/

/-- The State field of HELLO and HEARTBEAT (R321, R353). -/
def Mod.helloState (m : Mod) : Nat :=
  b2n m.reset.service + 2 * b2n (decide (m.rov 0x1300 1 = 4 ∨ m.rov 0x1300 1 = 5)) + 4 * b2n (decide (m.safety.dom = 3))

/-- Host associations. -/
def Mod.hosts (m : Mod) : Nat := (m.hall.filter fun p => decide (p.2.agreed.cls = 0)).length

/-- The order number and the revision as ASCII. -/
def asciiPad (n : Nat) (s : String) : List Nat :=
  let l := s.toList.map Char.toNat
  l ++ List.replicate (n - l.length) 0

/-- The module's HELLO body for a port of arrival. -/
def Mod.helloBody (m : Mod) (port : Nat) : List Nat :=
  asciiPad 16 "DW-CV5120-A0" ++ asciiPad 2 "A0" ++
    [0x0F, 3, 3, 254 - m.hall.length - m.reserved.length, 8 - m.hosts, port] ++
    leBytes 4 Config.serial.toNat ++ leBytes 4 m.helloState ++ leBytes 8 m.tread

/-- An answer to an address outside any association. -/
def Mod.answerTo (m : Mod) (dest : Src) (kind assoc : Nat) (body : List Nat) : Mod :=
  { m with out := m.out ++ [Out.send dest kind assoc body] }

/-- A frame of the module to an address outside any association (R315, R316): its encapsulation, its header with sequence 0 and
its body. -/
def Mod.sendFrame (m : Mod) (dest : Src) (version : Nat × Nat) (kind assoc tag flags : Nat) (body : List Nat) : Mod :=
  let f := headerBytes version.1 version.2 kind assoc 0 tag body.length flags ++ body
  m.answerTo dest kind assoc (m.framing dest f ++ f)

/-- An answer to a frame outside any association: the reply flag set and the tag echoed. -/
def Mod.reply_ (m : Mod) (dest : Src) (version : Nat × Nat) (kind assoc tag : Nat) (body : List Nat) : Mod :=
  m.sendFrame dest version kind assoc tag 2 body

/-- A HELLO answered on its port. -/
def Mod.helloNow (m : Mod) (src : Src) (hd : FrameHead := {}) : Mod := m.reply_ src (1, 0) 1 0 hd.tag (m.helloBody src.port)

/-- The broadcast address. -/
def broadcastMac : Nat := 2 ^ 48 - 1

/-- HELLO_ANNOUNCE's effect (R321): at the first resumed boundary and every 1 000 flights after it. -/
def Mod.helloAnnounce (m : Mod) : Mod :=
  let said := m.out.any fun o => match o with
    | .send d kind _ _ => decide (d = { port := 0, mac := broadcastMac } ∧ kind = 1)
    | _ => false
  if !m.serving ∨ m.blockIn 16 ∨ m.cfg 0x1100 3 = 0 ∨ m.tread < m.reset.first ∨
      (m.tread - m.reset.first) % 100000 ≠ 0 ∨ said then m
  else overAll (List.range 4) (fun (m : Mod) p => m.sendFrame { port := p, mac := broadcastMac } (1, 0) 1 0 0 0 (m.helloBody 0xFF)) m

/-! ### NEGOTIATE (R322, R323) -/

/-- Versions by bit of the mask: major and minor. -/
def versionOf : Nat → Nat × Nat
  | 0 => (1, 0)
  | 1 => (2, 0)
  | 2 => (2, 1)
  | _ => (3, 0)

/-- Features that a version allows (R322). -/
def featuresOf : Nat × Nat → Nat
  | (1, _) => 0x01
  | (2, 0) => 0x3F
  | (2, _) => 0x7F
  | _ => 0xFF

/-- The highest common version (rule 1): the highest bit, since the mask is in order. -/
def commonVersion (mask : Nat) : Option (Nat × Nat) := (onBits 4 mask).getLast?.map versionOf

/-- Whether a NEGOTIATE body is one that the layout allows; another is discarded (log entry 36). -/
def negWf (r : NegReq) : Bool :=
  decide (r.cls ≤ 1 ∧ r.auth ≤ 1 ∧ 1 ≤ r.profile) && decide ((r.cls = 1) = (r.node ≠ 0))

/-- What the rules of R323 choose, status apart. -/
def negChoose (r : NegReq) (src : Src) (v : Nat × Nat) (t : Tread) (nonce : Nat) : Agreed :=
  { src := src, cls := r.cls, major := v.1, minor := v.2, profile := Min.min r.profile v.1,
    format := if 1 < v.1 ∧ tb r.formats 1 then 3 else 2,
    features := r.features &&& featuresOf v, auth := decide (r.auth = 1), node := r.node,
    partnerNonce := r.nonce, moduleNonce := nonce, at_ := t }

/-- The status of a NEGOTIATE. -/
def Mod.negStatus (m : Mod) (r : NegReq) : Nat :=
  match commonVersion r.versions with
  | none => stVersion
  | some v =>
    let f := r.features &&& featuresOf v
    if (r.cls = 1 ∧ !tb f 5) ∨ (r.auth = 1 ∧ !tb f 2) then stVersion
    else if 254 ≤ m.hall.length + m.reserved.length ∨ (r.cls = 0 ∧ 8 ≤ m.hosts) ∨ m.freeId.isNone then stOverload
    else if m.reset.service ∧ r.cls = 1 then stState
    else 0

/-- The body of a NEGOTIATE response. -/
def negBody (status : Nat) (g : Agreed) (id_ : Nat) (t : Tread) : List Nat :=
  if status = 0 then
    [0, g.major, g.minor, g.profile] ++ leBytes 4 g.features ++ [g.format, id_] ++ leBytes 6 0 ++
      leBytes 16 g.moduleNonce ++ leBytes 8 t
  else status :: (List.replicate 31 0 ++ leBytes 8 t)

/-- Reservations older than a second lapse (R323). -/
def Mod.lapse (m : Mod) : Mod := { m with reserved := m.reserved.filter fun p => decide (m.tread < p.2.at_ + 100000) }

/-- RESERVATION_LAPSE's effect. -/
def Mod.lapseOne (m : Mod) (k : Nat) : Mod :=
  match look m.reserved k with
  | some g => if g.at_ + 100000 ≤ m.tread then { m with reserved := drop m.reserved k } else m
  | none => m

/-- The module nonce of a NEGOTIATE: 16 free bytes where authentication is requested (log entry 12). -/
def Mod.drawNonce (m : Mod) (auth : Nat) : Nat × Mod :=
  if auth = 1 then
    let a := m.draw
    let b := a.2.draw
    (a.1 + 2 ^ 64 * b.1, b.2)
  else (0, m)

/-- A NEGOTIATE answered. -/
def Mod.negotiateNow (m0 : Mod) (src : Src) (r : NegReq) (hd : FrameHead := {}) : Mod :=
  let m := m0.lapse
  let st := m.negStatus r
  match commonVersion r.versions, m.freeId with
  | some v, some k =>
    if st = 0 then
      let n := m.drawNonce r.auth
      let g := negChoose r src v m.tread n.1
      { n.2 with reserved := put n.2.reserved k g }.reply_ src (1, 0) 2 0 hd.tag (negBody 0 g k m.tread)
    else m.reply_ src (1, 0) 2 0 hd.tag (negBody st { src := src } 0 m.tread)
  | _, _ => m.reply_ src (1, 0) 2 0 hd.tag (negBody st { src := src } 0 m.tread)

/-! ### ASSOCIATE (R325 to R328) -/

/-- A role's key. -/
def Mod.roleKey (m : Mod) (role : Nat) : Nat := m.cfg 0x1100 (0x21 + role)

/-- The proof of one side (R327): over its peer's view of the nonces, the ID and the role. -/
def proof (key n1 n2 id_ role : Nat) : List Nat := mac16 key (leBytes 16 n1 ++ leBytes 16 n2 ++ [id_, role])

/-- Whether a role is refused (R326). -/
def Mod.roleRefused (m : Mod) (g : Agreed) (role : Nat) : Bool :=
  (decide (role = 3 ∧ g.src.port < 3) && decide (m.cfg 0x1100 4 = 0)) || decide (g.cls = 1 ∧ 1 < role)

/-- Whether authentication fails (R325 item 4, R327, R328): a key of zeros disables authentication for its role, so that the mask
asks none and no proof is looked at (log entry 54). -/
def Mod.proofWrong (m : Mod) (g : Agreed) (r : AssocReq) : Bool :=
  if m.roleKey r.role = 0 then false
  else if g.auth then
    decide (leBytes 16 r.proof ≠ proof (m.roleKey r.role) g.moduleNonce g.partnerNonce r.reserved r.role)
  else tb (m.cfg 0x1100 5) r.role

/-- Whether a frame comes from an address (R326): port and MAC address, or IPv4 address and UDP port. -/
def sameSrc (o s : Src) : Bool :=
  decide (o.port = s.port ∧ o.udp = s.udp) &&
    (if s.udp then decide (o.ip = s.ip ∧ o.udpPort = s.udpPort) else decide (o.mac = s.mac))

/-- The status of an ASSOCIATE. -/
def Mod.assocStatus (m : Mod) (src : Src) (r : AssocReq) : Nat :=
  match look m.reserved r.reserved with
  | none => stState
  | some g =>
    if !sameSrc g.src src ∨ g.at_ + 100000 ≤ m.tread then stState
    else if 3 < r.role ∨ 2 < r.lossAction ∨ r.resv3 ≠ 0 ∨ r.resv6 ≠ 0 ∨ r.heartbeat = 0 ∨ 1000 < r.heartbeat then stRange
    else if m.roleRefused g r.role then stAccess
    else if m.proofWrong g r then stAuth
    else 0

/-- The body of an ASSOCIATE response. -/
def assocBody (status id_ : Nat) (t : Tread) (pf : List Nat) : List Nat :=
  [status, id_, 0, 0] ++ leBytes 4 1 ++ leBytes 8 t ++ pf

/-- Whether an association of a role is authenticated: agreed, and the role has a key (R327, R328). -/
def Mod.authenticated (m : Mod) (g : Agreed) (role : Nat) : Bool := g.auth && decide (m.roleKey role ≠ 0)

/-- The entry of an association that its ASSOCIATE makes: it enters the hall at the next boundary. -/
def Mod.newPartner (m : Mod) (g : Agreed) (r : AssocReq) : Partner :=
  { id := r.reserved, agreed := { g with auth := m.authenticated g r.role }, role := r.role, lossAction := r.lossAction, heartbeat := r.heartbeat,
    key := if g.auth then m.roleKey r.role else 0, since := m.tread + 1, last := m.tread + 1 }

/-- An ASSOCIATE answered. A refusal frees the reservation of its sender. -/
def Mod.associateNow (m : Mod) (src : Src) (r : AssocReq) (hd : FrameHead := {}) : Mod :=
  let st := m.assocStatus src r
  let zero := List.replicate 16 0
  match look m.reserved r.reserved with
  | none => m.reply_ src (hd.major, hd.minor) 3 r.reserved hd.tag (assocBody st 0 0 zero)
  | some g =>
    if !sameSrc g.src src then m.reply_ src (hd.major, hd.minor) 3 r.reserved hd.tag (assocBody st 0 0 zero)
    else
      let m1 := { m with reserved := drop m.reserved r.reserved }
      if st ≠ 0 then m1.reply_ src (g.major, g.minor) 3 r.reserved hd.tag (assocBody st 0 0 zero)
      else
        let pf := if m.authenticated g r.role then proof (m.roleKey r.role) g.partnerNonce g.moduleNonce r.reserved r.role else zero
        { m1 with hall := put m1.hall r.reserved (m1.newPartner g r) }.reply_ src (g.major, g.minor) 3 r.reserved hd.tag
          (assocBody 0 r.reserved (m.tread + 1) pf)

/-! ### While the housekeeping processor is in reset (R290, R317) -/

/-- A frame discarded and counted (0x1100:0B). -/
def Mod.dropFrame (m : Mod) : Mod := m.bump 0x1100 0xB

/-- Whether a frame's flags are those of a message that fits in one frame (R316, R318). -/
def flagsOk (flags : Nat) : Bool := decide (flags < 512) && decide (bits flags 2 6 = 0)

/-- A frame that the housekeeping processor serves: before boundary N discarded (R342), with a reserved flag discarded and
counted (R316), while the processor is in per-block reset kept until it is back. -/
def Mod.ask (m : Mod) (x : Ask) : Mod :=
  if !m.serving ∨ !x.src.sound ∨ !m.spoken x.src then m
  else if !flagsOk x.hd.flags then m.dropFrame
  else if m.blockIn 16 then { m with asks := m.asks ++ [x] }
  else match x with
    | .hello src hd => m.helloNow src hd
    | .negotiate src r hd => if negWf r then m.negotiateNow src r hd else m
    | .associate src r hd => m.associateNow src r hd

/-- Frames that have waited, in order. -/
def Mod.serveAsks (m : Mod) : Mod :=
  if m.blockIn 16 then m else overAll m.asks (fun (m : Mod) x => m.ask x) { m with asks := [] }

/-- A frame on a link port: 0 to 3. -/
def linkPort (s : Src) : Bool := decide (s.port < 4)

/-! ### Heartbeats, losses and departures (R337 to R341) -/

/-- A HEARTBEAT body (R337). -/
def Mod.beatBody (m : Mod) (a : Nat) : List Nat :=
  leBytes 8 m.tread ++ leBytes 8 (m.rov 0x1200 0xD) ++ leBytes 4 m.helloState ++ leBytes 4 (m.outstandingOf a)

/-- Heartbeats of a flight boundary. -/
def Mod.heartbeats (m : Mod) : Mod :=
  overAll (m.hall.filter fun p => decide (p.2.state = 1 ∧ p.2.heartbeat ≠ 0 ∧ m.tread / 100 % p.2.heartbeat = 0))
    (fun (m : Mod) p => { m with out := m.out ++ [Out.msg 7 p.1 (m.beatBody p.1)] }) m

/-- ASSOCIATION_LOST's effect (R338): due when three heartbeat periods have passed without a valid frame. -/
def Mod.declareLost (m : Mod) (a : Nat) (off : Offset) : Mod :=
  match m.inHall a with
  | some p =>
    if !m.serving ∨ p.agreed.cls = 2 ∨ m.tread - p.last < 300 * p.heartbeat then m
    else (m.depart a 0 (m.sealedTo off)).bump 0x1100 0xC
  | none => m

/-- Data of PARTNER_LOST (R341). -/
def Partner.lostData (p : Partner) : List Nat :=
  [p.id, p.agreed.cls, p.lossAction, 0] ++ leBytes 4 p.agreed.node ++ leBytes 8 p.declared

/-- Whether a departure brings the loss action with it (R339, R340): not a BYE with reason 0. -/
def Partner.acts (p : Partner) : Bool := decide (p.leaving ≠ 2)

/-- The tracks that an association owns. -/
def Mod.ownedBy (m : Mod) (a : Nat) : List Nat := (m.tracks.filter fun t => decide (t.2.owner = a)).map (·.1)

/-- PARTNER_LOST to every other host association. -/
def Mod.tellLost (m : Mod) (p : Partner) : Mod :=
  overAll (m.hall.filter fun q => decide (q.1 ≠ p.id ∧ q.2.state = 1 ∧ q.2.agreed.cls = 0))
    (fun (m : Mod) q => m.notify q.1 2 p.lostData) m

/-- The loss action of a departing association (R339); land: its running and paused tracks land with cause 6. -/
def Mod.lossAction (m : Mod) (p : Partner) : Mod :=
  let mine := m.ownedBy p.id
  let m := if p.acts ∧ p.lossAction ≠ 0 then m.tellLost p else m
  let m := if p.acts ∧ p.lossAction = 2 then
      overAll (mine.filter fun t => decide ((m.track t).state = 1 ∨ (m.track t).state = 2)) (fun (m : Mod) t => m.landNow t 6 0) m
    else m
  overAll mine (fun (m : Mod) t => m.setTrack t { m.track t with owner := 0 }) m

/-- Associations that wait for their association tread enter the hall at the boundary (R325). -/
def Mod.enterHall (m : Mod) : Mod :=
  { m with hall := m.hall.map fun (p : Nat × Partner) => if p.2.state = 0 then (p.1, { p.2 with state := 1 }) else p }

end Sys2Proof.Machine
end

