-- ==== Sys2Proof/Machine/Link.lean ====
section
/-! DEFINITION. The link (13): frames received, segments and sequences, request bodies, images both ways, and the access
service of the CAN ports (R373). -/

namespace Sys2Proof.Machine

/-! ### Request bodies (R329, R330) -/

/-- Read entries; none where the lengths or the reserved bits are wrong. -/
def parseReads : Nat → List Nat → Option (List Entry)
  | _, [] => some []
  | n + 1, i0 :: i1 :: s :: z :: l =>
    if z ≠ 0 then none else (parseReads n l).map fun r => { idx := i0 + 256 * i1, sub := s } :: r
  | _, _ => none

/-- Write entries. -/
def parseWrites : Nat → List Nat → Option (List Entry)
  | _, [] => some []
  | n + 1, i0 :: i1 :: s :: z :: l0 :: l1 :: z0 :: z1 :: l =>
    let len := l0 + 256 * l1
    let pad := (len + 3) / 4 * 4
    if z ≠ 0 ∨ z0 ≠ 0 ∨ z1 ≠ 0 ∨ l.length < pad ∨ ((l.take pad).drop len).any (fun b => decide (b ≠ 0)) then none
    else (parseWrites n (l.drop pad)).map fun r =>
      { idx := i0 + 256 * i1, sub := s, len := len, val := ofLe (l.take len) } :: r
  | _, _ => none

/-- What a well-formed body asks (R28, R330): TYPE for an empty list or a control bit that a READ may not have,
TOO_LARGE for too many entries or too much data. -/
def reqOf (write : Bool) (named : Option Tread) (early journalled : Bool) (l : List Entry) : Req :=
  if l.isEmpty ∨ (!write ∧ (early ∨ journalled)) then .bad stType 0xFFFF write
  else if 256 < l.length ∨ (write ∧ 4096 < l.foldl (fun n e => n + e.len) 0) then .bad stTooLarge 0xFFFF write
  else .txn write named early journalled l

/-- The body of a TRANSACT message. The named tread of a NEXT transaction is 0 (log entry 36). -/
def parseBody : List Nat → Req
  | c :: r :: n0 :: n1 :: l =>
    let write := tb c 0
    let named := ofLe (l.take 8)
    if l.length < 8 ∨ 16 ≤ c ∨ r ≠ 0 ∨ (!tb c 1 ∧ named ≠ 0) then .bad stType 0xFFFF write
    else
      match (if write then parseWrites l.length (l.drop 8) else parseReads l.length (l.drop 8)) with
      | none => .bad stType 0xFFFF write
      | some es =>
        if es.length ≠ n0 + 256 * n1 then .bad stType 0xFFFF write
        else reqOf write (if tb c 1 then some named else none) (tb c 2) (tb c 3) es
  | _ => .bad stType 0xFFFF false

/-! ### Admission (R316, R326, R327, R342, R55) -/

/-- Whether a frame's trailer is right for its association. -/
def trailerOk (p : Partner) (kind : Nat) (f : Frame) : Bool :=
  !p.agreed.auth || (tb f.flags 0 && decide (f.trailer = p.trailer
    (headerBytes f.major f.minor kind f.assoc f.seq f.tag f.body.length f.flags ++ f.body)))

/-- Whether a frame is one that R315 and R318 allow: its body, and segments of a TRANSACT only (log entry 36). -/
def frameOk (kind : Nat) (f : Frame) : Bool :=
  decide (f.flags < 512 ∧ f.body.length ≤ 1440) &&
    (if kind = 4 then decide (bits f.flags 2 3 ≤ bits f.flags 5 3) else flagsOk f.flags)

/-- A frame of an association admitted: its entry, and whether its trailer is right; none for one that is discarded or
answered by a BYE. A frame of a kind that R317 does not give is discarded and counted. A valid frame counts for R338. -/
def Mod.takeFrame (m : Mod) (kind : Nat) (f : Frame) : Mod × Option (Partner × Bool) :=
  if !m.serving ∨ !f.src.sound ∨ !m.spoken f.src then (m, none)
  else if f.kind.isSome ∨ !frameOk kind f then (m.dropFrame, none)
  else match look m.hall f.assoc with
  | none => (m.reply_ f.src (f.major, f.minor) 8 f.assoc f.tag [3, 0, 0, 0], none)
  | some p =>
    if p.state = 0 then (m.reply_ f.src (f.major, f.minor) 8 f.assoc f.tag [3, 0, 0, 0], none)
    else if p.state ≠ 1 ∨ !sameSrc p.agreed.src f.src then (m.dropFrame, none)
    else if trailerOk p kind f then
      let p := { p with last := m.tread }
      (m.setPartner f.assoc p, some (p, true))
    else
      let p := { p with authFails := (p.authFails + 1) % 2 ^ 32 }
      (m.setPartner f.assoc p, if kind = 4 then some (p, false) else none)

/-! ### Messages in their turn (R320) -/

/-- The transaction that a message makes for an association. -/
def Msg.txn (x : Msg) (a : Nat) : Txn :=
  match x.req with
  | .txn w n e j l => { assoc := a, seq := x.seq, tag := x.tag, write := w, named := n, early := e, journalled := j, entries := l }
  | .bad _ _ w => { assoc := a, seq := x.seq, tag := x.tag, write := w, named := none, early := false, journalled := false,
                    entries := [] }
  | .image k _ => { assoc := a, seq := x.seq, tag := x.tag, write := true, named := none, early := false,
                    journalled := false, entries := [], origin := .image k }
  | .done => { assoc := a, seq := x.seq, tag := x.tag, write := true, named := none, early := false, journalled := false,
               entries := [] }

/-- The entries that an image's data write, in map order, each at the size of its type (R332). -/
def Mod.imageEntries (m : Mod) (k : Nat) : Nat → Nat → List Nat → List Entry
  | _, 0, _ => []
  | i, n + 1, l =>
    let e := m.cfg (0x6000 + k) (0x10 + i)
    let size := match place (e % 65536) (bits e 16 8) with | some p => sizeOf_ p | none => 1
    { idx := e % 65536, sub := bits e 16 8, len := size, val := ofLe (l.take size) } ::
      m.imageEntries k (i + 1) n (l.drop size)

/-- Whether a map takes images of an association (R334). -/
def Mod.takesImage (m : Mod) (a k : Nat) : Bool :=
  decide (m.mapState k = 1) && decide (m.cfg (0x6000 + k) 1 = 1) && decide (m.mapPartner k = a)

/-- A partner's image in its turn (R334): discarded where its map does not take it, otherwise one write transaction. -/
def Mod.takeImage (m : Mod) (a : Nat) (x : Msg) (k : Nat) (data : List Nat) (off : Offset) : Mod :=
  if !m.takesImage a k then m.bump (0x6000 + k) 9
  else if data.length ≠ m.imageSize k then m.imageFailed a k stType 0xFFFF
  else
    (m.bump (0x6000 + k) 8).arrive { x.txn a with entries := m.imageEntries k 0 (m.cfg (0x6000 + k) 5) data }
      x.authOk x.versionOk off

/-- A message in its turn. -/
def Mod.take (m : Mod) (a : Nat) (x : Msg) (off : Offset) : Mod :=
  match x.req with
  | .done => m
  | .bad st pos _ => m.refuse (x.txn a) st pos
  | .image k data => m.takeImage a x k data off
  | .txn .. => m.arrive (x.txn a) x.authOk x.versionOk off

/-- Messages held behind the one taken are taken in their turn, at most `n` of them. -/
def Mod.drainHeld (m : Mod) (a : Nat) (off : Offset) : Nat → Mod
  | 0 => m
  | n + 1 =>
    match m.inHall a with
    | none => m
    | some p =>
      match p.held.find? fun x => decide (x.seq = p.expect) with
      | none => m
      | some x =>
        ((m.setPartner a { p with expect := (p.expect + 1) % 2 ^ 32, held := p.held.erase x }).take a x off).drainHeld a off n

/-- Whether a transaction of an association is outstanding. -/
def Mod.isOutstanding (m : Mod) (a seq : Nat) : Bool :=
  (m.staged.any fun s => decide (s.assoc = a ∧ s.seq = seq)) || (m.reads.any fun r => decide (r.assoc = a ∧ r.seq = seq)) ||
  (m.waiting.any fun w => decide (w.2.assoc = a ∧ w.2.seq = seq))

/-- A duplicate: counted, and answered again where its final reply is still kept. -/
def Mod.duplicate (m : Mod) (a : Nat) (p : Partner) (seq : Nat) : Mod :=
  let m := m.setPartner a { p with dups := (p.dups + 1) % 2 ^ 32 }
  if m.isOutstanding a seq then m
  else match p.cache.find? fun r => decide (r.seq = seq) with
    | some r => { m with replies := m.replies ++ [{ r with again := true }] }
    | none => m

/-- Whether a message asks for a transaction, which the limits of R29 bound: an image that is discarded is none (R334). -/
def Mod.limited (m : Mod) (a : Nat) (x : Msg) : Bool :=
  match x.req with
  | .done => false
  | .image k data => m.takesImage a k && decide (data.length = m.imageSize k)
  | _ => true

/-- A fully received message: taken, held, a duplicate or out of the window (R320). One that meets the limits of R29 is
refused at once, as is one that `now` tells to refuse; either counts as received. -/
def Mod.sequence (m : Mod) (a : Nat) (x : Msg) (now : Bool) (off : Offset) : Mod :=
  match m.inHall a with
  | none => m
  | some p =>
    let e := if p.resync then x.seq else p.expect
    let p := { p with expect := e, resync := false }
    let d := (x.seq + 2 ^ 32 - e) % 2 ^ 32
    let full := m.full a && m.limited a x
    if d = 0 then
      let m := m.setPartner a { p with expect := (e + 1) % 2 ^ 32 }
      (if full ∧ !now then m.refuse (x.txn a) stOverload 0xFFFF else m.take a x off).drainHeld a off 1024
    else if d ≤ 1023 then
      if p.held.any fun y => decide (y.seq = x.seq) then m.setPartner a { p with dups := (p.dups + 1) % 2 ^ 32 }
      else if full ∨ now then
        let m := m.setPartner a { p with held := p.held ++ [{ x with req := .done, since := m.tread }] }
        (if now then m.take a x off else m.refuse (x.txn a) stOverload 0xFFFF)
      else m.setPartner a { p with held := p.held ++ [{ x with since := m.tread }] }
    else if 2 ^ 32 - 1023 ≤ d then m.duplicate a p x.seq
    else (m.setPartner a p).dropFrame

/-- The tread of the first held message. -/
def Partner.firstHeld (p : Partner) : Option Tread :=
  p.held.foldl (fun (t : Option Tread) x => some (match t with | some y => Min.min x.since y | none => x.since)) none

/-- SEQUENCE_GAP's effect (R320): what has been awaited for 100 treads is declared missing, and what was held behind it is
taken at this moment of the tread. -/
def Mod.sequenceGap (m : Mod) (a : Nat) (off : Offset) : Nat → Mod
  | 0 => m
  | n + 1 =>
    match m.inHall a with
    | none => m
    | some p =>
      match p.firstHeld with
      | none => m
      | some t =>
        if m.tread < t + 100 then m
        else
          let m := m.setPartner a { p with gaps := (p.gaps + 1) % 2 ^ 32, expect := (p.expect + 1) % 2 ^ 32 }
          (m.drainHeld a off 1024).sequenceGap a off n

/-! ### TRANSACT frames (R318, R319) -/

/-- Segments that a message of an association may have. -/
def Mod.segmentLimit (m : Mod) (a : Nat) : Nat := if m.feature a 4 then 8 else 2

/-- A message whose segments have all arrived. -/
def Mod.received (m : Mod) (a : Nat) (q : Partial) (off : Offset) : Mod :=
  let body := (List.range q.count).flatMap fun i => ((q.parts.find? fun s => decide (s.1 = i)).map (·.2)).getD []
  m.sequence a { seq := q.seq, tag := q.tag, req := parseBody body, authOk := q.authOk, versionOk := q.versionOk,
                 since := m.tread } false off

/-- A segment of the message that is being assembled. -/
def Partial.add (q : Partial) (i : Nat) (f : Frame) (authOk versionOk : Bool) : Partial :=
  { q with parts := (q.parts.filter fun s => decide (s.1 ≠ i)) ++ [(i, f.body)], authOk := q.authOk && authOk,
           versionOk := q.versionOk && versionOk }

/-- A partial message that its association's entry drops: counted, unless it has been refused. -/
def Mod.dropPartial (m : Mod) (a : Nat) (p : Partner) : Mod :=
  match p.part with
  | none => m
  | some q => if q.refused then m.setPartner a { p with part := none } else (m.setPartner a { p with part := none }).dropFrame

/-- A TRANSACT frame of an association that has been admitted. -/
def Mod.segment (m : Mod) (p : Partner) (f : Frame) (authOk : Bool) : Mod :=
  let a := f.assoc
  let i := bits f.flags 2 3
  let n := bits f.flags 5 3 + 1
  let versionOk := decide (f.major = p.agreed.major)
  let mine := match p.part with
    | some q => decide (q.seq = f.seq ∧ q.tag = f.tag ∧ q.count = n ∧ m.tread < q.since + 100)
    | none => false
  match mine, p.part with
  | true, some q =>
    if q.refused then m.dropFrame
    else
      let q := q.add i f authOk versionOk
      if q.parts.length = n then (m.setPartner a { p with part := none }).received a q f.off
      else m.setPartner a { p with part := some q }
  | _, _ =>
    let m := m.dropPartial a p
    let q : Partial := { seq := f.seq, tag := f.tag, count := n, since := m.tread }
    if m.segmentLimit a < n then
      (m.setPartner a { p with part := some { q with refused := true } }).sequence a
        { seq := f.seq, tag := f.tag, req := .bad stTooLarge 0xFFFF (tb (f.body.headD 0) 0) } true f.off
    else
      let q := q.add i f authOk versionOk
      if n = 1 then (m.setPartner a { p with part := none }).received a q f.off
      else m.setPartner a { p with part := some q }

/-- TRANSACT's effect (R31, R318 to R320, R327). -/
def Mod.transact (m : Mod) (f : Frame) : Mod :=
  match m.takeFrame 4 f with
  | (m, some (p, ok)) => m.segment p f ok
  | (m, none) => m

/-- SEGMENT_DISCARD's effect (R318): 100 treads since the message's first segment. -/
def Mod.segmentDiscard (m : Mod) (a : Nat) : Mod :=
  match m.inHall a with
  | some p => match p.part with
    | some q => if q.since + 100 ≤ m.tread then m.dropPartial a p else m
    | none => m
  | none => m

/-! ### Other frames of associations -/

/-- IMAGE's effect (R320, R333, R334): it takes its turn in the sequence. -/
def Mod.imageFrame (m : Mod) (f : Frame) : Mod :=
  match m.takeFrame 5 f with
  | (m, some (p, _)) =>
    let k := f.body.headD 0
    if f.body.length < 20 ∨ 64 ≤ k then m.dropFrame.sequence f.assoc { seq := f.seq, tag := f.tag, req := .done } false f.off
    else
      let data := f.body.drop 20
      let data := if ofLe ((f.body.drop 2).take 2) = data.length then data else 0 :: data ++ List.replicate 1440 0
      m.sequence f.assoc { seq := f.seq, tag := f.tag, req := .image k data,
                           versionOk := decide (f.major = p.agreed.major) } false f.off
  | (m, none) => m

/-- HEARTBEAT's effect (R337, R338): a valid frame. -/
def Mod.heartbeatFrame (m : Mod) (f : Frame) : Mod := (m.takeFrame 7 f).1

/-- BYE's effect (R55, R340): the association leaves at the next boundary. -/
def Mod.byeFrame (m : Mod) (f : Frame) : Mod :=
  match m.takeFrame 8 f with
  | (m, some _) =>
    if f.body = [0, 0, 0, 0] then m.depart f.assoc 2 (m.sealedTo f.off)
    else if f.body = [1, 0, 0, 0] then m.depart f.assoc 3 (m.sealedTo f.off)
    else m.dropFrame
  | (m, none) => m

/-- IMAGE_SEND's effect (R47, R333): an enabled map of direction 0, sampled in its tread, or in the next where the task
scheduler could not build it. -/
def Mod.imageSend (m : Mod) (k : Nat) (late : Bool) : Mod :=
  let period := m.cfg (0x6000 + k) 3
  let a := m.mapPartner k
  let t := if late then m.phaseTread - 1 else m.phaseTread
  let said := m.out.any fun o => match o with | .msg 5 _ d => decide (d.headD 64 = k) | _ => false
  match m.inHall a with
  | some p =>
    if !m.serving ∨ 64 ≤ k ∨ m.mapState k ≠ 1 ∨ m.cfg (0x6000 + k) 1 ≠ 0 ∨ period = 0 ∨ m.phaseTread < t + b2n late ∨
        t % period ≠ m.cfg (0x6000 + k) 4 ∨ said then m
    else
      let data := (List.range (m.cfg (0x6000 + k) 5)).flatMap fun i =>
        let e := m.cfg (0x6000 + k) (0x10 + i)
        let v := m.readAs a (e % 65536) (bits e 16 8)
        leBytes v.1 v.2
      let body := [k, 0] ++ leBytes 2 data.length ++ leBytes 8 m.tread ++ [p.imgFail, p.imgStatus] ++ leBytes 2 p.imgPos ++
        leBytes 4 p.imgCount ++ data
      { m.bump (0x6000 + k) 8 with out := m.out ++ [Out.msg 5 a body] }
  | none => m

/-! ### Commands of partners, by their entries -/

/-- A transaction of an association given by its heading and its entries: a TRANSACT message in one frame, its trailer
right and its version the agreed one. An incomplete message of the association is discarded by it (R318). -/
def Mod.partner (m : Mod) (h : Hdr) (write : Bool) (l : List Entry) : Mod :=
  if !m.serving then m else
  match look m.hall h.assoc with
  | none => { m with out := m.out ++ [Out.msg 8 h.assoc [3, 0, 0, 0]] }
  | some p =>
    if p.state = 0 then { m with out := m.out ++ [Out.msg 8 h.assoc [3, 0, 0, 0]] }
    else if p.state ≠ 1 ∨ p.agreed.cls = 2 then m.dropFrame
    else
      ((m.setPartner h.assoc { p with last := m.tread }).dropPartial h.assoc { p with last := m.tread }).sequence h.assoc
        { seq := h.seq, tag := h.tag, req := reqOf write h.named h.early h.journalled l } false h.off

/-- A write of one object. -/
def Mod.write1 (m : Mod) (h : Hdr) (idx sub len val : Nat) : Mod :=
  m.partner h true [{ idx := idx, sub := sub, len := len, val := val }]

/-- A read served in the present tread where it is due. -/
def Mod.serveNow (m : Mod) (a seq : Nat) : Mod :=
  match m.readOf a seq with
  | some r => if !r.begun ∧ r.due = m.tread then (m.readService a seq).readServiceEnd a seq true else m
  | none => m

/-- QUEUE_WINDOW_READ's effect (R372): a read of the queue window, which claims its entry. -/
def Mod.queueRead (m : Mod) (h : Hdr) (p : Nat) : Mod :=
  (m.partner h false [{ idx := 0x3780 + p, sub := 0x10 }]).serveNow h.assoc h.seq

/-! ### The access service of the CAN ports (R373, R374) -/

/-- Whether the service reaches an object: its value is of fixed size and at most 56 bytes. -/
def serviceReaches (idx sub : Nat) : Bool :=
  match place idx sub with
  | some p => decide (p.row.ty ≠ .octVar ∧ sizeOf_ p ≤ 56)
  | none => true

/-- Whether a request frame is laid out as R373 gives. -/
def requestOk (l : List Nat) : Bool :=
  let len := l.getD 5 0
  decide (8 ≤ l.length ∧ l.getD 0 0 ≤ 1 ∧ l.getD 6 0 = 0 ∧ l.getD 7 0 = 0 ∧ 8 + len ≤ l.length) &&
    decide (l.getD 0 0 = 1 ∨ len = 0)

/-- ACCESS_REQUEST's effect (R373): one transaction of one entry, in NEXT mode. -/
def Mod.accessRequest (m : Mod) (p : Nat) (f : CanFrame) (off : Offset) : Mod :=
  let s := m.canPort p
  if !m.serving ∨ !m.hears p ∨ f.remote ∨ !m.isRequest p f ∨ s.assoc = 0 then m else
  let m := m.setErrors p s.tec (goodRec s.rec_)
  let l := f.data.take 64
  let seq := s.issue + 1
  let a := s.assoc
  let m := m.setCanPort p { m.canPort p with issue := seq }
  let e : Entry := { idx := l.getD 2 0 + 256 * l.getD 3 0, sub := l.getD 4 0, len := l.getD 5 0,
                     val := ofLe ((l.drop 8).take (l.getD 5 0)) }
  let x : Txn := { assoc := a, seq := seq, tag := l.getD 1 0, write := tb (l.getD 0 0) 0, named := none, early := false,
                   journalled := false, entries := [e] }
  if m.full a then m.refuse x stOverload 0xFFFF
  else if !requestOk l then m.refuse x stType 0xFFFF
  else if exists_ (m.profOf a) e.idx e.sub = 0 ∧ !serviceReaches e.idx e.sub then m.refuse x 0x10 0
  else m.arrive x true true off

end Sys2Proof.Machine
end

