-- ==== Sys2Proof/Machine/Steps.lean ====
section
/-! DEFINITION. Step entries and landings as a boundary takes them (R61 to R94): the decided transitions, the entry
effects with every action, delayed actions, pulse ends. -/

namespace Sys2Proof.Machine

/-! ### Actions that need the commit unit (R90, R424) -/

/-- The raw value that SET_MAPPED writes to an object of a type, none where the operand does not fit it (R424). -/
def mappedRaw (t : Ty) (v : Nat) : Option Nat :=
  match t with
  | .f32 => if f32Fin v then some v else none
  | .bf24 => if f32Fin v then some (bfWord (f32D v)) else none
  | .bool => if v ≤ 1 then some v else none
  | .i8 => if -128 ≤ toSigned 32 v ∧ toSigned 32 v ≤ 127 then some (v % 256) else none
  | .i16 => if -32768 ≤ toSigned 32 v ∧ toSigned 32 v ≤ 32767 then some (v % 65536) else none
  | .u8 => if v < 256 then some v else none
  | .u16 => if v < 65536 then some v else none
  | .sig => if v < 4096 then some v else none
  | .u32 | .i32 => some (v % 2 ^ 32)
  | _ => none

/-- Whether the chapter that owns a mapped object lets an action write the value in the present state. -/
def Mod.mappedOk (m : Mod) (e : Entry) (p : Place) : Bool :=
  let c : Chk := { was := m, m := m, n := m.overlay 0 e, a := 0, ns := 0, due := m.tread, all := [e], pos := 0, e := e, p := p }
  decide (c.rangeStatus = 0) && decide (c.stateStatus = 0) && !decide (p.fam = .satellite ∧ m.cfg e.idx 2 = 0)

/-- SET_MAPPED (R424): the object behind a mapped signal written in its place in R39; none where refused. A track that it
starts has no association as its owner: owner 0 (R77, log entry 114). -/
def Mod.setMapped (m : Mod) (who tgt v : Nat) : Option Mod :=
  let o := m.cfg (0x1700 + (tgt - 0xF00)) 1
  if !mappedWritable o then none else
  match place (o % 65536) (bits o 16 8) with
  | none => none
  | some p =>
    match mappedRaw p.row.ty v with
    | none => none
    | some w =>
      let e : Entry := { idx := o % 65536, sub := bits o 16 8, len := sizeOf_ p, val := w }
      if !m.mappedOk e p then none
      else if p.fam = .track ∧ e.sub = 1 then
        if m.outcomeOf p.k (w % 256) ≠ 0 then none
        else if w % 256 = 1 ∧ m.bank.entryCount ≤ bits w 8 8 then none
        else some ((m.store who 0 e).command p.k (w % 256) (bits w 8 8) 0)
      else some (m.commitEntry who 0 e [e] [])

/-- START_TRACK of track `t` on track `x` (R68, R77, R90). -/
def Mod.startAction (m : Mod) (t x entry : Nat) : Option Mod :=
  if (m.track x).state = 1 ∨ (m.track x).state = 2 ∨ m.bank.entryCount ≤ entry then none
  else some (m.startTrack x entry (m.track t).owner 0)

/-- ABORT_TRACK (R90); a track that is LANDED already only counts it (R75). -/
def Mod.abortAction (m : Mod) (x : Nat) : Mod :=
  if (m.track x).state = 1 ∨ (m.track x).state = 2 ∨ (m.track x).state = 3 then m.landNow x 9 0 else m

/-- What an action of a step does; none where it is refused. -/
def Mod.stepAction (m : Mod) (t step op tgt v : Nat) : Option Mod :=
  match op with
  | 0x12 => m.setMapped (byStep t) tgt v
  | 0x14 => m.startAction t (tgt - 0xB50) v
  | 0x15 => some (m.abortAction (tgt - 0xB50))
  | _ => m.simpleAction (byStep t) t step op tgt v (m.track t).entryTread

/-- Action `i` of a step of bank `b` at its boundary (R67, R68); axis actions have reached their axes already (R240). -/
def Mod.applyAction (m : Mod) (b : Bank) (t step i : Nat) : Mod :=
  let e := b.action i
  if axisOp (actOp e) then m else
  match (if b.operandGood e then m.stepAction t step (actOp e) (actTgt e) (b.operand e) else none) with
  | some m => m
  | none => m.refuseAction t step i (actOp e)

/-! ### Step entries -/

/-- The action indices of a step whose delay satisfies a test, in list order (W9). -/
def Bank.stepActs (b : Bank) (n : Nat) (ok : Nat → Bool) : List Nat :=
  let w := wordOf (b.step n) 9
  (listOf (bits w 0 16) (bits w 16 8)).filter fun i => ok (actDelay (b.action i))

/-- The host event flags of a mask cleared by an exit (R65). -/
def Mod.clearEvents (m : Mod) (who mask : Nat) : Mod :=
  overAll (onBits 32 mask) (fun (m : Mod) f => m.wr who 0x4011 (f + 1) 0) m

/-- The effects of the entry of a step of bank `b` by a track (R65, R67). -/
def Mod.entryEffects (m : Mod) (b : Bank) (t step clear : Nat) : Mod :=
  let w := wordOf (b.step step) 10
  let m := ((m.clearEvents (byStep t) clear).applyPattern b (byStep t) (bits w 16 16)).applySet b (byStep t) t step (bits w 0 16)
  overAll (b.stepActs step fun d => decide (d = 0)) (fun (m : Mod) i => m.applyAction b t step i) m

/-- Outputs that a step's pattern holds (R71). -/
def Mod.patternHold (m : Mod) (step : Nat) : Nat :=
  let pat := bits (wordOf (m.stepE step) 10) 16 16
  if pat = 0xFFFF then 0 else patternMask (lookD m.bank.patterns pat 0)

/-- The record of a step entry in the gallery (W13, R377). -/
def Mod.entryRecord (m : Mod) (t step : Nat) : Mod :=
  let code := wordOf (m.stepE step) 13
  if code = 0xFFFFFFFF then m else m.logRecipe (code % 1024) t step

/-- A track in its new step at the present boundary (R62, R63, R77), its timer at 1. -/
def Mod.enterStep (m : Mod) (t step exit : Nat) : Mod :=
  let s := m.track t
  let kind := m.kindOf step
  let m := m.setTrack t { s with step := step, entryTread := m.tread, timer := 1, full := false, acted := 0,
                                 lastExit := exit, paused := 0,
                                 countA := 0, countB := 0, wait := none, next := none, catchUp := false,
                                 entered := (s.entered + 1) % 2 ^ 32, heldMask := if kind = 3 ∨ kind = 4 then 0 else m.patternHold step }
  let m := (m.logS4 1 t step exit s.step).entryRecord t step
  if kind = 4 then m.setTrackState t 4 0
  else if kind = 3 then
    let l := m.landingOf t step
    let ok := m.landingOk l
    let m := if ok then m.landLater t l else m.bump 0x4010 4
    m.becomeLanded t l 4 0 ok
  else m

/-- The transition of one track decided in the tread before. -/
def Mod.transit (m : Mod) (t : Nat) : Mod :=
  match (m.track t).next with
  | none => m
  | some (.enter step exit _) => m.enterStep t step exit
  | some (.land l cause ok) =>
    let m := if ok then m.landLater t l else m
    (m.setTrack t { m.track t with next := none }).becomeLanded t l cause 0 ok

/-- The decided entries: track, step and the event flags that the exit clears; those of go-to-landing steps apply
nothing else. -/
def Mod.entering (m : Mod) : List (Nat × Nat × Nat) :=
  m.tracks.filterMap fun (p : Nat × TrackSt) =>
    match p.2.next with
    | some (.enter step _ clear) => some (p.1, step, clear)
    | _ => none

/-- Every decided transition, before anything else of the boundary (R41, R90). -/
def Mod.transitions (m : Mod) : Mod := overAll (m.tracks.map (·.1)) (fun (m : Mod) t => m.transit t) m

/-- The entry effects of the entered steps, in track order. -/
def Mod.enterAll (m : Mod) (b : Bank) (l : List (Nat × Nat × Nat)) : Mod :=
  overAll l (fun (m : Mod) x =>
    if bits (wordOf (b.step x.2.1) 0) 16 8 = 3 then m.clearEvents (byStep x.1) x.2.2
    else m.entryEffects b x.1 x.2.1 x.2.2) m

/-! ### Delayed actions and pulses (R67) -/

/-- Whether a track runs in a step. -/
def TrackSt.inStep (s : TrackSt) : Bool := decide (s.state = 1) && decide (s.step ≠ 0xFFFF)

/-- The delayed actions of a track in a step with a delay up to `lim` that have not been applied. -/
def Mod.actsUpTo (m : Mod) (t lim : Nat) : List Nat :=
  let s := m.track t
  if !s.inStep then [] else m.bank.stepActs s.step fun d => decide (s.acted < d ∧ d ≤ lim)
/-- Those that are due at the boundary that follows the present value of the step timer. -/
def Mod.dueActs (m : Mod) (t : Nat) : List Nat := m.actsUpTo t (m.track t).timer

/-- Delayed actions up to `lim` applied, once. -/
def Mod.delayedUpTo (m : Mod) (t lim : Nat) : Mod :=
  let s := m.track t
  if !s.inStep then m else
  let acts := m.actsUpTo t lim
  let m := m.setTrack t { s with acted := Max.max s.acted lim }
  overAll acts (fun (m : Mod) i => m.applyAction m.bank t s.step i) m

/-- The delayed actions that a boundary applies, with their tracks, steps and the timers they are decided by: those of
the tracks that come to it RUNNING in a step which they do not leave at it, decided in the tread before as a transition is
(R41, R67). A command of the boundary itself comes after the decision (log entry 81). -/
def Mod.dueAll (m : Mod) : List (Nat × Nat × Nat × List Nat) :=
  m.tracks.filterMap fun p =>
    if (m.track p.1).inStep ∧ (m.track p.1).next = none then some (p.1, (m.track p.1).step, (m.track p.1).timer, m.dueActs p.1) else none

/-- DELAYED_ACTION's effect (R67): what is due at the present boundary, if it has not applied it already. The timer counts
from 1 in the tread of the entry. -/
def Mod.delayedNow (m : Mod) (t : Nat) : Mod := m.delayedUpTo t ((m.track t).timer - 1)

/-- Decided delayed actions applied, in track order. -/
def Mod.delayedAll (m : Mod) (b : Bank) (due : List (Nat × Nat × Nat × List Nat)) : Mod :=
  overAll due (fun (m : Mod) x =>
    overAll x.2.2.2 (fun (m : Mod) i => m.applyAction b x.1 x.2.1 i)
      (m.setTrack x.1 { m.track x.1 with acted := Max.max (m.track x.1).acted x.2.2.1 })) m

/-- What step entries and delayed actions bring at the boundary, for T00 to T15 in that order, a track's delayed actions
after its entry effects (R39 item 2, R67, R69): as bank `b`, on which they were decided, gives them (R101). -/
def Mod.stepEffects (m : Mod) (b : Bank) (entered : List (Nat × Nat × Nat)) (due : List (Nat × Nat × Nat × List Nat)) : Mod :=
  overAll (List.range 16) (fun (m : Mod) t =>
    (m.enterAll b (entered.filter fun x => decide (x.1 = t))).delayedAll b (due.filter fun x => decide (x.1 = t))) m

/-- Writer number of a pulse's end, which is no track's write. -/
def byPulse : Nat := 400000

/-- PULSE_DO_END's effect: the pulses on an output that have ended. -/
def Mod.pulseEnd (m : Mod) (o : Nat) : Mod :=
  if m.pulses.any fun p => decide (p.out = m.lead o ∧ p.ends ≤ m.tread) then m.setDo byPulse o 0 else m

/-- Every pulse that ends. -/
def Mod.pulseEnds (m : Mod) : Mod :=
  overAll ((m.pulses.filter fun p => decide (p.ends ≤ m.tread)).map (·.out)) (fun (m : Mod) o => m.pulseEnd o) m

/-! ### Landings -/

/-- The effects of landings, in track order (R39 item 3): those decided in the tread before, whose axis parts have acted
already, by the bank `b` that they were decided on, and those that the boundary itself has brought, by the bank that was
active as they came (R101). -/
def Mod.landAll (m : Mod) (b : Bank) (decided now : List (Nat × Nat × Nat)) : Mod :=
  let l := decided.map (fun (x : Nat × Nat × Nat) => (x, false)) ++ now.map (fun (x : Nat × Nat × Nat) => (x, true))
  overAll (sortBy (fun (a b : (Nat × Nat × Nat) × Bool) => decide (a.1.1 < b.1.1)) l)
    (fun (m : Mod) x => m.landingEffects (if x.2 then m.bankNo x.1.2.2 else b) x.1.1 (m.track x.1.1).step x.1.2.1 x.2) m

/-! ### What the field and the axes take from decisions of the tread that ends (R11, R15, R240) -/

/-- The axis parts of decided transitions and of delayed actions that fall due. -/
def Mod.axisParts (m : Mod) : Mod :=
  let m := overAll (m.tracks.map (·.1)) (fun (m : Mod) t =>
    match (m.track t).next with
    | some (.enter step _ _) =>
      if m.kindOf step = 3 then
        let l := m.landingOf t step
        if m.landingOk l then (m.axisActions t (m.landingActs l)).landingStops m.bank l else m
      else m.axisActions t (m.bank.stepActs step fun d => decide (d = 0))
    | some (.land l _ ok) => if ok then (m.axisActions t (m.landingActs l)).landingStops m.bank l else m
    | none => m) m
  overAll (m.tracks.map (·.1)) (fun (m : Mod) t =>
    if (m.track t).next.isSome then m else m.axisActions t (m.dueActs t)) m

/-- Axis actions refused as the tread ended, counted at the boundary (R68). -/
def Mod.axisRefusals (m : Mod) : Mod :=
  overAll m.axRefused (fun (m : Mod) x => m.refuseAction x.1 (m.track x.1).step x.2.1 x.2.2) { m with axRefused := [] }

/-- The state that boundary `n` would leave by the results of the tread that ends alone: loop results, decided
transitions, delayed actions and pulse ends. The next image is built from it (R11, R15, R67). -/
def Mod.trial (m : Mod) (n : Tread) : Mod :=
  let m := { m with tread := n, landings := [], wlog := [], wold := [] }
  let l := m.entering
  let due := m.dueAll
  let m := (m.applyReleased.transitions)
  let lands := m.landings
  let m := (({ m with landings := [] }).pulseEnds).stepEffects m.bank l due
  m.landAll m.bank lands []

end Sys2Proof.Machine
end

