-- ==== Sys2Proof/Machine/Switch.lean ====
section
/-! DEFINITION. The switch of P0, P1 and P2 (R311 to R314), the ring manager (R313) and the transparent clock (R350). -/

namespace Sys2Proof.Machine

/-- Switch state set. -/
def Mod.setSwitch (m : Mod) (s : SwitchSt) : Mod := { m with switch := s }

/-- Whether P2 is blocked: the ring is closed (R313). -/
def Mod.ringClosed (m : Mod) : Bool := decide (m.rov 0x1100 0x12 = 1)

/-- The multicast address of ring test frames, 03-00-5A-00-00-01. -/
def ringMac : Nat := 0x01_00_00_5A_00_03

/-- Whether a frame goes to the high queue. -/
def swHigh (f : SwFrame) : Bool :=
  decide (f.cls = 1 ∨ f.cls = 3 ∨ f.cls = 6 ∨ f.cls = 7 ∨ 5 ≤ f.pcp)

/-- The source address learned: 1 024 entries, a full table learns no other (log entry 37). -/
def SwitchSt.learn (s : SwitchSt) (mac port : Nat) (t : Tread) : SwitchSt :=
  let rest := s.table.filter fun e => decide (e.1 ≠ mac)
  if rest.length < 1024 then { s with table := rest ++ [(mac, port, t)] } else s

/-- A frame of `len` bytes into an egress queue of a port, or dropped and counted; the Bool tells whether it is in. Before
boundary N of a bring-up no tread passes, and the queues' filling is not followed (log entry 37). -/
def Mod.fill (m : Mod) (port : Nat) (high : Bool) (len : Nat) : Mod × Bool :=
  if !m.serving then (m, true) else
  let k := 2 * port + b2n high
  let have_ := lookD m.switch.queues k 0
  if (if high then 32768 else 65536) < have_ + len then (m.bump 0x1100 0xF, false)
  else (m.setSwitch { m.switch with queues := putD 0 m.switch.queues k (have_ + len) }, true)

/-- A frame of the switch into an egress queue of a port. -/
def Mod.enqueue (m : Mod) (f : SwFrame) (port : Nat) : Mod := (m.fill port (swHigh f) f.len).1

/-- The ports that a frame is forwarded to. -/
def Mod.egress (m : Mod) (f : SwFrame) : List Nat :=
  let others := (List.range 3).filter fun p => decide (p ≠ f.port) && !(m.ringClosed && decide (p = 2))
  if f.dst = Config.macSwitch.toNat ∨ (f.cls = 7 ∧ m.cfg 0x1300 9 = 2) then []
  else if f.dst % 2 = 1 then others
  else match m.switch.table.find? fun e => decide (e.1 = f.dst) with
    | some e => others.filter fun p => decide (p = e.2.1)
    | none => others

/-- The correction of an event message on its way to an egress port: its residence, and for a Sync in P2P mode the measured peer
delay of its ingress port. -/
def Mod.correction (m : Mod) (f : SwFrame) (port : Nat) : Nat :=
  ((f.residences.find? fun r => decide (r.1 = port)).map (·.2)).getD f.residence +
    (if m.cfg 0x1300 9 = 2 ∧ f.cls = 3 ∧ !f.request then bits (m.rov 0x1300 0xE) (32 * f.port) 32 else 0)

/-- Whether a frame is a PTP event message that the clock corrects: Sync and Delay_Req, and in E2E mode the peer delay messages,
which it forwards. -/
def isEvent (f : SwFrame) : Bool := decide (f.cls = 3 ∨ f.cls = 7)

/-- The transparent clock on a frame: the corrections by egress port that leave with it. Those of a two-step Sync are kept for
its Follow_Up; those of a two-step Delay_Req in E2E mode for its Delay_Resp, which takes the one of the port that it comes from. -/
def Mod.clockFrame (m : Mod) (f : SwFrame) : Mod × List Nat :=
  let own := (List.range 3).map fun p => m.correction f p
  let zero := [0, 0, 0]
  if isEvent f then
    if f.twoStep then
      if f.cls = 3 ∧ (f.request → m.cfg 0x1300 9 ≠ 2) then
        (m.setSwitch { m.switch with ptp := m.switch.ptp ++
          [{ id := f.ptpId, request := f.request, corrections := own, at_ := m.tread }] }, zero)
      else (m, zero)
    else (m, own)
  else if f.cls = 4 then
    match m.switch.ptp.find? fun e => decide (e.id = f.ptpId ∧ m.tread < e.at_ + 100000) with
    | some e => (m.setSwitch { m.switch with ptp := m.switch.ptp.erase e },
        if e.request then List.replicate 3 (e.corrections.getD f.port 0) else e.corrections)
    | none => (m, zero)
  else (m, zero)

/-- The measured peer delay of a port (0x1300:0E). -/
def Mod.peerDelay (m : Mod) (port d : Nat) : Mod := m.setRo 0x1300 0xE (putBits (m.rov 0x1300 0xE) (32 * port) 32 d)

/-- A frame forwarded to a port where its queue has room: a PTP message with the correction that it leaves with, another one by
its sender, priority and length. -/
def Mod.forwardTo (m : Mod) (f : SwFrame) (corrections : List Nat) (p : Nat) : Mod :=
  let q := m.fill p (swHigh f) f.len
  if !q.2 then q.1
  else if isEvent f ∨ f.cls = 4 then q.1.answerTo { port := p, mac := f.dst } 258 0 [f.ptpId, corrections.getD p 0]
  else q.1.answerTo { port := p, mac := f.dst } 259 0 [f.src, f.pcp, f.len]

/-- A frame forwarded to its egress ports. -/
def Mod.forward (m : Mod) (f : SwFrame) : Mod :=
  let r := m.clockFrame f
  overAll (m.egress f) (fun (m : Mod) p => m.forwardTo f r.2 p) r.1

/-- Bytes on the wire of the frames of a message of `n` body bytes to an association (R318). -/
def Partner.wireLens (p : Partner) (n : Nat) : List Nat :=
  (List.range (Max.max 1 ((n + 1439) / 1440))).map fun i =>
    wireLen p.agreed.src.udp (16 + Min.min 1440 (n - 1440 * i) + 16 * b2n p.agreed.auth)

/-- The kinds whose frames take the high queue (R312). -/
def highKind (kind : Nat) : Bool := decide (kind = 5 ∨ kind = 6 ∨ kind = 7 ∨ kind = 257)

/-- The frames that the module itself sends on the switch's ports in the tread: port, whether high, bytes on the wire. Frames that
the switch forwards stand in its queues already. -/
def Mod.ownFrames (m : Mod) : List (Nat × Bool × Nat) :=
  (m.hall.flatMap fun h =>
    let p := h.2
    if p.agreed.cls = 2 ∨ 3 ≤ p.agreed.src.port then [] else
    ((m.replies.filter fun r => decide (r.assoc = h.1)).flatMap fun r =>
      (p.wireLens r.body.length).map fun n => (p.agreed.src.port, false, n)) ++
    ((m.out.filterMap (·.body h.1)).flatMap fun o =>
      (p.wireLens o.2.length).map fun n => (p.agreed.src.port, highKind o.1, n))) ++
  (m.out.filterMap fun o => match o with
    | .send d kind _ l => if 3 ≤ d.port ∨ kind = 258 ∨ kind = 259 then none
        else some (d.port, highKind kind, Max.max 64 (l.length + 18 + 28 * b2n d.udp))
    | _ => none)

/-- The module's own frames of the tread into the egress queues (R312). -/
def Mod.queueOwn (m : Mod) : Mod := overAll m.ownFrames (fun (m : Mod) x => (m.fill x.1 x.2.1 x.2.2).1) m

/-- Whether the switch forwards: in service, and from step 4 of a bring-up on (R286, R294), the wait for an image over P3
included (R293). -/
def Mod.switching (m : Mod) : Bool := m.started

/-- SWITCH_FRAME's effect (R311 to R313, R350). -/
def Mod.switchFrame (m : Mod) (f : SwFrame) : Mod :=
  if !m.switching ∨ 3 ≤ f.port ∨ 1522 < f.len then m
  else if !f.fcsOk then m.bump 0x1100 0xF
  else if f.cls = 6 ∧ f.own then
    (if f.port = 2 then m.setSwitch { m.switch with returned := true } else m)
  else if m.ringClosed ∧ f.port = 2 ∧ ¬(f.cls = 7 ∧ m.cfg 0x1300 9 = 2) then m
  else
    let m := m.setSwitch (m.switch.learn f.src f.port m.tread)
    if f.cls = 7 ∧ m.cfg 0x1300 9 = 2 then (m.peerDelay f.port f.peerDelay).answerTo { port := f.port, mac := f.src } 257 0 [f.ptpId]
    else m.forward f

/-- ADDRESS_AGE_OUT's effect: an address not seen for 300 s. -/
def Mod.ageOut (m : Mod) (mac : Nat) : Mod :=
  m.setSwitch { m.switch with table := m.switch.table.filter fun e => !decide (e.1 = mac ∧ e.2.2 + 30000000 ≤ m.tread) }

/-- What a port sends in one tread at its speed: the high queue first. -/
def SwitchSt.send (s : SwitchSt) (port speed : Nat) : SwitchSt :=
  let room := if speed = 2 then 1250 else if speed = 1 then 125 else 0
  let h := lookD s.queues (2 * port + 1) 0
  let l := lookD s.queues (2 * port) 0
  { s with queues := putD 0 (putD 0 s.queues (2 * port + 1) (h - room)) (2 * port) (l - (room - h)) }

/-- The egress queues as a tread passes. -/
def Mod.drainQueues (m : Mod) : Mod :=
  if m.switch.queues.isEmpty then m else
  m.setSwitch ((List.range 3).foldl (fun (s : SwitchSt) p => s.send p (byteOf (m.rov 0x1100 0x13) p)) m.switch)

/-! ### The ring manager (R313) -/

/-- The ring manager at a flight boundary: it counts the flights with and without its test frame and sends the next. A
manager that is switched on starts with P2 blocked (log entry 37). -/
def Mod.ringFlight (m : Mod) : Mod :=
  let s := m.switch
  if m.cfg 0x1100 6 = 0 then
    if m.rov 0x1100 0x12 = 0 then m
    else (m.setSwitch { s with silentFlights := 0, goodFlights := 0, returned := false }).setRo 0x1100 0x12 0
  else
    let m := if m.rov 0x1100 0x12 = 0 then
        (m.setSwitch { s with silentFlights := 0, goodFlights := 0, returned := false }).setRo 0x1100 0x12 1
      else m.setSwitch { s with silentFlights := if s.returned then 0 else s.silentFlights + 1,
                                goodFlights := if s.returned then s.goodFlights + 1 else 0, returned := false }
    m.sendFrame { port := 1, mac := ringMac } (1, 0) 7 0 0 0 (leBytes 4 Config.serial.toNat)

/-- RING_OPEN's effect: no test frame for 3 flights. -/
def Mod.ringOpens (m : Mod) : Mod :=
  if m.rov 0x1100 0x12 ≠ 1 ∨ m.switch.silentFlights < 3 then m
  else (m.setSwitch { m.switch with table := [] }).setRo 0x1100 0x12 2

/-- RING_CLOSED's effect: the test frames have returned for 3 flights. -/
def Mod.ringCloses (m : Mod) : Mod :=
  if m.rov 0x1100 0x12 ≠ 2 ∨ m.switch.goodFlights < 3 then m
  else (m.setSwitch { m.switch with table := [] }).setRo 0x1100 0x12 1

/-! ### ARP, Follow_Up and link state -/

/-- ARP_REQUEST's effect (R274, R314): requests for its own addresses are answered. -/
def Mod.arp (m : Mod) (port ip mac : Nat) : Mod :=
  if !m.serving ∨ 4 < port ∨ ip = 0 ∨ m.ownIp port ≠ ip then m
  else m.answerTo { port := port, mac := mac } 256 0 (leBytes 4 ip ++ leBytes 6 (ownMac port))

/-- FOLLOW_UP_TIMEOUT's effect (R350): its message, after 1 s, goes without correction. -/
def Mod.followUpTimeout (m : Mod) (id_ : Nat) : Mod :=
  match m.switch.ptp.find? fun e => decide (e.id = id_ ∧ e.at_ + 100000 ≤ m.tread) with
  | some e => (m.setSwitch { m.switch with ptp := m.switch.ptp.erase e }).bump 0x1300 0x15
  | none => m

/-- PORT_LINK_STATE's effect (R311, R274): 0x1100:13 for P0 to P3, 0x3838:0E for DP. -/
def Mod.portLink (m : Mod) (port speed : Nat) : Mod :=
  if 2 < speed then m
  else if port < 4 then m.setRo 0x1100 0x13 (putBits (m.rov 0x1100 0x13) (8 * port) 8 speed)
  else if port = 4 ∧ speed < 2 then m.setRo 0x3838 0xE speed
  else m

end Sys2Proof.Machine
end

