-- ==== Sys2Proof/Machine/Boundary.lean ====
section
/-! DEFINITION. The tread boundary (R11) and the flight boundary (R17): the end of a tread, the boundary in the order of
R39, the latch, and the evaluation of the tread that begins. -/

namespace Sys2Proof.Machine

/-! ### The step of the time (R345) -/

/-- A tread moved on with the time. -/
def later_ (d : Nat) (t : Option Tread) : Option Tread := t.map (· + d)

/-- The moments that the stairwell, the loops and the inputs keep, moved on by `d` treads. Windows of inputs are aligned to the
tread's number (R169): those that are open at the step are given up (log entry 122). -/
def Mod.shiftControl (m : Mod) (d : Nat) : Mod :=
  { m with
    tracks := m.tracks.map fun (p : Nat × TrackSt) => (p.1, { p.2 with entryTread := p.2.entryTread + d }),
    pulses := m.pulses.map fun (p : Pulse) => { p with ends := p.ends + d },
    loops := m.loops.map fun (p : Nat × LoopSt) => (p.1, { p.2 with
      manAt := p.2.manAt + d, modeAt := p.2.modeAt + d, rep := { p.2.rep with lastEdge := later_ d p.2.rep.lastEdge } }),
    inputs := m.inputs.map fun (p : Nat × InpSt) => (p.1, { p.2 with
      wins := [], since := m.tread + 1 + d,
      lastAt := p.2.lastAt + 640 * d }),
    convs := m.convs.map fun (p : Nat × ConvSt) => (p.1, { p.2 with
      calSince := later_ d p.2.calSince, calPast := p.2.calPast.map fun r => (r.1 + d, r.2 + d) }),
    skewSince := later_ d m.skewSince, skewPast := m.skewPast.map fun r => (r.1 + d, r.2 + d),
    fbanks := m.fbanks.map fun (p : Nat × BankSt) => (p.1, { p.2 with darkSince := p.2.darkSince + d, darkLast := later_ d p.2.darkLast }),
    field := { m.field with changed := m.field.changed.map fun (p : Nat × Tread) => (p.1, p.2 + d),
                            bounce := m.field.bounce.map fun (p : Nat × Tread) => (p.1, p.2 + d),
                            aoAt := m.field.aoAt + d, doAt := m.field.doAt.map fun (p : Nat × Tread) => (p.1, p.2 + d),
                            pulse := m.field.pulse.map fun p => (p.1, p.2.1, p.2.2 + d) },
    axes := m.axes.map fun (p : Nat × AxisSt) => (p.1, { p.2 with
      still := p.2.still + d, statusDue := p.2.statusDue.map fun q => (q.1 + d, q.2) }),
    engine := { m.engine with missA := m.engine.missA.map (· + d), missB := m.engine.missB.map (· + d),
                              startA := m.engine.startA + d, startB := m.engine.startB + d } }

/-- The moments that the link, the CAN ports, the triggers, the gallery and the resets keep, moved on by `d` treads, and those that
count flights by the flights that the step skips. -/
def Mod.shiftLink (m : Mod) (d : Nat) : Mod :=
  let df := (m.tread + 1 + d) / 100 - (m.tread + 1) / 100
  { m with
    hall := m.hall.map fun (p : Nat × Partner) => (p.1, { p.2 with
      since := p.2.since + d, last := p.2.last + d, declared := p.2.declared + d,
      held := p.2.held.map fun (x : Msg) => { x with since := x.since + d },
      part := p.2.part.map fun (q : Partial) => { q with since := q.since + d } }),
    reserved := m.reserved.map fun (p : Nat × Agreed) => (p.1, { p.2 with at_ := p.2.at_ + d }),
    barred := m.barred.map fun (p : Nat × Tread) => (p.1, p.2 + d),
    switch := { m.switch with table := m.switch.table.map fun e => (e.1, e.2.1, e.2.2 + d),
                              ptp := m.switch.ptp.map fun (e : PtpWait) => { e with at_ := e.at_ + d } },
    staged := m.staged.map fun (s : Staged) => { s with due := s.due + d },
    reads := m.reads.map fun (r : ReadSt) => { r with due := r.due + d },
    canObjs := m.canObjs.map fun (p : Nat × CanObjSt) => (p.1, { p.2 with since := p.2.since + d }),
    canPorts := m.canPorts.map fun (p : Nat × CanPortSt) => (p.1, { p.2 with
      offers := p.2.offers.map fun o => (o.1 + d, o.2), offAt := later_ d p.2.offAt }),
    record := { m.record with
      trigs := m.record.trigs.map fun (p : Nat × TrigSt) => (p.1, { p.2 with
        fired := later_ d p.2.fired, holdFrom := p.2.holdFrom + d }),
      windows := m.record.windows.map fun (w : Window) => { w with first := w.first + d, last := w.last + d },
      buffer := m.record.buffer.map fun (g : Group) => { g with tread := g.tread + d },
      bufSince := m.record.bufSince + d, pausedTo := m.record.pausedTo + d },
    firmware := { m.firmware with trial := later_ d m.firmware.trial },
    reset := { m.reset with first := m.reset.first + d, request := m.reset.request.map fun r => (r.1, r.2.1, r.2.2 + d) },
    power := { m.power with standby := later_ d m.power.standby },
    journal := { m.journal with pfail := later_ d m.journal.pfail },
    time := { m.time with shift := m.time.shift + d, masters := m.time.masters.map fun x => (x.1, x.2 + d),
                          behind := m.time.behind.map (· + df) },
    gal := { m.gal with counted := m.gal.counted + df, codes := m.gal.codes.map fun (p : Nat × GalCode) => (p.1, { p.2 with opened := p.2.opened.map (· + df) }) } }

/-- NAMED transactions and reads as the time steps: refused with LATE and counted. -/
def Mod.refuseNamed (m : Mod) : Mod :=
  let w := m.staged.filter (·.named)
  let r := m.reads.filter (·.named)
  let m := { m with staged := m.staged.filter (!·.named), reads := m.reads.filter (!·.named) }
  let m := overAll w (fun (m : Mod) s =>
    (m.bump 0x1200 0xA).send { assoc := s.assoc, seq := s.seq, tag := s.tag, status := stLate }) m
  (overAll r (fun (m : Mod) s =>
    (m.bump 0x1200 0xA).send { assoc := s.assoc, seq := s.seq, tag := s.tag, status := stLate, write := false }) m).flush

/-- The boundary that follows tread n − 1 becomes boundary `n`: where the time steps, every interval runs on. -/
def Mod.stepTo (m : Mod) (n : Tread) : Mod :=
  let d := n - (m.tread + 1)
  let stepped := m.time.stepTo.isSome
  let m := { m with time := { m.time with stepTo := none } }
  if !stepped then { m with tread := n } else
  let m := (m.haltStreams m.tread 0).refuseNamed
  ({ (m.shiftControl d).shiftLink d with tread := n }.tpoStep d n).openStreams n

/-! ### The end of a tread -/

/-- Configuration that waits for a flight boundary taken over at boundary `n` (R182, R185, R188, R191; log entry 40). -/
def Mod.newConfig (m : Mod) (n : Tread) : Mod :=
  let t := m.tread
  { { m with tread := n }.applyInputConfig.fieldFlight m.eff with tread := t }

/-- The end of a tread in service: tiles outside the awake set, slots that were lost, triggers, wakes, axes and their frames, the image for the next
boundary, and at the end of a flight its state (R11, R17, R163, R230, R240). -/
def Mod.closeTread (m : Mod) : Mod :=
  let n := m.nextTread
  let m := m.countTiles.noteOffers
  let m := if n % 100 = 0 then m.slotsEnd.newConfig n else m.slotsEnd
  let m := (m.trigPass.wakeCheck).axisParts
  let m := if m.tread % 2 = 0 then m.axisFrames else m
  let m := { m with field := { m.field with built := some (m.trial n).buildImage } }
  if n % 100 = 0 then m.endFlight m.applyReleased else m

/-! ### Levels (R265) -/

/-- The DO states of the image applied, the members of a group as their lead (R191). -/
def Mod.doLevels (m : Mod) : Nat :=
  if m.field.parallel.isEmpty then m.field.image.dos % 2 ^ 192
  else ofBits ((List.range 192).filter fun o => tb m.field.image.dos (m.lead o))

/-- The levels of the signals that a boundary's snapshot and image give; time outputs and triggers as they stand. -/
def Mod.levelsNow (m : Mod) : Nat :=
  m.field.snapDi % 2 ^ 192 + 2 ^ 192 * m.doLevels + 2 ^ 384 * (m.snapSafety % 2 ^ 32) +
    2 ^ 416 * (m.snapPairs % 256) + 2 ^ 424 * (m.snapFault % 64) + 2 ^ 432 * bits m.levels 432 20

/-- The words of the signals whose level has changed, in ascending order. -/
def Mod.edgeWords (m : Mod) (now : Nat) : List Nat :=
  ((List.range 432).filter fun i => tb now i != tb m.levels i).map fun i =>
    0x940 + i + 4096 * b2n (tb now i) + 8192 * b2n (m.field.fallIn && decide (i < 192))

/-- Changes of level recorded at the boundary, in packets of a chain's size. -/
def Mod.recordEdges (m : Mod) : Mod :=
  let now := m.levelsNow
  if now = m.levels then m else
  let l := m.edgeWords now
  let m := { m with levels := now }
  let m := if l.isEmpty then m else m.chainPut 2 ((m.tread % 2 ^ 32) :: l.take 255)
  if (l.drop 255).isEmpty then m else m.chainPut 2 ((m.tread % 2 ^ 32) :: l.drop 255)

/-! ### Departures (R39 item 4, R339) -/

/-- Associations that leave at the present boundary: those whose departure an earlier tread declared. One evicted by a
write of this boundary leaves at the next (R340). -/
def Mod.leaving (m : Mod) : List Partner :=
  (m.hall.filter fun p => decide (p.2.state = 2 ∧ p.2.declared < m.tread)).map (·.2)

/-- The sources of the associations that leave are lost (R336). -/
def Mod.loseSources (m : Mod) : Mod := overAll m.leaving (fun (m : Mod) p => m.loseSatellites p.id) m

/-- Source-lost actions, then loss actions with their landings; the associations are gone. -/
def Mod.departures (m : Mod) : Mod :=
  let l := m.leaving
  let m := m.loseSources.lostPass
  let m := overAll l (fun (m : Mod) p =>
    let m := m.lossAction p
    let lands := m.landings
    { m with landings := [] }.landAll m.bank [] lands) m
  overAll l (fun (m : Mod) p => m.leaveHall p.id) m

/-! ### The boundary -/

/-- What the last boundary queued has been sent (R312, R320): the module's sequence numbers advance. -/
def Mod.clearSent (m : Mod) : Mod :=
  let m := m.queueOwn
  let sent := fun (a : Nat) => (m.replies.filter fun r => decide (r.assoc = a)).length +
    (m.out.filter fun o => match o with | .notify b _ _ => decide (b = a) | .msg _ b _ => decide (b = a) | .send .. => false).length
  { m with replies := [], out := [], landings := [],
           hall := m.hall.map fun (p : Nat × Partner) => (p.1, { p.2 with seqOut := (p.2.seqOut + sent p.1) % 2 ^ 32 }) }.clearLog

/-- What reaches the field at the boundary, and what it shows (R11, R12, R193). -/
def Mod.fieldBoundary (m : Mod) (i : TreadIn) : Mod :=
  (((((((m.applyReleased).takeRaw i).applyImage i.mainOut i.strobes).snapField i).axesSafety).axesStatus).canBoundary)

/-- What follows the sealed set at a boundary: pulse ends, step entries and delayed actions, landings, and what departures
bring (R39 items 2 to 4); `b` is the bank that the tread before decided on (R101). -/
def Mod.afterSet (m : Mod) (b : Bank) (entered : List (Nat × Nat × Nat)) (due : List (Nat × Nat × Nat × List Nat))
    (decided : List (Nat × Nat × Nat)) : Mod :=
  let m := (m.pulseEnds.stepEffects b entered due).axisRefusals
  let now := m.landings
  ({ m with landings := [] }.landAll b decided now).departures

/-- Everything that commits at the boundary, in the order of R39, with the outcomes of its transactions. Sources lost in the
tread that ended are lost for every check of a mode (R39 item 4, R123). -/
def Mod.commitBoundary (m : Mod) : Mod × List (Staged × Nat × Nat × Nat) :=
  let entered := m.entering
  let due := m.dueAll
  let m := m.transitions.loseSources
  let decided := m.landings
  { m with landings := [] }.commitSealed fun x => x.afterSet m.bank entered due decided

/-- The committed state fixed and its answers queued (R12, R26, R34, R35, R69). -/
def Mod.fixBoundary (m : Mod) (set : List (Staged × Nat × Nat × Nat)) : Mod :=
  let m := (m.takeManuals.loopChanges.undriven.modeRecords.setRo 0x1200 0xC (Min.min 0xFFFF m.changes)).bumpBy 0x4010 3 m.conflicts
  let m := ((m.answerAll set).flush.lockPass).latch
  let m := m.setRo 0x1200 7 m.outstanding
  { m with tpoLevel := m.tpoNow }.recordEdges.runTimers.clearLog

/-- The evaluation of a tread: loops, tracks, and what the comparators of the pairs found (R60, R111, R137 to R141). -/
def Mod.evaluation (m : Mod) (i : TreadIn) : Mod :=
  let m := m.evaluate i.poolStored (i.poolPath.map (·.2))
  let m := m.evalTracks
  let r := m.pairs i
  if r.2 then r.1.recordLoops else r.1.logicReset 5 0

/-- Tiles after the commit: links gated at a flight boundary in IDLE, and what is wanted starts to wake (R20, R21, R253). -/
def Mod.tilePass (m : Mod) : Mod := (if m.tread % 100 = 0 then m.gateLinks else m).wakePass

/-- Boundary `n`, up to the latch at 1.2 us. Slot 0 of the tread is sampled by the converters that do not calibrate from this
boundary on (R163, R181). -/
def Mod.boundary (m : Mod) (i : TreadIn) (n : Tread) : Mod :=
  let m := (((m.clearSent.drainChains).stepTo n).drainQueues).scanStart
  let m := (if n % 100 = 0 then m.powerPass.gateEarly else m).fieldBoundary i
  let r := m.enterHall.commitBoundary
  ((r.1.slotZero i.slot0).tilePass).fixBoundary r.2

/-- Outstanding transactions by association (R29). -/
def Mod.outstandingAll (m : Mod) : SMap Nat := m.hall.map fun p => (p.1, m.outstandingOf p.1)

/-- The committed state kept for the tread (R26, R27). -/
def Mod.commitRo (m : Mod) : Mod :=
  { m with com := m.ro, axesCom := m.axes, hallCom := m.hall, kept :=
      { loops := m.loops, tracks := m.tracks, gal := m.gal, record := m.record, tiles := m.tiles, links := m.links,
        field := m.field, fbanks := m.fbanks, safety := m.safety.active, trial := m.firmware.trial, trg := m.trg,
        outstanding := m.outstandingAll, pfail := m.journal.pfail } }

/-! ### The flight boundary -/

/-- Values of a list written to one object of successive members. -/
def Mod.setEach (m : Mod) (idx sub : Nat) (l : List Nat) : Mod :=
  overAll ((List.range l.length).zip l) (fun (m : Mod) p => m.setRo (idx + p.1) sub p.2) m

/-- 18.0 V, −10.0 °C and 70.0 °C as F32: the limits of the power status (0x1400:2F, R386, R427). -/
def f18 : Nat := 0x41900000
@[inherit_doc f18] def fMinus10 : Nat := 0xC1200000
@[inherit_doc f18] def f70 : Nat := 0x428C0000

/-- What the module measures once per flight (R173, R197, R386, R388, R427; log entry 39). -/
def Mod.measure (m : Mod) (i : FlightIn) : Mod :=
  let m := (((m.setRo 0x1400 0x2B i.power).setRo 0x1400 0x2C i.vlog).setRo 0x1400 0x2D i.vhu).setRo 0x1400 0x2E i.baseplate
  let charging := bits (m.rov 0x1400 0x2F) 1 1
  let m := m.setRo 0x1400 0x2F (b2n (cmpF Dy.lt i.vlog f18) + 2 * charging +
    4 * b2n (cmpF Dy.lt i.baseplate fMinus10 || cmpF Dy.lt f70 i.baseplate))
  let m := ((if m.field.fallIn then m else m.setEach 0x34C0 5 (i.supplies.take 6)).setEach 0x3180 3 (i.tileTemps.take 8)).setRo 0x3190 5 i.cjX2
  m.setRo 0x3190 6 i.cjX3

/-- The ring write rate (0x3800:06), over each second of 1 000 flights. -/
def Mod.ringRate (m : Mod) (f : Nat) : Mod :=
  if f % 1000 = 0 then (m.setRo 0x3800 6 m.record.bytes).setRecord { m.record with bytes := 0 } else m

/-- FLIGHT_BOUNDARY's effect, once in the first tread of each flight in service (R17): the checkpoint of the flight that
has ended begins, unless the module leaves service at this boundary; maps, servo, heartbeats and ring run on. -/
def Mod.flight (m : Mod) (i : FlightIn) : Mod :=
  let f := m.tread / 100
  if !m.serving ∨ m.tread % 100 ≠ 0 ∨ m.flown = some f then m else
  let m := { m with flown := some f }
  let m := if m.leaves then m else m.startCheckpoint (f - 1) false
  let m := ((m.mapPass.servoFlight).heartbeats).ringFlight
  ((m.measure i).timeTo f).ringRate f

end Sys2Proof.Machine
end

