-- ==== Sys2Proof/Machine/Resume.lean ====
section
/-! DEFINITION. From a reset's release to the first resumed boundary (R291 to R308): bring-up, the outcome, the state
that each outcome gives, and the tread boundary as the module runs it in service and at its return. -/

namespace Sys2Proof.Machine

/-! ### Bring-up (R291 to R295) -/

/-- The servo restarted from the holdover frequency (R286, R294 step 3). -/
def Mod.restartServo (m : Mod) : Mod :=
  if !m.time.ptp then m else
  let f := Dy.ofInt (toSigned 32 (m.rov 0x1300 6))
  let m := m.setTime { m.time with acc := f, adj := f, near := 0, far := 0, sum := Dy.zero, flights := 0,
                                   following := false, valid := 0 }
  let m := m.setRo 0x1300 5 (ofSigned 32 f.neg.round)
  if m.rov 0x1300 1 = 3 then m.setRo 0x1300 1 2 else m

/-- Steps 5 to 7: the journal scanned, the field side's report taken, N known. -/
def Mod.bringUp (m : Mod) (b : BringUp) : Mod :=
  let now := Max.max b.now m.tread
  let n := firstFlight now
  let m := m.setRo 0x34D0 2 (b2n m.field.holdValid)
  { m with life := .ready, tread := n - 2,
           reset := { m.reset with report := some b, first := n, restore := m.journal.scan now, needP3 := false } }

/-- Whether the factory's minimal options are loaded. -/
def factoryOptions (b : BringUp) : Bool := decide (8 ≤ b.restarts) || !(b.optionA || b.optionB)

/-- The objects of the option block. -/
def optionKey (k : Nat) : Bool := decide (okey 0 0x1100 7 ≤ k ∧ k ≤ okey 0 0x1100 0xA)

/-- The stored options back in force, those written since the factory's came into force on top. -/
def Mod.storedOptions (m : Mod) : Mod :=
  match m.reset.stored with
  | none => m
  | some l => { m with objs := l.foldl (fun (o : SMap Nat) p => if (look o p.1).isSome then o else put o p.1 p.2) m.objs,
                       reset := { m.reset with stored := none } }

/-- The factory's options in force. They stand in the identity area: the stored ones stay in MRAM where a copy of them passes. -/
def Mod.minimalOptions (m : Mod) (b : BringUp) : Mod :=
  { m with objs := m.objs.filter fun p => !optionKey p.1,
           reset := { m.reset with stored := if b.optionA || b.optionB then some (m.objs.filter fun p => optionKey p.1) else none } }

/-- The option block (R292): a copy that fails is rewritten from the other; both, or 8 restarts, give the factory's. EtherType
and UDP port take effect here (R314). -/
def Mod.loadOptions (m : Mod) (b : BringUp) : Mod :=
  let m := (m.setRo 0x1400 0xC (Min.min 255 b.restarts)).storedOptions
  let m := if b.optionA != b.optionB then m.logGal 0x060 0 [b2n b.optionA] else m
  let m := if factoryOptions b then m.minimalOptions b else m
  m.setReset { m.reset with etherType := m.cfg 0x1100 7, udpPort := m.cfg 0x1100 8 }

/-- RESET_RELEASE's effect (R291 to R294). -/
def Mod.resetRelease (m : Mod) (b : BringUp) : Mod :=
  if m.life ≠ .held ∨ m.reset.needP3 then m else
  let m := ((m.timeTo (b.now / 100)).loadOptions b).restartServo
  let p3 := decide (m.reset.bootsel = 1) && !(factoryOptions b)
  let service := (factoryOptions b) || decide (m.reset.bootsel = 2)
  let m := if p3 then m.setRo 0x1400 0xF 2 else m.hkStart
  let m := if p3 then m else m.setRo 0x1400 0xF (if (factoryOptions b) = true then 3 else m.firmware.running)
  let m := m.setRo 0x1620 1 (1 - m.firmware.running)
  let m := (m.setRo 0x1400 0x10 (b2n service)).setReset { m.reset with service := service, needP3 := p3 }
  if p3 then m else m.bringUp b

/-- FIRMWARE_OVER_P3's effect (R293): the signed image has been received and checked. -/
def Mod.firmwareP3 (m : Mod) (signed : Bool) (b : BringUp) : Mod :=
  if m.life = .held ∧ m.reset.needP3 ∧ signed then m.bringUp b else m

/-! ### The outcome (R300) -/

/-- The restored tread of a restore point. -/
def Restore.tread (r : Restore) : Tread := 100 * r.flight + 99

/-- The outcome, whether in its outputs-off form, and the reasons (0x1400:03; log entry 41). -/
def Mod.decideOutcome (m : Mod) : Nat × Bool × Nat :=
  let s := m.reset
  let flag := if s.cause = 6 ∨ s.cause = 7 then s.flag else 1
  let remaining := (s.report.map (·.remaining)).getD 0
  let why := 128 * b2n s.por + 256 * b2n s.service
  if s.por || s.service then
    match s.restore with
    | some _ => (1, true, b2n s.por + why + 512)
    | none => (2, false, b2n s.por + why + 8)
  else if flag = 3 then (2, false, 3)
  else match s.restore with
    | none => (2, false, b2n (decide (flag = 2)) + 8)
    | some r =>
      if flag = 2 then (1, false, 5)
      else if 100 * stGet r.cfg (okey 0 0x1400 8) < s.first - (r.tread + 1) then (1, false, 16)
      else if m.rov 0x34D0 2 = 0 ∨ !m.field.holdValid then (1, false, 32)
      else if remaining < 100 then (1, false, 64)
      else (0, false, 0)

/-! ### Restored and default states (R299, R301, R302, R304) -/

/-- Objects that a cold start leaves as configured: stores of their own, stream selections, the data port (R283, R304). -/
def keepConfigured (k : Nat) : Bool :=
  let idx := k / 256 % 65536
  ownStore k || decide (k < 2 ^ 24) && (decide (0x3810 ≤ idx ∧ idx < 0x3816) || decide (idx = 0x3838))

/-- Counters of the field side, the timebase and the power states, which a cold start clears (R416). -/
def coldClears (k : Nat) : Bool :=
  let idx := k / 256 % 65536
  let sub := k % 256
  (decide (0x34C0 ≤ idx ∧ idx < 0x34C6) && decide (sub = 0xB)) || (decide (idx = 0x34D0) && decide (sub = 4 ∨ sub = 5)) ||
  (decide (idx = 0x1300) && decide (0x12 ≤ sub ∧ sub ≤ 0x15)) || decide (k = okey 0 0x1400 0x29)

/-- The module without any control state. -/
def Mod.blank (m : Mod) : Mod :=
  { m with hall := [], hallCom := [], tracks := [], pulses := [], loops := [], released := [], poolDue := [], pool := [],
           inputs := [], convs := [], eff := [], effWas := [], effAt := 0, skewSince := none, skewPast := none, scans := [], canObjs := [], canPorts := [], tpos := [], axes := [],
           axesCom := [], links := [], staged := [], reads := [], waiting := [] }

/-- A cold start at boundary `n` (R102, R283, R304; log entry 42 for the copies, log entry 91 for a selector that nothing has
written). -/
def Mod.coldStart (m : Mod) (n : Tread) : Mod :=
  let was := m.rov 0x4020 1
  let m : Mod := { m.blank with
    objs := m.objs.filter fun p => keepConfigured p.1, ro := m.ro.filter fun p => keepLive p.1 && !coldClears p.1,
    tiles := { awake := 2 ^ 15 - 1 }, undo := [], engine := {}, record := { m.record with trigs := [] } }
  let m := { m with eff := m.objs.filter fun p => deferred p.1 }
  let sel : Nat := if m.selector = 0 ∨ m.selector = 1 then m.selector else 0
  let ok := fun k => if k = 0 then m.bankA.ok else m.bankB.ok
  let m := m.activateBank was (if ok sel then sel else if ok (1 - sel) then 1 - sel else 0xFF)
  let f := n / 100 - 1
  let cfg := m.objs.filter fun p => isConfig p.1
  let c : CfgCopy := { fc := f, objs := cfg, ok := true }
  m.setJournal { m.journal with slots := clearedSlots, ended := [], delta := [], lastDelta := none, copyA := c, copyB := c, cfgEnd := cfg,
                                cfgFlight := f, mirrorA := (List.range 64).map fun k => (k, f, []), mirrorB := [] }

/-- The hall as restored (R53, R302): joiners whose tread lies after the restored one are not in it, departures that had
not taken effect are not carried over. -/
def keptHall (h : SMap Partner) : SMap Partner :=
  (h.filter fun p => decide (p.2.state ≠ 0)).map fun (p : Nat × Partner) =>
    (p.1, { p.2 with state := 1, leaving := 0, cache := [], held := [], part := none })

/-- What no longer runs after a reset, in restored values: tokens, blocks in reset, calibrations (R290, R404). -/
def Mod.endRuns (m : Mod) : Mod :=
  let m := ((m.freeTokens.setRo 0x1410 2 0).setRo 0x1200 7 0)
  let m := if m.rov 0x3190 2 = 1 then m.setRo 0x3190 2 3 else m
  let m := overAll ((List.range 64).filter fun c => decide (m.rov (0x3100 + c) 0xA = 1))
    (fun (m : Mod) c => m.setRo (0x3100 + c) 0xA 3) m
  overAll ((List.range 256).filter fun x => tb (m.rov (0x3000 + x) 8) 5) (fun (m : Mod) x => m.flagInput x 5 false) m

/-- Configuration and control state of a restore point (R102, R106, R159, R283, R299, R302). -/
def Mod.load_ (m : Mod) (r : Restore) : Mod :=
  let s := r.saved
  let was := m.rov 0x4020 1
  let merge := fun (a b : SMap Nat) => b.foldl (fun (l : SMap Nat) p => put l p.1 p.2) a
  let m := { (m.revert r.tread).blank with
    objs := merge (merge (m.objs.filter fun p => ownStore p.1) (r.cfg.filter fun p => !ownedKey p.1)) s.objs,
    ro := merge (m.ro.filter fun p => keepLive p.1) (s.ro.filter fun p => !keepLive p.1),
    loops := s.loops, tracks := s.tracks, pulses := s.pulses, axes := s.axes, hall := keptHall s.hall,
    inputs := s.inputs, canObjs := s.canObjs, tpos := s.tpos, record := { m.record with trigs := s.trigs },
    tiles := { awake := orBits s.tiles.awake s.tiles.waking, idle := s.tiles.idle } }
  let m := m.activateBank was s.active
  let m := overAll [0, 1] (fun (m : Mod) p => m.setCanPort p { m.canPort p with assoc := m.rov (0x3780 + p) 0x12 }) m
  let m := m.setJournal { m.journal with ended := [], delta := [], lastDelta := r.lastDelta, cfgEnd := r.cfg, cfgFlight := r.flight }
  (m.endRuns.setRo 0x1200 0xD r.tread).restorePool

/-- An axis after a restore (R254). -/
def AxisSt.restored (s : AxisSt) (follows : Bool) : AxisSt :=
  let s := { s with suspended := s.suspended || follows, statusDue := none, silent := 0, differ := 0, held := 0 }
  if 2 ≤ s.state ∧ s.state ≤ 4 then
    { s with state := 5, fault := 7, refLost := true, queue := [], ends := [], plan := [], clock := 0, replan := false,
             stopFault := 0, mot := { s.mot with v := 0, a := 0 }, moving := false }
  else s

/-- An axis without power: state 0, at rest (R301). -/
def AxisSt.unpowered (s : AxisSt) : AxisSt :=
  { s with state := 0, fault := 0, queue := [], ends := [], plan := [], clock := 0, replan := false, stopFault := 0,
           mot := { s.mot with v := 0, a := 0 }, moving := false }

/-- What every restored state has in common at boundary `n`: axes, loops with their histories restarted, inputs stale with
new windows, CAN ports integrating, time outputs, the hall's leases (R136, R170, R254, R302, R305, R356, R375). -/
def Mod.rejoin (m : Mod) (n : Tread) : Mod :=
  let t := m.tread
  let m := { m with
    tread := n,
    axes := m.axes.map fun (p : Nat × AxisSt) => (p.1, p.2.restored (m.axisLoop p.1).isSome),
    loops := m.loops.map fun (p : Nat × LoopSt) => (p.1, { p.2 with restart := true }),
    eff := m.objs.filter fun p => deferred p.1 }
  let m := overAll (List.range 8) (fun (m : Mod) k => if m.trigState k = 2 then m.holdOff k n else m) m
  let m := overAll (List.range 8) (fun (m : Mod) k => m.restartTile k n) m.tpoResume.canAfresh
  let m := overAll [0, 1] (fun (m : Mod) p => m.resetPort p) m
  let m := { m with engine := { m.engine with startA := n, startB := n, restart := true } }
  { m.renewHall n with tread := t }

/-! ### Outputs -/

/-- The image that the field side reports (R294, R303): what it applied, or fail states where the hold has expired. -/
def Mod.reported (m : Mod) : Img :=
  let f := m.field
  let failed := (List.range 192).filter fun o => tb f.doFailed (o / 32)
  { f.image with
    dos := failed.foldl (fun w o => setBit w o (tb f.failDo o)) f.image.dos,
    duty := (failed.filter m.isDuty).foldl (fun (l : SMap Nat) o => putD 0 l o (if tb f.failDo o then 0x3F800000 else 0)) f.image.duty,
    ao := f.aoVal }

/-- Commanded outputs set to an image (R303). -/
def Mod.setOutputs (m : Mod) (img : Img) : Mod :=
  let m := overAll (List.range 192) (fun (m : Mod) o =>
    (m.setCfg (0x3400 + o) 1 (b2n (tb img.dos o))).setCfg (0x3400 + o) 3 (lookD img.duty o 0)) m
  overAll (List.range 64) (fun (m : Mod) a => m.setCfg (0x3200 + a) 2 (lookD img.ao a 0)) m

/-- Everything off (R301, R306): outputs at rest (log entry 23), loops in OFF, axes without power. -/
def Mod.allOutputsOff (m : Mod) : Mod :=
  let m := m.setOutputs {}
  let m := overAll ((List.range 64).filter fun a => decide (m.inForce (0x3200 + a) 1 = 3))
    (fun (m : Mod) a => m.setCfg (0x3200 + a) 2 (toF32 (Dy.ofInt 4))) m
  let m := overAll (List.range 512) (fun (m : Mod) j => m.setCfg (0x2200 + j) 1 0) m
  let m := overAll (List.range 32) (fun (m : Mod) a => m.setCfg (0x3600 + a) 1 0) m
  { m with pulses := [], loops := m.loops.map fun (p : Nat × LoopSt) => (p.1, { p.2 with mode := 0, formed := false, sat := false, i := Dy.zero }),
           axes := m.axes.map fun (p : Nat × AxisSt) => (p.1, p.2.unpowered) }

/-- Signal numbers of the outputs whose values differ between a restored image, as it would apply, and the one reported
(R308). -/
def Mod.differing (m : Mod) (x y : Img) : List Nat :=
  let ao := m.aoApplied x.ao
  ((List.range 64).filter fun a => decide (lookD ao a 0 ≠ lookD y.ao a 0)).map (0x900 + ·) ++
  ((List.range 192).filter fun o =>
    (tb x.dos o != tb y.dos o) || m.isDuty o && decide (lookD x.duty o 0 ≠ lookD y.duty o 0)).map (0xA00 + ·)

/-- An image with the changes from `a` to `b` made in it: the restored image with the effects of steps that are entered
again (R302). -/
def overlayImg (base a b : Img) : Img :=
  let pick := fun (n : Nat) (x y z : SMap Nat) => (List.range n).foldl (fun (l : SMap Nat) k =>
    if lookD y k 0 = lookD z k 0 then l else putD 0 l k (lookD z k 0)) x
  let d := a.dos ^^^ b.dos
  { dos := orBits (clrBits base.dos d) (b.dos &&& d), duty := pick 192 base.duty a.duty b.duty,
    ao := pick 64 base.ao a.ao b.ao, requests := b.requests }

/-! ### Tracks (R93, R302) -/

/-- A track with its decisions of the restored tread left behind. -/
def TrackSt.settled (s : TrackSt) : TrackSt :=
  { s with next := none, wait := none, refused := false, seen := none, catchUp := true }

/-- A track that was running or paused carries on at boundary `n` after `g` gap treads (R93). With wall-clock timing the
delayed actions that the gap has passed are not applied; one that is due at `n` itself is (log entry 116). -/
def Mod.carryOn (m : Mod) (t : Nat) (n g : Tread) : Mod :=
  let s := m.track t
  if (s.state ≠ 1 ∧ s.state ≠ 2) ∨ s.step = 0xFFFF then m else
  let s := if s.state = 2 then { s with paused := s.paused + g } else s
  let m := m.setTrack t s
  let w := wordOf (m.stepE s.step) 0
  if tb w 26 then m.decideEnter t s.step s.lastExit 0
  else if tb w 25 then
    let x := Min.min 0xFFFFFFFF (n - s.entryTread - s.paused)
    m.setTrack t { s with timer := x, acted := Max.max s.acted (x - 1) }
  else m

/-- The landings of a landed outcome (R301): cause 7, with their effects or without. -/
def Mod.landTracks (m : Mod) (effects : Bool) : Mod :=
  overAll (m.tracks.map (·.1)) (fun (m : Mod) t =>
    let s := m.track t
    if s.state ≠ 1 ∧ s.state ≠ 2 then m
    else if effects then m.decideLand t 7
    else m.setTrack t { s with next := some (.land (m.landingOf t s.step) 7 false) }) m

/-! ### The preparation tread (R295) -/

/-- The restored state as the outcome takes it into boundary `n` (R301 to R303, R306). -/
def Mod.outcomeState (m : Mod) (out : Nat) (off : Bool) (r : Restore) (n : Tread) : Mod :=
  let m := { m with tracks := m.tracks.map fun (p : Nat × TrackSt) => (p.1, p.2.settled) }
  if out = 0 then overAll (m.tracks.map (·.1)) (fun (m : Mod) t => m.carryOn t n (n - r.tread - 1)) m
  else
    let m := overAll [3, 4] (fun (m : Mod) sub => m.setRo 0x2000 sub 0) m
    if off then m.allOutputsOff.landTracks false
    else
      let m := { m with loops := m.loops.map fun (p : Nat × LoopSt) => (p.1, { p.2 with landed := true }),
                        engine := { m.engine with landed := true } }
      (m.setOutputs m.reported).landTracks true

/-- The image for boundary `n` (R295, R301). -/
def Mod.outcomeImage (before m : Mod) (out : Nat) (saved : Img) (n : Tread) : Img :=
  let b := (m.trial n).buildImage
  if out = 0 then overlayImg saved (before.trial n).buildImage b else b

/-- The reset objects of an outcome (R300, R302, R308). -/
def Mod.outcomeObjects (m : Mod) (out why r n g : Nat) (diff : List Nat) : Mod :=
  let m := ((m.setRo 0x1400 2 out).setRo 0x1400 3 why).setRo 0x1400 4 r
  let m := ((m.setRo 0x1400 5 n).setRo 0x1400 6 (g % 2 ^ 32)).setRo 0x1400 7
    ((m.reset.report.map (·.micros)).getD 0 % 2 ^ 32)
  if out = 0 then (m.bump 0x1400 0xA).setRo 0x1400 0xB (Min.min 0xFFFF diff.length) else m

/-- PREPARATION_TREAD's effect (R295, R300 to R308). -/
def Mod.prepare (m : Mod) : Mod :=
  if m.life ≠ .ready then m else
  let n := m.reset.first
  let d := m.decideOutcome
  let m := { (m.timeTo ((n - 1) / 100)) with tread := n - 1, life := .prepared }
  match (if d.1 = 2 then none else m.reset.restore) with
  | none =>
    let m := ((m.coldStart n).regroup).outcomeObjects 2 d.2.2 0 n 0 []
    { m with reset := { m.reset with outcome := 2, off := false }, field := { m.field with built := some m.buildImage } }
  | some r =>
    let rep := m.reported
    let base := ((m.load_ r).rejoin n).regroup
    let before := { base with tracks := base.tracks.map fun (p : Nat × TrackSt) => (p.1, p.2.settled) }
    let m := (base.outcomeState d.1 d.2.1 r n).axisParts
    let diff := if d.1 = 0 then m.differing r.saved.image rep else []
    let m := m.outcomeObjects d.1 d.2.2 r.tread n (n - r.tread - 1) diff
    { m with reset := { m.reset with outcome := d.1, off := d.2.1, diff := diff.head?.map fun x => (diff.length, x) },
             field := { m.field with built := some (before.outcomeImage m d.1 r.saved.image n) } }

/-! ### Boundaries in service and at the return -/

/-- What boundary N announces (R283, R305, R308, R341): on every association of the hall, that of a CAN port too, for which
the spec gives the message no frame (log entry 124). -/
def Mod.announceReset (m : Mod) : Mod :=
  if m.reset.report.isNone then m else
  let out := m.reset.outcome
  let r := m.rov 0x1400 4
  let g := m.rov 0x1400 6
  let m := if out = 2 then m else
    overAll m.hall (fun (m : Mod) p =>
      m.notify p.1 1 ([out, 0, 0, 0, 0, 0, 0, 0] ++ leBytes 8 r ++ leBytes 8 m.tread ++ leBytes 4 g ++ [0, 0, 0, 0])) m
  let m := match m.reset.diff with
    | some x => m.logGal 0x012 0 [x.1, x.2]
    | none => m
  m.logS4 11 out (r % 2 ^ 32) (r / 2 ^ 32 % 2 ^ 32) g

/-- The record of a bring-up once the first resumed tread has run (R380). -/
def Mod.recordReset (m : Mod) : Mod :=
  if m.reset.report.isNone then m else
  let m := m.logGal 0x001 0 ([m.rov 0x1400 1, m.reset.outcome] ++ treadWords (m.rov 0x1400 4) ++ treadWords m.tread)
  m.setReset { m.reset with report := none, restore := none, por := false, diff := none }

/-- A boundary with its announcement, latch and evaluation; none where the module leaves service at it (R288, R391). -/
def Mod.runBoundary (m : Mod) (i : TreadIn) (n : Tread) : Mod :=
  let m := (m.boundary i n).announceReset
  let m := { m with life := .run }.commitRo
  let first := m.reset.report.isSome
  let m := if m.leaves then m else m.evaluation i
  if first && decide (m.life = .run) then m.recordReset else m

/-- The duty phases of the restored state, taken over at boundary `n` of a resumption (R296): an output whose period at the
restored tread still runs goes on as it was in it; another follows the period that the field side has begun since (log entry
127). -/
def Mod.takePhases (m : Mod) (n : Tread) : Mod :=
  match m.reset.report, m.reset.restore with
  | some _, some r =>
    if m.reset.outcome ≠ 0 then m else
    let runs := fun (o : Nat) => let p := Max.max 1 (m.cfg (0x3400 + o) 4)
      decide ((r.tread - m.time.shift) / p = (n - m.time.shift) / p)
    { m with field := { m.field with dutyOn := ofBits ((List.range 192).filter fun o =>
        if runs o then tb r.saved.duty o else tb m.field.dutyOn o) } }
  | _, _ => m

/-- The capture unit wakes at boundary `n`: no pre part reaches back before it (R280). -/
def Mod.bufferFrom (m : Mod) (n : Tread) : Mod := m.setRecord { m.record with bufSince := n }

/-- TREAD_BOUNDARY's effect (R11): the tread ends and the next one begins. A module that leaves service at the present
boundary runs no further one. -/
def Mod.treadBoundary (m : Mod) (i : TreadIn) : Mod :=
  match m.life with
  | .run => if m.leaves then m else m.fillSnaps.closeTread.runBoundary i m.nextTread
  | .prepared =>
    ((((m.newMaps (m.tread + 1)).bufferFrom (m.tread + 1)).openStreams (m.tread + 1)).takeMaps.takePhases (m.tread + 1)).runBoundary
      i (m.tread + 1)
  | _ => m

end Sys2Proof.Machine
end

