-- ==== Sys2Proof/Machine/Request.lean ====
section
/-! DEFINITION. How a command acts on the block: on the module as a whole, in service only, or as a partner's write of
one object. The meanings of the families are written over these. -/

namespace Sys2Proof.Machine

/-- What a command answers. -/
abbrev Res := Host.Outcome State Fault Refusal

/-- A command's effect on the module. -/
def State.on (s : State) (f : Mod → Mod) : Res := .next { s with m := f s.m }

/-- A command that the module takes in service only; at any other time it has no effect. -/
def State.inService (s : State) (f : Mod → Mod) : Res := s.on fun m => if m.serving then f m else m

/-- A command that needs supply. -/
def State.supplied (s : State) (f : Mod → Mod) : Res := s.on fun m => if m.life = .off then m else f m

/-- A partner's write of one object of fixed size: a transaction of one entry (R31). -/
def Mod.writeObject (m : Mod) (h : Hdr) (idx sub v : Nat) : Mod :=
  let len := match place idx sub with
    | some p => sizeOf_ p
    | none => 0
  m.write1 h idx sub len (v % 256 ^ len)

/-- The same where `ok` says that the command's number names a member of its family; otherwise there is no such object
and no such command. -/
def State.writes (s : State) (ok : Bool) (h : Hdr) (idx sub v : Nat) : Res :=
  s.on fun m => if ok then m.writeObject h idx sub v else m

end Sys2Proof.Machine
end

