-- ==== Sys2Proof/Machine/Analog.lean ====
section
/-! DEFINITION. Meanings of the analog inputs (07) and of the analog outputs' readback (08). -/

namespace Sys2Proof.Machine

/-- RESULT_LANDS (R163, R168). -/
def execResultLands (c slot : Nat) (injected : Bool) (code : Int) (cycles : Nat) (off : Offset) (s : State) : Res :=
  s.inService fun m => m.resultLands c slot injected code cycles off

/-- Whether a source fires a converter's injected sequence (R164): a trigger input that its mask and edge name, an
acquisition trigger that it names and that has fired in this tread. INJECT fires as its action runs. -/
def Mod.firingMeets (m : Mod) (c source : Nat) (falling : Bool) : Bool :=
  if source < 4 then
    tb (m.inForce (0x3140 + c) 0x17) source &&
    (match m.inForce (0x3140 + c) 0x19 with
     | 0 => !falling
     | 1 => falling
     | _ => true)
  else decide (16 ≤ source ∧ source < 24) && decide (m.inForce (0x3140 + c) 0x18 = source - 16) &&
    decide ((m.trig (source - 16)).fired = some m.tread)

/-- INJECTED_FIRING (R164 to R167); an edge of a trigger input is recorded with it (R265). -/
def execInjectedFiring (c source : Nat) (falling : Bool) (off : Offset) (s : State) : Res :=
  s.inService fun m =>
    let m := if source < 4 then m.trgEdge source falling else m
    if c < 64 ∧ m.firingMeets c source falling then m.fire c off else m

/-- INJECTED_DEFERRED_START (R166): a firing deferred from the last tread starts at 0.5 us, cycle 32. -/
def execInjectedDeferredStart (c : Nat) (s : State) : Res :=
  s.inService fun m =>
    if (m.conv c).inj = 4 ∧ m.tileAwake c ∧ !m.convCal c then m.setConv c ((m.conv c).inject 32 (m.injLen c)) else m

/-- AVERAGE_WINDOW_COMPLETE (R169). -/
def execAverageWindowComplete (x : Nat) (s : State) : Res :=
  s.inService fun m => if x < 256 then m.closeDue x else m

/-- SKEW_CALIBRATION (R175). -/
def execSkewCalibration (h : Hdr) (s : State) : Res := s.writes true h 0x3190 1 1
/-- SKEW_CALIBRATION_END (R174, R175); the grants of a lost holder end with it (R404). -/
def execSkewCalibrationEnd (trims : List (Nat × Nat)) (residuals : List (Nat × Int)) (s : State) : Res :=
  s.inService fun m => (m.endSkew trims residuals).freeLost
/-- CALIBRATE (R180). -/
def execCalibrate (h : Hdr) (c : Nat) (s : State) : Res := s.writes (decide (c < 64)) h (0x3100 + c) 9 1
/-- CALIBRATION_END (R181); the grants of a lost holder end with it (R404). -/
def execCalibrationEnd (c : Nat) (pass : Bool) (coeffs : List (Nat × Nat × Nat)) (s : State) : Res :=
  s.inService fun m => (m.endCal c pass coeffs).freeLost
/-- BACKGROUND_CHECK (R177 to R179). -/
def execBackgroundCheck (c : Nat) (code : Option Int) (s : State) : Res := s.inService fun m => m.check c code
/-- OPEN_WIRE_SCAN (R176). -/
def execOpenWireScan (tile : Nat) (code : Int) (s : State) : Res := s.inService fun m => m.scan tile code
/-- AO_READBACK (R187). -/
def execAoReadback (g v : Nat) (s : State) : Res := s.inService fun m => m.aoReadback g v

end Sys2Proof.Machine
end

