-- ==== Sys2Proof/Machine/Association.lean ====
section
/-! DEFINITION. Meanings of the link (02, 13): transactions, associations, images, the switch and its ring. -/

namespace Sys2Proof.Machine

/-- TRANSACT (R31, R318 to R320). -/
def execTransact (f : Frame) (s : State) : Res := s.on fun m => m.transact f
/-- READ_SERVICE (R42). -/
def execReadService (a seq : Nat) (s : State) : Res := s.inService fun m => m.readService a seq
/-- READ_SERVICE_END (R43, R46). -/
def execReadServiceEnd (a seq : Nat) (delivered : Bool) (s : State) : Res :=
  s.inService fun m => m.readServiceEnd a seq delivered
/-- JOURNALLED_REPLY (R52). -/
def execJournalledReply (a seq : Nat) (s : State) : Res := s.inService fun m => m.journalledReply a seq
/-- SEGMENT_DISCARD (R318). -/
def execSegmentDiscard (a : Nat) (s : State) : Res := s.inService fun m => m.segmentDiscard a
/-- SEQUENCE_GAP (R320): a sequence number that is still missing is skipped, at most as far as the window reaches. -/
def execSequenceGap (a : Nat) (s : State) (off : Offset := 0) : Res := s.inService fun m => m.sequenceGap a off 1023
/-- HELLO (R321). -/
def execHello (src : Src) (s : State) (hd : FrameHead := {}) : Res := s.on fun m => m.ask (.hello src hd)
/-- HELLO_ANNOUNCE (R321). -/
def execHelloAnnounce (s : State) : Res := s.inService fun m => m.helloAnnounce
/-- NEGOTIATE (R322, R323). -/
def execNegotiate (src : Src) (r : NegReq) (s : State) (hd : FrameHead := {}) : Res :=
  s.on fun m => m.ask (.negotiate src r hd)
/-- RESERVATION_LAPSE (R323). -/
def execReservationLapse (k : Nat) (s : State) : Res := s.inService fun m => m.lapseOne k
/-- ASSOCIATE (R325, R327). -/
def execAssociate (src : Src) (r : AssocReq) (s : State) (hd : FrameHead := {}) : Res :=
  s.on fun m => m.ask (.associate src r hd)
/-- IMAGE (R334). -/
def execImage (f : Frame) (s : State) : Res := s.on fun m => m.imageFrame f
/-- IMAGE_SEND (R47, R333). -/
def execImageSend (k : Nat) (late : Bool) (s : State) : Res := s.inService fun m => m.imageSend k late
/-- HEARTBEAT (R337, R338). -/
def execHeartbeat (f : Frame) (s : State) : Res := s.on fun m => m.heartbeatFrame f
/-- ASSOCIATION_LOST (R338). -/
def execAssociationLost (a : Nat) (off : Offset) (s : State) : Res := s.on fun m => m.declareLost a off
/-- BYE (R55, R340). -/
def execBye (f : Frame) (s : State) : Res := s.on fun m => m.byeFrame f
/-- EVICT (R340). -/
def execEvict (h : Hdr) (k : Nat) (s : State) : Res := s.writes true h 0x1100 0xD k
/-- MAP_ENABLE (R332). -/
def execMapEnable (h : Hdr) (k : Nat) (s : State) : Res := s.writes (decide (k < 64)) h (0x6000 + k) 6 1
/-- RING_OPEN (R313). -/
def execRingOpen (s : State) : Res := s.inService fun m => m.ringOpens
/-- RING_CLOSED (R313). -/
def execRingClosed (s : State) : Res := s.inService fun m => m.ringCloses
/-- SWITCH_FRAME (R311 to R313, R350). -/
def execSwitchFrame (f : SwFrame) (s : State) : Res := s.on fun m => m.switchFrame f
/-- ADDRESS_AGE_OUT (R312). -/
def execAddressAgeOut (mac : Nat) (s : State) : Res := s.inService fun m => m.ageOut mac
/-- ARP_REQUEST (R274, R314). -/
def execArpRequest (port ip mac : Nat) (s : State) : Res := s.on fun m => m.arp port ip mac
/-- PORT_LINK_STATE (R274, R311). -/
def execPortLinkState (port speed : Nat) (s : State) : Res := s.supplied fun m => m.portLink port speed
/-- REGISTER_WRITE (R413): any object, under its access code. -/
def execRegisterWrite (h : Hdr) (e : Entry) (s : State) : Res := s.on fun m => m.partner h true [e]

end Sys2Proof.Machine
end

