-- ==== Sys2Proof/Machine/AxisSide.lean ====
section
/-! DEFINITION. Meanings of the axes and axis links (10). -/

namespace Sys2Proof.Machine

/-- STAGE_RETURN (R234, R235, R244, R252). -/
def execStageReturn (a : Nat) (ret : Option Nat) (s : State) : Res := s.inService fun m => m.stageReturn a ret
/-- PLAN_COMPLETE (R240). -/
def execPlanComplete (a : Nat) (s : State) : Res := s.inService fun m => m.planComplete a
/-- HOLD_DELAY_EXPIRY (R238). -/
def execHoldDelayExpiry (a : Nat) (s : State) : Res := s.inService fun m => m.holdDelay a

/-- A partner's write of an object of axis `a`. -/
def State.axisWrite (s : State) (h : Hdr) (a sub v : Nat) : Res := s.writes (decide (a < 32)) h (0x3600 + a) sub v

/-- AXIS_MOVE (R239): the kind in bits 31..0, the target in bits 63..32. -/
def execAxisMove (h : Hdr) (a kind target : Nat) (s : State) : Res :=
  s.axisWrite h a 0x16 (kind % 2 ^ 32 + 2 ^ 32 * (target % 2 ^ 32))
/-- AXIS_STOP (R243). -/
def execAxisStop (h : Hdr) (a : Nat) (s : State) : Res := s.axisWrite h a 0x17 1
/-- AXIS_ENABLE (R246). -/
def execAxisEnable (h : Hdr) (a v : Nat) (s : State) : Res := s.axisWrite h a 1 v
/-- FAULT_CLEAR (R246). -/
def execFaultClear (h : Hdr) (a : Nat) (s : State) : Res := s.axisWrite h a 0x1C 1
/-- RE_REFERENCE (R246). -/
def execReReference (h : Hdr) (a : Nat) (s : State) : Res := s.axisWrite h a 0x1C 2
/-- SET_POSITION (R247). -/
def execSetPosition (h : Hdr) (a v : Nat) (s : State) : Res := s.axisWrite h a 0x20 v

end Sys2Proof.Machine
end

