-- ==== Sys2Proof/Machine/CanBus.lean ====
section
/-! DEFINITION. Meanings of the CAN FD ports (15). -/

namespace Sys2Proof.Machine

/-- A partner's write of an object of port `p`. -/
def State.portWrite (s : State) (h : Hdr) (p sub v : Nat) : Res := s.writes (decide (p < 2)) h (0x3780 + p) sub v

/-- CAN_ENABLE (R359). -/
def execCanEnable (h : Hdr) (p : Nat) (s : State) : Res := s.portWrite h p 1 1
/-- CAN_DISABLE (R359). -/
def execCanDisable (h : Hdr) (p : Nat) (s : State) : Res := s.portWrite h p 1 0
/-- CAN_FRAME_RECEIVED (R362, R371). -/
def execCanFrameReceived (p : Nat) (f : CanFrame) (s : State) : Res := s.inService fun m => m.canReceive p f
/-- STALE (R363). -/
def execStale (p k : Nat) (s : State) : Res := s.inService fun m => if p < 2 ∧ k < 128 then m.goStale (k + 128 * p) else m
/-- CAN_SEND (R365). -/
def execCanSend (h : Hdr) (p k : Nat) (s : State) : Res :=
  s.writes (decide (p < 2 ∧ k < 128)) h (0x3700 + k) (9 + 16 * p) 1
/-- PERIODIC_SEND (R365). -/
def execPeriodicSend (p k : Nat) (s : State) : Res :=
  s.inService fun m => if p < 2 ∧ k < 128 then m.periodicSend (k + 128 * p) else m
/-- TRANSMISSION_COMPLETE (R367). -/
def execTransmissionComplete (p : Nat) (s : State) (began : Nat := 0) : Res := s.inService fun m => m.sent p began
/-- TRANSMISSION_ERROR (R367 to R369). -/
def execTransmissionError (p : Nat) (arbitration : Bool) (s : State) (ack : Bool := false) (began : Nat := 0) : Res :=
  s.inService fun m => m.sendError p arbitration ack began
/-- RECOVER (R370). -/
def execRecover (h : Hdr) (p : Nat) (s : State) : Res := s.portWrite h p 6 1
/-- RECOVERY_COMPLETE (R370). -/
def execRecoveryComplete (p sequences : Nat) (s : State) : Res := s.inService fun m => m.recovered p sequences
/-- QUEUE_WINDOW_READ (R372). -/
def execQueueWindowRead (h : Hdr) (p : Nat) (s : State) : Res := s.inService fun m => if p < 2 then m.queueRead h p else m
/-- QUEUE_ACKNOWLEDGE (R372). -/
def execQueueAcknowledge (h : Hdr) (p seq : Nat) (s : State) : Res := s.portWrite h p 0x11 seq
/-- ACCESS_SERVICE_ENABLE (R373). -/
def execAccessServiceEnable (h : Hdr) (p v : Nat) (s : State) : Res := s.portWrite h p 0xD v
/-- ACCESS_REQUEST (R373, R374). -/
def execAccessRequest (p : Nat) (f : CanFrame) (off : Offset) (s : State) : Res :=
  s.inService fun m => m.accessRequest p f off
/-- BUS_INTEGRATION_COMPLETE (R359). -/
def execBusIntegrationComplete (p : Nat) (s : State) : Res := s.inService fun m => m.integrated p
/-- CAN_RECEIVE_ERROR (R357, R368). -/
def execCanReceiveError (p : Nat) (dominant : Bool) (s : State) : Res := s.inService fun m => m.receiveError p dominant

end Sys2Proof.Machine
end

