-- ==== Sys2Proof/Machine/Clock.lean ====
section
/-! DEFINITION. Meanings of the timebase and its outputs (14). -/

namespace Sys2Proof.Machine

/-- SET_TIME (R345). -/
def execSetTime (h : Hdr) (ns : Nat) (s : State) : Res := s.writes true h 0x1300 0x11 ns
/-- SYNC (R345, R346, R351, R352). -/
def execSync (i : SyncIn) (s : State) : Res := s.inService fun m => m.sync i
/-- ANNOUNCE (R351). -/
def execAnnounce (i : AnnounceIn) (s : State) : Res := s.inService fun m => m.announce i
/-- MASTER_LOST (R351, R353). -/
def execMasterLost (s : State) : Res := s.inService fun m => m.masterLost
/-- FOLLOW_UP_TIMEOUT (R350). -/
def execFollowUpTimeout (ptpId : Nat) (s : State) : Res := s.inService fun m => m.followUpTimeout ptpId
/-- REFIN_LOSS (R347). -/
def execRefinLoss (s : State) : Res := s.supplied fun m => m.refLoss
/-- REFIN_RETURN (R347). -/
def execRefinReturn (s : State) : Res := s.supplied fun m => m.refReturn
/-- TPO_ARM (R355). -/
def execTpoArm (h : Hdr) (k : Nat) (s : State) : Res := s.writes (decide (k < 16)) h (0x1340 + k) 6 1
/-- TPO_DISARM (R355). -/
def execTpoDisarm (h : Hdr) (k : Nat) (s : State) : Res := s.writes (decide (k < 16)) h (0x1340 + k) 6 0
/-- TPO_PULSE (R354, R355). -/
def execTpoPulse (k : Nat) (s : State) : Res := s.inService fun m => m.tpoPulse k
/-- TPO_PULSE_END (R354). -/
def execTpoPulseEnd (k : Nat) (s : State) : Res := s.inService fun m => m.tpoEnd k

end Sys2Proof.Machine
end

