-- ==== Sys2Proof/Machine/Control.lean ====
section
/-! DEFINITION. Meanings of the loop engine, set-point profiles and learning (05, 06). -/

namespace Sys2Proof.Machine

/-- LOOP_MODE_WRITE (R122, R123). -/
def execLoopModeWrite (h : Hdr) (j mode : Nat) (s : State) : Res := s.writes (decide (j < 512)) h (0x2200 + j) 1 mode
/-- SCHEDULE_WRITE (R119). -/
def execScheduleWrite (h : Hdr) (j v : Nat) (s : State) : Res := s.writes (decide (j < 512)) h (0x2200 + j) 0xE v
/-- DESTINATION_WRITE (R128). -/
def execDestinationWrite (h : Hdr) (j : Nat) (sig : Sig) (s : State) : Res :=
  s.writes (decide (j < 512)) h (0x2200 + j) 0x11 sig
/-- COEFFICIENT_WRITE (R130, R131): bank 0 A, 1 B. -/
def execCoefficientWrite (h : Hdr) (bank j sub v : Nat) (s : State) : Res :=
  s.writes (decide (j < 512 ∧ bank < 2 ∧ 1 ≤ sub ∧ sub ≤ 0x17)) h (0x2400 + 0x200 * bank + j) sub v
/-- BANK_IN_USE_WRITE (R48, R131). -/
def execBankInUseWrite (h : Hdr) (j b : Nat) (s : State) : Res := s.writes (decide (j < 512)) h (0x2200 + j) 0xD b
/-- JUMP (R147). -/
def execJump (h : Hdr) (j v : Nat) (s : State) : Res := s.writes (decide (j < 512)) h (0x2800 + j) 9 v
/-- REPETITIVE_ENABLE (R150, R156). -/
def execRepetitiveEnable (h : Hdr) (j v : Nat) (s : State) : Res := s.writes (decide (j < 512)) h (0x2A00 + j) 1 v
/-- CLEAR_TABLE (R157). -/
def execClearTable (h : Hdr) (j : Nat) (s : State) : Res := s.writes (decide (j < 512)) h (0x2A00 + j) 0x12 1
/-- TABLE_WINDOW_WRITE (R157): 256 bytes. -/
def execTableWindowWrite (h : Hdr) (j : Nat) (data : Raw) (s : State) : Res :=
  s.writes (decide (j < 512)) h (0x2A00 + j) 0x14 data
/-- LOCK_TIMEOUT (R153). -/
def execLockTimeout (j : Nat) (s : State) : Res := s.inService fun m => m.lockTimeout j
/-- RETURN_TO_SERVICE (R140). -/
def execReturnToService (h : Hdr) (pair : Nat) (s : State) : Res := s.writes true h 0x2000 0xE pair

end Sys2Proof.Machine
end

