-- ==== Sys2Proof/Machine/FieldSide.lean ====
section
/-! DEFINITION. Meanings of field digital I/O and its link (08). What the field side does by itself needs the power of
the field side only (R203, R205, R207). -/

namespace Sys2Proof.Machine

/-- A command's effect while the field side is powered. -/
def State.fielded (s : State) (f : Mod → Mod) : Res := s.on fun m => if m.field.powered then f m else m

/-- DEBOUNCE_CHANGE (R188). -/
def execDebounceChange (i : Nat) (x : DiIn) (s : State) : Res := s.fielded fun m => m.debounceTo i x.level x.samples

/-- A duty output's period starts, or its on time is over, `k` treads after the last boundary (R192); not on the fall-back
path (R194). While the logic side is in reset the field side keeps cycling by itself (R203). -/
def Mod.dutyStart (m : Mod) (o k : Nat) : Mod :=
  let p := Max.max 1 (m.cfg (0x3400 + o) 4)
  let at_ := (m.phaseTread + if m.life = .run then 0 else k) % p
  let n := dutyCount (lookD m.field.image.duty o 0) p
  if 192 ≤ o ∨ !m.isDuty o ∨ m.field.fallOut ∨ !tb m.field.image.dos o then m
  else if at_ = 0 then { m with field := { m.field with dutyOn := setBit m.field.dutyOn o (decide (0 < n)) } }.setLevels
  else if n ≤ at_ then { m with field := { m.field with dutyOn := setBit m.field.dutyOn o false } }.setLevels
  else m
/-- DUTY_PERIOD_START (R192). -/
def execDutyPeriodStart (x : DutyIn) (s : State) : Res := s.fielded fun m => m.dutyStart x.o x.treads

/-- FALLBACK_SWITCH (R193, R194). -/
def execFallbackSwitch (side : Nat) (s : State) : Res := s.fielded fun m => m.fallback side
/-- MAIN_PATH_RETURN (R195). -/
def execMainPathReturn (side : Nat) (s : State) : Res := s.fielded fun m => m.mainReturn side

/-- HOLD_WINDOW_EXPIRY (R203, R204, R223). -/
def execHoldWindowExpiry (ms : Nat) (s : State) : Res :=
  s.fielded fun m => if m.holdOver ms then (m.holdExpiry ms).logicLoss else m

/-- SUPPLY_SAG (R197). -/
def execSupplySag (b : Nat) (s : State) : Res := s.fielded fun m => m.sag b
/-- SUPPLY_QUALIFIED (R196, R197). -/
def execSupplyQualified (b : Nat) (s : State) : Res := s.fielded fun m => m.qualified b
/-- BANK_SUPPLY_LOW (R196, R197): VBb crosses 19.2 V, downwards or back up. -/
def execBankSupplyLow (b : Nat) (s : State) (back : Bool := false) : Res :=
  s.fielded fun m => if back then m.supplyBack b else m.supplyLow b
/-- SWITCH_OVERTEMPERATURE (R196). -/
def execSwitchOvertemperature (o : Nat) (s : State) : Res := s.fielded fun m => m.overTemp o
/-- SWITCH_COOLED (R196). -/
def execSwitchCooled (o : Nat) (s : State) : Res := s.fielded fun m => m.cooledDown o
/-- BANK_ENABLE (R197). -/
def execBankEnable (h : Hdr) (b v : Nat) (s : State) : Res := s.writes (decide (b < 6)) h (0x34C0 + b) 2 v
/-- FAULT_ACKNOWLEDGE (R196). -/
def execFaultAcknowledge (h : Hdr) (b : Nat) (s : State) : Res := s.writes (decide (b < 6)) h (0x34C0 + b) 0xA 1
/-- DARK_TEST_START (R200). -/
def execDarkTestStart (b : Nat) (s : State) : Res := s.fielded fun m => if b < 6 then m.darkStart b else m
/-- DARK_TEST_END (R200, R201). -/
def execDarkTestEnd (b readback : Nat) (s : State) : Res := s.fielded fun m => m.darkEnd b readback
/-- SAF_IMAGE_REPEAT (R392). -/
def execSafImageRepeat (s : State) : Res := s.fielded fun m => m.repeatImage
/-- HOLD_UP_EXHAUSTED (R205, R307). -/
def execHoldUpExhausted (s : State) : Res := s.on fun m => m.powerOff

end Sys2Proof.Machine
end

