-- ==== Sys2Proof/Machine/RecordSide.lean ====
section
/-! DEFINITION. Meanings of recording and capture (11). -/

namespace Sys2Proof.Machine

/-- BLOCK_CLOSE (R260). -/
def execBlockClose (k : Nat) (s : State) : Res := s.inService fun m => m.blockClose k
/-- RING_WRITE (R256, R261). -/
def execRingWrite (k : Nat) (s : State) : Res := s.inService fun m => m.ringWrite k
/-- CHAIN_PACKET (R271, R272): a packet of the writer of stream 2 or 4, of at most 1 024 bytes, enters its chain; the last word
carries `tail` bytes, 1 to 4. -/
def execChainPacket (k : Nat) (words : List Nat) (s : State) (tail : Nat := 4) : Res :=
  s.inService fun m => if (k = 2 ∨ k = 4) ∧ words.length ≤ 256 ∧ 1 ≤ tail ∧ tail ≤ 4 then m.chainPut k words tail else m
/-- DP_SEND (R276). -/
def execDpSend (s : State) : Res := s.inService fun m => m.dpSend
/-- DP_STATUS (R275). -/
def execDpStatus (s : State) : Res := s.inService fun m => m.dpStatus
/-- PAUSE_FRAME (R274). -/
def execPauseFrame (quanta : Nat) (s : State) : Res := s.inService fun m => m.pauseFrame quanta
/-- TRIGGER_FIRE (R278 to R281). -/
def execTriggerFire (k : Nat) (off : Offset) (raw : Option Int) (falling : Bool) (s : State) : Res :=
  s.inService fun m => m.triggerFire k off raw falling
/-- TRIGGER_ARM (R279). -/
def execTriggerArm (h : Hdr) (k v : Nat) (s : State) : Res := s.writes (decide (k < 8)) h (0x3840 + k) 0xE v
/-- HOLD_OFF_END (R279). -/
def execHoldOffEnd (k : Nat) (s : State) : Res := s.inService fun m => if k < 8 then m.holdOffEnd k else m
/-- CAPTURE_WINDOW_CLOSE (R280). -/
def execCaptureWindowClose (k : Nat) (s : State) : Res := s.inService fun m => m.windowClose k

end Sys2Proof.Machine
end

