-- ==== Sys2Proof/Machine/Resets.lean ====
section
/-! DEFINITION. Meanings of the resets, the bring-up, per-block resets and supply failures (12, 17). -/

namespace Sys2Proof.Machine

/-- POWER_ON_RESET (R284, R291). -/
def execPowerOnReset (straps : Straps) (stored : SafetyStored) (s : State) : Res :=
  s.on fun m => m.powerOn straps.bootsel straps.clkmode stored.activeOk stored.pendingOk
/-- BROWNOUT (R284, R309). -/
def execBrownout (ns : Nat) (s : State) (us : Nat := 0) : Res := s.on fun m => m.brownout ns us
/-- RESET_N (R285). -/
def execResetN (samples : Nat) (s : State) : Res := s.on fun m => m.resetPin samples
/-- FABRIC_WATCHDOG (R284). -/
def execFabricWatchdog (late : Nat) (s : State) : Res := s.inService fun m => m.watchdog late
/-- SOFTWARE_FULL_RESET (R287, R288). -/
def execSoftwareFullReset (h : Hdr) (flag : Nat) (s : State) : Res := s.writes true h 0x1401 1 flag
/-- REMOTE_RESET (R287, R288). -/
def execRemoteReset (h : Hdr) (flag : Nat) (s : State) : Res := s.writes true h 0x1402 1 flag
/-- REQUESTED_RESET_HOLD (R288). -/
def execRequestedResetHold (s : State) : Res := s.inService fun m => m.requestedHold
/-- RESET_RELEASE (R291 to R294). -/
def execResetRelease (b : BringUp) (s : State) : Res := s.on fun m => m.resetRelease b
/-- FIRMWARE_OVER_P3 (R293). -/
def execFirmwareOverP3 (signed : Bool) (b : BringUp) (s : State) : Res := s.on fun m => m.firmwareP3 signed b
/-- PREPARATION_TREAD (R295, R300 to R306). -/
def execPreparationTread (s : State) : Res := s.on fun m => m.prepare
/-- HOUSEKEEPING_WATCHDOG (R285) at a moment of the tread: a per-block reset of the housekeeping processor, wherever it
runs. -/
def execHousekeepingWatchdog (s : State) (off : Offset := 0) : Res :=
  s.on fun m => if !m.switching ∨ m.blockIn 16 then m else (m.enterBlock 16).refuseIsolated (m.sealedTo off)
/-- BLOCK_RESET (R289). -/
def execBlockReset (h : Hdr) (mask : Nat) (s : State) : Res := s.writes true h 0x1410 1 mask
/-- BLOCK_RESET_END (R290): a block in reset leaves it; frames that have waited for the association service are served. -/
def execBlockResetEnd (bit : Nat) (s : State) : Res :=
  s.inService fun m => if bit < 18 ∧ m.blockIn bit then (m.leaveBlock bit).serveAsks else m
/-- PFAIL_FALL (R309). -/
def execPfailFall (us : Nat) (s : State) : Res := s.supplied fun m => m.pfailFall us
/-- PFAIL_RISE (R309). -/
def execPfailRise (us : Nat) (s : State) : Res := s.supplied fun m => m.pfailRise us
/-- VHU_CHARGED (R386): bit 1 of the power status ends. -/
def execVhuCharged (s : State) : Res := s.supplied fun m => m.setRo 0x1400 0x2F (setBit (m.rov 0x1400 0x2F) 1 false)
/-- PLL_LOCK_LOSS (R398): while the fast clocks run. -/
def execPllLockLoss (domain : Nat) (s : State) (more : Nat := 0) : Res :=
  s.on fun m => if m.switching then m.pllLoss domain more else m

end Sys2Proof.Machine
end

