-- ==== Sys2Proof/Machine/Rhythm.lean ====
section
/-! DEFINITION. Meanings of the module's rhythm (01, 05, 12): treads, flights, checkpoints, tiles and engine pairs. -/

namespace Sys2Proof.Machine

/-- TREAD_BOUNDARY (R11, R12, R39): the tread ends, the boundary commits, the next tread is evaluated. -/
def execTreadBoundary (i : TreadIn) (s : State) : Res := s.on fun m => m.treadBoundary i

/-- RESYNCHRONISATION_COMPLETE (R138, R140). -/
def execResynchronisationComplete (pair : Nat) (ok : Bool) (s : State) : Res := s.inService fun m => m.resyncEnd pair ok

/-- FLIGHT_BOUNDARY (R17). -/
def execFlightBoundary (i : FlightIn) (s : State) : Res := s.on fun m => m.flight i

/-- CHECKPOINT_COMPLETE (R17, R296). -/
def execCheckpointComplete (s : State) : Res := s.inService fun m => m.completeCheckpoint

/-- TILE_WAKE_COMPLETE (R21, R183). -/
def execTileWakeComplete (tile : Nat) (s : State) : Res := s.inService fun m => m.wakeTile tile

/-- CONFIGURATION_COPY_WRITE (R298). -/
def execConfigurationCopyWrite (s : State) : Res := s.inService fun m => m.writeCopy

/-- LATE_WAKE (R22): an entry that meets a gated tile waits and is counted; it goes on once every named tile is awake. -/
def execLateWake (t : Nat) (s : State) : Res := s.inService fun m => (m.wokenEntry t).lateWake t

end Sys2Proof.Machine
end

