-- ==== Sys2Proof/Machine/SafetySide.lean ====
section
/-! DEFINITION. Meanings of the safety channels (09). The safety domain runs on through logic resets and standby. -/

namespace Sys2Proof.Machine

/-- SAFETY_CYCLE (R208, R210, R343). -/
def execSafetyCycle (i : SafetyIn) (s : State) : Res := s.supplied fun m => m.safetyCycle i
/-- CLOCK_MONITOR_TRIP (R210). -/
def execClockMonitorTrip (s : State) : Res := s.supplied fun m => m.safeStop
/-- SAFETY_DEBOUNCE (R216). -/
def execSafetyDebounce (k ch : Nat) (s : State) : Res := s.supplied fun m => m.safetyDebounce k ch
/-- DISCREPANCY_FAULT (R217). -/
def execDiscrepancyFault (k : Nat) (s : State) : Res := s.supplied fun m => m.discrepancyFault k
/-- OFF_DELAY_EXPIRY (R219). -/
def execOffDelayExpiry (p : Nat) (s : State) : Res := s.supplied fun m => m.offDelayExpiry p
/-- SAFE_OUTPUT_DARK_TEST (R224, R225, R227). -/
def execSafeOutputDarkTest (p ch : Nat) (fell : Option Nat) (s : State) : Res := s.supplied fun m => m.safeDark p ch fell
/-- OUTPUT_FAILS_OFF (R225). -/
def execOutputFailsOff (p ch : Nat) (s : State) : Res := s.supplied fun m => m.failsOff p ch
/-- DEGRADED_WINDOW_EXPIRY (R226). -/
def execDegradedWindowExpiry (side k : Nat) (s : State) : Res := s.supplied fun m => m.windowExpiry side k
/-- SAFETY_CONFIG_WRITE (R211): an object of the safety configuration; any other object is written by REGISTER_WRITE. -/
def execSafetyConfigWrite (h : Hdr) (e : Entry) (s : State) : Res :=
  s.on fun m => if isSafetyCfg (okey 0 e.idx e.sub) then m.partner h true [e] else m
/-- RESET_ARM (R211). -/
def execResetArm (h : Hdr) (s : State) : Res := s.writes true h 0x3500 4 0xA5
/-- RESET_CONFIRM (R211, R212). -/
def execResetConfirm (h : Hdr) (v : Nat) (s : State) : Res := s.writes true h 0x3500 6 v
/-- ARM_TIMEOUT (R212). -/
def execArmTimeout (s : State) : Res := s.supplied fun m => m.armTimeout
/-- RESTART (R220). -/
def execRestart (h : Hdr) (p : Nat) (s : State) : Res := s.writes (decide (p < 8)) h (0x3530 + p) 9 1
/-- HOST_REQUEST (R221). -/
def execHostRequest (h : Hdr) (p v : Nat) (s : State) : Res := s.writes (decide (p < 8)) h (0x3530 + p) 0xA v
/-- FAULT_RESET (R227): of an input pair or an output pair. -/
def execFaultReset (h : Hdr) (side k : Nat) (s : State) : Res :=
  if side = 0 then s.writes (decide (k < 16)) h (0x3510 + k) 9 1
  else s.writes (decide (side = 1 ∧ k < 8)) h (0x3530 + k) 0xD 1
/-- SAFETY_DOMAIN_RUNNING (R212). -/
def execSafetyDomainRunning (s : State) : Res := s.supplied fun m => m.domainRuns
/-- KEEP_ALIVE_TIMEOUT (R343): ALIVE stops toggling. -/
def execKeepAliveTimeout (s : State) : Res :=
  s.supplied fun m => { m with safety := { m.safety with alive := false } }

end Sys2Proof.Machine
end

