-- ==== Sys2Proof/Machine/Stairs.lean ====
section
/-! DEFINITION. Meanings of the stairwell (03, 04): step timing, track commands, loads, swap and patches. -/

namespace Sys2Proof.Machine

/-- STEP_DURATION_EXIT (R63). -/
def execStepDurationExit (t : Nat) (s : State) : Res := s.inService fun m => m.durationExit t
/-- STEP_TIMEOUT (R65, R66). -/
def execStepTimeout (t : Nat) (s : State) : Res := s.inService fun m => m.timeoutExit t
/-- WAIT_DWELL_END (R62). -/
def execWaitDwellEnd (t : Nat) (s : State) : Res := s.inService fun m => m.dwellEnd t
/-- SETTLE_TIME_REACHED (R60). -/
def execSettleTimeReached (t : Nat) (s : State) : Res := s.inService fun m => m.settleExit t
/-- DELAYED_ACTION (R67). -/
def execDelayedAction (t : Nat) (s : State) : Res := s.inService fun m => m.delayedNow t
/-- PULSE_DO_END (R67). -/
def execPulseDoEnd (o : Nat) (s : State) : Res := s.inService fun m => if o < 192 then m.pulseEnd o else m

/-- A track command (R79): its code and, for START, the entry point. -/
def Mod.trackCommand (m : Mod) (h : Hdr) (t code entry : Nat) : Mod :=
  if t < 16 then m.writeObject h (0x4000 + t) 1 (code + 256 * entry) else m

/-- START (R77, R86, R94). -/
def execStart (h : Hdr) (t entry : Nat) (s : State) : Res := s.on fun m => m.trackCommand h t 1 entry
/-- ABORT (R86, R87). -/
def execAbort (h : Hdr) (t : Nat) (s : State) : Res := s.on fun m => m.trackCommand h t 2 0
/-- FORCE_ABORT (R86). -/
def execForceAbort (h : Hdr) (t : Nat) (s : State) : Res := s.on fun m => m.trackCommand h t 3 0
/-- PAUSE (R78). -/
def execPause (h : Hdr) (t : Nat) (s : State) : Res := s.on fun m => m.trackCommand h t 4 0
/-- CONTINUE (R78). -/
def execContinueTrack (h : Hdr) (t : Nat) (s : State) : Res := s.on fun m => m.trackCommand h t 5 0
/-- CLEAR (R75, R86). -/
def execClear (h : Hdr) (t : Nat) (s : State) : Res := s.on fun m => m.trackCommand h t 6 0

/-- STAIRWELL_BEGIN (R98): load command 1. -/
def execStairwellBegin (h : Hdr) (s : State) : Res := s.writes true h 0x4021 7 1
/-- LOAD_OFFSET (R98). -/
def execLoadOffset (h : Hdr) (v : Nat) (s : State) : Res := s.writes true h 0x4021 4 v
/-- LOAD_DATA (R98): a chunk of `len` bytes. -/
def execLoadData (h : Hdr) (len : Nat) (data : Raw) (s : State) : Res :=
  s.on fun m => m.write1 h 0x4021 5 len (data % 256 ^ len)
/-- STAIRWELL_FINISH (R98): load command 2. -/
def execStairwellFinish (h : Hdr) (s : State) : Res := s.writes true h 0x4021 7 2
/-- STAIRWELL_CANCEL (R98): load command 3. -/
def execStairwellCancel (h : Hdr) (s : State) : Res := s.writes true h 0x4021 7 3
/-- VALIDATION_END (R99). -/
def execValidationEnd (s : State) : Res := s.inService fun m => m.validationEnd
/-- SWAP (R100, R101): the shadow image's ID. -/
def execSwap (h : Hdr) (v : Nat) (s : State) : Res := s.writes true h 0x4020 0xB v
/-- PATCH (R103 to R106): slots by subindex, selector and value, in one transaction. -/
def execPatch (h : Hdr) (slots : List (Nat × Nat × Nat)) (s : State) : Res :=
  s.on fun m => m.partner h true (slots.map fun x =>
    { idx := 0x4022, sub := x.1 % 256, len := 8, val := x.2.1 % 2 ^ 32 + 2 ^ 32 * (x.2.2 % 2 ^ 32) })

end Sys2Proof.Machine
end

