-- ==== Sys2Proof/Machine/Upkeep.lean ====
section
/-! DEFINITION. Meanings of the gallery (16), of power states and sleep (17), of tokens, the output pulse test and
firmware (18). -/

namespace Sys2Proof.Machine

/-- GALLERY_RECORD (R379 to R382). -/
def execGalleryRecord (s : State) : Res := s.inService fun m => m.fillSnaps.galleryRecord
/-- GALLERY_CLEAR (R384). -/
def execGalleryClear (h : Hdr) (s : State) : Res := s.writes true h 0x1500 9 0x5A
/-- GALLERY_CLEAR_END (R384). -/
def execGalleryClearEnd (s : State) : Res := s.inService fun m => m.galleryClearEnd (m.snapshot 2)

/-- POWER_REQUEST_RUN (R389). -/
def execPowerRequestRun (h : Hdr) (s : State) : Res := s.writes true h 0x1400 0x22 0
/-- POWER_REQUEST_IDLE (R389). -/
def execPowerRequestIdle (h : Hdr) (s : State) : Res := s.writes true h 0x1400 0x22 1
/-- POWER_REQUEST_STANDBY (R390). -/
def execPowerRequestStandby (h : Hdr) (s : State) : Res := s.writes true h 0x1400 0x22 2
/-- STANDBY_ENTRY (R391). -/
def execStandbyEntry (s : State) : Res := s.inService fun m => m.fillSnaps.standbyEntry
/-- WAKE_LINK_FRAME (R393): on a port of the wake port mask. -/
def execWakeLinkFrame (port : Nat) (addressed : Bool) (s : State) : Res :=
  s.on fun m => if addressed && tb (m.cfg 0x1400 0x24) port then m.wakeBy 1 port else m
/-- WAKE_DI_EDGE (R393): of a DI of the wake mask. -/
def execWakeDiEdge (i : Nat) (s : State) : Res :=
  s.on fun m => if i < 192 ∧ tb (m.cfg 0x1400 0x25) i then m.wakeBy 2 i else m
/-- WAKE_TIMED (R393). -/
def execWakeTimed (s : State) : Res := s.on fun m => m.wakeBy 3 0
/-- WAKE_COMPLETE (R394, R395). -/
def execWakeComplete (now : Tread) (s : State) : Res := s.on fun m => m.wakeComplete now

/-- TOKEN_REQUEST (R402): the resource mask in bits 31..0, the activity code above it. -/
def execTokenRequest (h : Hdr) (mask code : Nat) (s : State) : Res :=
  s.writes true h 0x1600 1 (mask % 2 ^ 32 + 2 ^ 32 * code)
/-- TOKEN_RELEASE (R404). -/
def execTokenRelease (h : Hdr) (slot : Nat) (s : State) : Res := s.writes true h 0x1600 2 slot
/-- PULSE_TEST (R405): the output in byte 0, the pulse length in bytes 2 and 3. -/
def execPulseTest (h : Hdr) (o us : Nat) (s : State) : Res := s.writes true h 0x1610 1 (o % 65536 + 65536 * us)
/-- PULSE_TEST_END (R405). -/
def execPulseTestEnd (before after : Nat) (s : State) : Res :=
  s.on fun m => if m.field.powered then m.endPulse before after else m

/-- FIRMWARE_BEGIN (R407). -/
def execFirmwareBegin (h : Hdr) (s : State) : Res := s.writes true h 0x1620 3 1
/-- FIRMWARE_OFFSET (R407). -/
def execFirmwareOffset (h : Hdr) (v : Nat) (s : State) : Res := s.writes true h 0x1620 4 v
/-- FIRMWARE_DATA (R407): a chunk of `len` bytes. -/
def execFirmwareData (h : Hdr) (len : Nat) (data : Raw) (s : State) : Res :=
  s.on fun m => m.write1 h 0x1620 5 len (data % 256 ^ len)
/-- FIRMWARE_FINISH (R407). -/
def execFirmwareFinish (h : Hdr) (s : State) : Res := s.writes true h 0x1620 3 2
/-- FIRMWARE_CANCEL (R407). -/
def execFirmwareCancel (h : Hdr) (s : State) : Res := s.writes true h 0x1620 3 3
/-- FIRMWARE_VERIFIED (R407). -/
def execFirmwareVerified (orderOk formatOk : Bool) (version : Nat) (s : State) : Res :=
  s.inService fun m => m.fwVerified orderOk formatOk version
/-- ACTIVATE (R408). -/
def execActivate (h : Hdr) (s : State) : Res := s.writes true h 0x1620 3 4
/-- CONFIRM (R408). -/
def execConfirm (h : Hdr) (s : State) : Res := s.writes true h 0x1620 3 5
/-- TRIAL_TIMEOUT (R408). -/
def execTrialTimeout (failedToStart : Bool) (s : State) (off : Offset := 0) : Res :=
  s.inService fun m => (m.trialTimeout failedToStart).refuseIsolated (m.sealedTo off)

end Sys2Proof.Machine
end

