-- ==== Sys2Proof/Machine/Dispatch.lean ====
section
/-! DEFINITION. The meaning of every command: one arm per row of the table, one direct call each. -/

namespace Sys2Proof.Machine

def exec (i : Instr) (s : State) : Host.Outcome State Fault Refusal :=
  match i with
  | .treadBoundary x => Sys2Proof.Machine.execTreadBoundary x s
  | .resynchronisationComplete pair ok => Sys2Proof.Machine.execResynchronisationComplete pair ok s
  | .flightBoundary x => Sys2Proof.Machine.execFlightBoundary x s
  | .checkpointComplete => Sys2Proof.Machine.execCheckpointComplete s
  | .tileWakeComplete tile => Sys2Proof.Machine.execTileWakeComplete tile s
  | .lateWake t => Sys2Proof.Machine.execLateWake t s
  | .stepDurationExit t => Sys2Proof.Machine.execStepDurationExit t s
  | .stepTimeout t => Sys2Proof.Machine.execStepTimeout t s
  | .waitDwellEnd t => Sys2Proof.Machine.execWaitDwellEnd t s
  | .settleTimeReached t => Sys2Proof.Machine.execSettleTimeReached t s
  | .delayedAction t => Sys2Proof.Machine.execDelayedAction t s
  | .pulseDoEnd o => Sys2Proof.Machine.execPulseDoEnd o s
  | .start h t entry => Sys2Proof.Machine.execStart h t entry s
  | .abort h t => Sys2Proof.Machine.execAbort h t s
  | .forceAbort h t => Sys2Proof.Machine.execForceAbort h t s
  | .pause h t => Sys2Proof.Machine.execPause h t s
  | .continueTrack h t => Sys2Proof.Machine.execContinueTrack h t s
  | .clear h t => Sys2Proof.Machine.execClear h t s
  | .transact f => Sys2Proof.Machine.execTransact f s
  | .readService a seq => Sys2Proof.Machine.execReadService a seq s
  | .readServiceEnd a seq delivered => Sys2Proof.Machine.execReadServiceEnd a seq delivered s
  | .journalledReply a seq => Sys2Proof.Machine.execJournalledReply a seq s
  | .segmentDiscard a => Sys2Proof.Machine.execSegmentDiscard a s
  | .sequenceGap a off => Sys2Proof.Machine.execSequenceGap a s off
  | .hello src hd => Sys2Proof.Machine.execHello src s hd
  | .helloAnnounce => Sys2Proof.Machine.execHelloAnnounce s
  | .negotiate src r hd => Sys2Proof.Machine.execNegotiate src r s hd
  | .reservationLapse id => Sys2Proof.Machine.execReservationLapse id s
  | .associate src r hd => Sys2Proof.Machine.execAssociate src r s hd
  | .image f => Sys2Proof.Machine.execImage f s
  | .imageSend m late => Sys2Proof.Machine.execImageSend m late s
  | .heartbeat f => Sys2Proof.Machine.execHeartbeat f s
  | .associationLost a off => Sys2Proof.Machine.execAssociationLost a off s
  | .bye f => Sys2Proof.Machine.execBye f s
  | .evict h id => Sys2Proof.Machine.execEvict h id s
  | .mapEnable h m => Sys2Proof.Machine.execMapEnable h m s
  | .ringOpen => Sys2Proof.Machine.execRingOpen s
  | .ringClosed => Sys2Proof.Machine.execRingClosed s
  | .switchFrame f => Sys2Proof.Machine.execSwitchFrame f s
  | .addressAgeOut mac => Sys2Proof.Machine.execAddressAgeOut mac s
  | .arpRequest port ip mac => Sys2Proof.Machine.execArpRequest port ip mac s
  | .loopModeWrite h j mode => Sys2Proof.Machine.execLoopModeWrite h j mode s
  | .scheduleWrite h j v => Sys2Proof.Machine.execScheduleWrite h j v s
  | .destinationWrite h j sig => Sys2Proof.Machine.execDestinationWrite h j sig s
  | .coefficientWrite h bank j sub v => Sys2Proof.Machine.execCoefficientWrite h bank j sub v s
  | .bankInUseWrite h j b => Sys2Proof.Machine.execBankInUseWrite h j b s
  | .jump h j v => Sys2Proof.Machine.execJump h j v s
  | .repetitiveEnable h j v => Sys2Proof.Machine.execRepetitiveEnable h j v s
  | .clearTable h j => Sys2Proof.Machine.execClearTable h j s
  | .tableWindowWrite h j data => Sys2Proof.Machine.execTableWindowWrite h j data s
  | .lockTimeout j => Sys2Proof.Machine.execLockTimeout j s
  | .returnToService h pair => Sys2Proof.Machine.execReturnToService h pair s
  | .resultLands c slot injected code cycles off => Sys2Proof.Machine.execResultLands c slot injected code cycles off s
  | .injectedFiring c source falling off => Sys2Proof.Machine.execInjectedFiring c source falling off s
  | .injectedDeferredStart c => Sys2Proof.Machine.execInjectedDeferredStart c s
  | .averageWindowComplete x => Sys2Proof.Machine.execAverageWindowComplete x s
  | .skewCalibration h => Sys2Proof.Machine.execSkewCalibration h s
  | .skewCalibrationEnd trims residuals => Sys2Proof.Machine.execSkewCalibrationEnd trims residuals s
  | .calibrate h c => Sys2Proof.Machine.execCalibrate h c s
  | .calibrationEnd c pass coeffs => Sys2Proof.Machine.execCalibrationEnd c pass coeffs s
  | .backgroundCheck c code => Sys2Proof.Machine.execBackgroundCheck c code s
  | .openWireScan tile code => Sys2Proof.Machine.execOpenWireScan tile code s
  | .aoReadback g v => Sys2Proof.Machine.execAoReadback g v s
  | .debounceChange k x => Sys2Proof.Machine.execDebounceChange k x s
  | .dutyPeriodStart x => Sys2Proof.Machine.execDutyPeriodStart x s
  | .fallbackSwitch side => Sys2Proof.Machine.execFallbackSwitch side s
  | .mainPathReturn side => Sys2Proof.Machine.execMainPathReturn side s
  | .holdWindowExpiry ms => Sys2Proof.Machine.execHoldWindowExpiry ms s
  | .supplySag b => Sys2Proof.Machine.execSupplySag b s
  | .supplyQualified b => Sys2Proof.Machine.execSupplyQualified b s
  | .switchOvertemperature o => Sys2Proof.Machine.execSwitchOvertemperature o s
  | .bankEnable h b v => Sys2Proof.Machine.execBankEnable h b v s
  | .faultAcknowledge h b => Sys2Proof.Machine.execFaultAcknowledge h b s
  | .darkTestStart b => Sys2Proof.Machine.execDarkTestStart b s
  | .darkTestEnd b readback => Sys2Proof.Machine.execDarkTestEnd b readback s
  | .safetyCycle x => Sys2Proof.Machine.execSafetyCycle x s
  | .clockMonitorTrip => Sys2Proof.Machine.execClockMonitorTrip s
  | .safetyDebounce k ch => Sys2Proof.Machine.execSafetyDebounce k ch s
  | .discrepancyFault k => Sys2Proof.Machine.execDiscrepancyFault k s
  | .offDelayExpiry p => Sys2Proof.Machine.execOffDelayExpiry p s
  | .safeOutputDarkTest p ch fell => Sys2Proof.Machine.execSafeOutputDarkTest p ch fell s
  | .outputFailsOff p ch => Sys2Proof.Machine.execOutputFailsOff p ch s
  | .degradedWindowExpiry side k => Sys2Proof.Machine.execDegradedWindowExpiry side k s
  | .safetyConfigWrite h e => Sys2Proof.Machine.execSafetyConfigWrite h e s
  | .resetArm h => Sys2Proof.Machine.execResetArm h s
  | .resetConfirm h v => Sys2Proof.Machine.execResetConfirm h v s
  | .armTimeout => Sys2Proof.Machine.execArmTimeout s
  | .restart h p => Sys2Proof.Machine.execRestart h p s
  | .hostRequest h p v => Sys2Proof.Machine.execHostRequest h p v s
  | .faultReset h side k => Sys2Proof.Machine.execFaultReset h side k s
  | .stageReturn a ret => Sys2Proof.Machine.execStageReturn a ret s
  | .planComplete a => Sys2Proof.Machine.execPlanComplete a s
  | .holdDelayExpiry a => Sys2Proof.Machine.execHoldDelayExpiry a s
  | .axisMove h a kind target => Sys2Proof.Machine.execAxisMove h a kind target s
  | .axisStop h a => Sys2Proof.Machine.execAxisStop h a s
  | .axisEnable h a v => Sys2Proof.Machine.execAxisEnable h a v s
  | .faultClear h a => Sys2Proof.Machine.execFaultClear h a s
  | .reReference h a => Sys2Proof.Machine.execReReference h a s
  | .setPosition h a v => Sys2Proof.Machine.execSetPosition h a v s
  | .blockClose y => Sys2Proof.Machine.execBlockClose y s
  | .ringWrite y => Sys2Proof.Machine.execRingWrite y s
  | .chainPacket y words tail => Sys2Proof.Machine.execChainPacket y words s tail
  | .dpSend => Sys2Proof.Machine.execDpSend s
  | .dpStatus => Sys2Proof.Machine.execDpStatus s
  | .pauseFrame quanta => Sys2Proof.Machine.execPauseFrame quanta s
  | .triggerFire k off raw falling => Sys2Proof.Machine.execTriggerFire k off raw falling s
  | .triggerArm h k v => Sys2Proof.Machine.execTriggerArm h k v s
  | .holdOffEnd k => Sys2Proof.Machine.execHoldOffEnd k s
  | .captureWindowClose k => Sys2Proof.Machine.execCaptureWindowClose k s
  | .powerOnReset straps stored => Sys2Proof.Machine.execPowerOnReset straps stored s
  | .brownout ns us => Sys2Proof.Machine.execBrownout ns s us
  | .resetN samples => Sys2Proof.Machine.execResetN samples s
  | .fabricWatchdog late => Sys2Proof.Machine.execFabricWatchdog late s
  | .softwareFullReset h flag => Sys2Proof.Machine.execSoftwareFullReset h flag s
  | .remoteReset h flag => Sys2Proof.Machine.execRemoteReset h flag s
  | .requestedResetHold => Sys2Proof.Machine.execRequestedResetHold s
  | .resetRelease b => Sys2Proof.Machine.execResetRelease b s
  | .preparationTread => Sys2Proof.Machine.execPreparationTread s
  | .housekeepingWatchdog off => Sys2Proof.Machine.execHousekeepingWatchdog s off
  | .blockReset h mask => Sys2Proof.Machine.execBlockReset h mask s
  | .blockResetEnd bit => Sys2Proof.Machine.execBlockResetEnd bit s
  | .pfailFall us => Sys2Proof.Machine.execPfailFall us s
  | .pfailRise us => Sys2Proof.Machine.execPfailRise us s
  | .vhuCharged => Sys2Proof.Machine.execVhuCharged s
  | .pllLockLoss domain more => Sys2Proof.Machine.execPllLockLoss domain s more
  | .setTime h ns => Sys2Proof.Machine.execSetTime h ns s
  | .sync x => Sys2Proof.Machine.execSync x s
  | .announce x => Sys2Proof.Machine.execAnnounce x s
  | .masterLost => Sys2Proof.Machine.execMasterLost s
  | .followUpTimeout ptpId => Sys2Proof.Machine.execFollowUpTimeout ptpId s
  | .refinLoss => Sys2Proof.Machine.execRefinLoss s
  | .refinReturn => Sys2Proof.Machine.execRefinReturn s
  | .tpoArm h k => Sys2Proof.Machine.execTpoArm h k s
  | .tpoDisarm h k => Sys2Proof.Machine.execTpoDisarm h k s
  | .tpoPulse k => Sys2Proof.Machine.execTpoPulse k s
  | .tpoPulseEnd k => Sys2Proof.Machine.execTpoPulseEnd k s
  | .canEnable h p => Sys2Proof.Machine.execCanEnable h p s
  | .canDisable h p => Sys2Proof.Machine.execCanDisable h p s
  | .canFrameReceived p f => Sys2Proof.Machine.execCanFrameReceived p f s
  | .stale p m => Sys2Proof.Machine.execStale p m s
  | .canSend h p m => Sys2Proof.Machine.execCanSend h p m s
  | .periodicSend p m => Sys2Proof.Machine.execPeriodicSend p m s
  | .transmissionComplete p began => Sys2Proof.Machine.execTransmissionComplete p s began
  | .transmissionError p arbitration ack began => Sys2Proof.Machine.execTransmissionError p arbitration s ack began
  | .recover h p => Sys2Proof.Machine.execRecover h p s
  | .recoveryComplete p sequences => Sys2Proof.Machine.execRecoveryComplete p sequences s
  | .queueWindowRead h p => Sys2Proof.Machine.execQueueWindowRead h p s
  | .queueAcknowledge h p seq => Sys2Proof.Machine.execQueueAcknowledge h p seq s
  | .accessServiceEnable h p v => Sys2Proof.Machine.execAccessServiceEnable h p v s
  | .accessRequest p f off => Sys2Proof.Machine.execAccessRequest p f off s
  | .galleryRecord => Sys2Proof.Machine.execGalleryRecord s
  | .galleryClear h => Sys2Proof.Machine.execGalleryClear h s
  | .galleryClearEnd => Sys2Proof.Machine.execGalleryClearEnd s
  | .powerRequestRun h => Sys2Proof.Machine.execPowerRequestRun h s
  | .powerRequestIdle h => Sys2Proof.Machine.execPowerRequestIdle h s
  | .powerRequestStandby h => Sys2Proof.Machine.execPowerRequestStandby h s
  | .standbyEntry => Sys2Proof.Machine.execStandbyEntry s
  | .wakeLinkFrame port addressed => Sys2Proof.Machine.execWakeLinkFrame port addressed s
  | .wakeDiEdge x => Sys2Proof.Machine.execWakeDiEdge x s
  | .wakeTimed => Sys2Proof.Machine.execWakeTimed s
  | .wakeComplete now => Sys2Proof.Machine.execWakeComplete now s
  | .tokenRequest h mask code => Sys2Proof.Machine.execTokenRequest h mask code s
  | .tokenRelease h slot => Sys2Proof.Machine.execTokenRelease h slot s
  | .pulseTest h o us => Sys2Proof.Machine.execPulseTest h o us s
  | .pulseTestEnd before after => Sys2Proof.Machine.execPulseTestEnd before after s
  | .stairwellBegin h => Sys2Proof.Machine.execStairwellBegin h s
  | .loadOffset h v => Sys2Proof.Machine.execLoadOffset h v s
  | .loadData h len data => Sys2Proof.Machine.execLoadData h len data s
  | .stairwellFinish h => Sys2Proof.Machine.execStairwellFinish h s
  | .stairwellCancel h => Sys2Proof.Machine.execStairwellCancel h s
  | .validationEnd => Sys2Proof.Machine.execValidationEnd s
  | .swap h id => Sys2Proof.Machine.execSwap h id s
  | .patch h slots => Sys2Proof.Machine.execPatch h slots s
  | .firmwareBegin h => Sys2Proof.Machine.execFirmwareBegin h s
  | .firmwareOffset h v => Sys2Proof.Machine.execFirmwareOffset h v s
  | .firmwareData h len data => Sys2Proof.Machine.execFirmwareData h len data s
  | .firmwareFinish h => Sys2Proof.Machine.execFirmwareFinish h s
  | .firmwareCancel h => Sys2Proof.Machine.execFirmwareCancel h s
  | .firmwareVerified orderOk formatOk version => Sys2Proof.Machine.execFirmwareVerified orderOk formatOk version s
  | .activate h => Sys2Proof.Machine.execActivate h s
  | .confirm h => Sys2Proof.Machine.execConfirm h s
  | .trialTimeout failedToStart off => Sys2Proof.Machine.execTrialTimeout failedToStart s off
  | .registerWrite h e => Sys2Proof.Machine.execRegisterWrite h e s
  | .safetyDomainRunning => Sys2Proof.Machine.execSafetyDomainRunning s
  | .holdUpExhausted => Sys2Proof.Machine.execHoldUpExhausted s
  | .portLinkState port speed => Sys2Proof.Machine.execPortLinkState port speed s
  | .busIntegrationComplete p => Sys2Proof.Machine.execBusIntegrationComplete p s
  | .canReceiveError p dominant => Sys2Proof.Machine.execCanReceiveError p dominant s
  | .safImageRepeat => Sys2Proof.Machine.execSafImageRepeat s
  | .keepAliveTimeout => Sys2Proof.Machine.execKeepAliveTimeout s
  | .configurationCopyWrite => Sys2Proof.Machine.execConfigurationCopyWrite s
  | .firmwareOverP3 signed b => Sys2Proof.Machine.execFirmwareOverP3 signed b s
  | .switchCooled o => Sys2Proof.Machine.execSwitchCooled o s
  | .bankSupplyLow b back => Sys2Proof.Machine.execBankSupplyLow b s back

end Sys2Proof.Machine
end

