-- ==== Sys2Proof/WellFormed.lean ====
section
/-! DEFINITION. When a command is well formed: every number it carries names a member of its family and every field
fits its width (R4, R5, R18, R315, R329). A command that is not well formed is no command of the spec; the meanings
leave the module as it is where a number names no member. -/

namespace Sys2Proof

/-- An instant inside a tread (R5). -/
def offsetOk (off : Offset) : Bool := decide (off < 10000)

/-- A transaction's heading: association IDs run from 1 to 254, the instant lies in a tread (R31, R323). -/
def Hdr.wf (h : Hdr) : Bool :=
  decide (1 ≤ h.assoc ∧ h.assoc ≤ 254) && decide (h.seq < 2 ^ 32) && decide (h.tag < 2 ^ 16) && offsetOk h.off &&
  decide (h.named.getD 0 < 2 ^ 64)

/-- An entry: index, subindex and a value of its length (R329). -/
def Entry.wf (e : Entry) : Bool := decide (e.idx < 65536) && decide (e.sub < 256) && decide (e.val < 256 ^ e.len)

/-- The source of a frame: one of the ports P0 to P3. -/
def Src.wf (s : Src) : Bool :=
  decide (s.port < 4) && decide (s.mac < 2 ^ 48) && decide (s.ip < 2 ^ 32) && decide (s.udpPort < 65536)

/-- A Spasia frame: header fields in their widths, bytes that are bytes (R315, R316). -/
def Frame.wf (f : Frame) : Bool :=
  f.src.wf && decide (f.assoc < 256) && decide (f.seq < 2 ^ 32) && decide (f.tag < 2 ^ 16) && offsetOk f.off &&
  (match f.kind with | some k => decide (k < 256 ∧ (k = 0 ∨ k = 6 ∨ 9 ≤ k)) | none => true) &&
  (f.body ++ f.trailer).all fun b => decide (b < 256)

/-- The header of a frame outside any association. -/
def FrameHead.wf (h : FrameHead) : Bool :=
  decide (h.major < 256 ∧ h.minor < 256 ∧ h.seq < 2 ^ 32 ∧ h.tag < 2 ^ 16 ∧ h.flags < 2 ^ 32)

/-- A CAN frame: an identifier in the layout of the identifier object, at most 64 data bytes, 8 where it is classic
(R361). -/
def CanFrame.wf (f : CanFrame) : Bool :=
  decide (f.id < 2 ^ 32) && decide (f.data.length ≤ (if f.fd then 64 else 8)) && f.data.all fun b => decide (b < 256)

/-- What the environment shows in one tread. -/
def TreadIn.wf (i : TreadIn) : Bool :=
  (i.slot0.all fun p => decide (p.1 < 64) && decide (-131072 ≤ p.2 ∧ p.2 ≤ 131071)) &&
  (i.raw.all fun p => decide (p.1 < 192) && decide (p.2 ≤ 1)) && decide (i.strobes < 64)

/-- Whether a command is well formed. -/
def Instr.wf : Instr → Bool
  | .treadBoundary i => i.wf
  | .resynchronisationComplete pair _ | .returnToService _ pair => decide (pair < 2)
  | .tileWakeComplete tile => decide (tile < 15)
  | .lateWake t | .stepDurationExit t | .stepTimeout t | .waitDwellEnd t | .settleTimeReached t | .delayedAction t =>
    decide (t < 16)
  | .pulseDoEnd o | .switchOvertemperature o | .switchCooled o => decide (o < 192)
  | .start h t entry => h.wf && decide (t < 16) && decide (entry < 256)
  | .abort h t | .forceAbort h t | .pause h t | .continueTrack h t | .clear h t => h.wf && decide (t < 16)
  | .transact f | .image f | .heartbeat f | .bye f => f.wf
  | .readService a _ | .readServiceEnd a _ _ | .journalledReply a _ | .segmentDiscard a | .sequenceGap a _
  | .reservationLapse a | .associationLost a _ => decide (1 ≤ a ∧ a ≤ 254)
  | .hello src hd => src.wf && hd.wf
  | .negotiate src r hd => src.wf && hd.wf && decide (r.nonce < 2 ^ 128)
  | .associate src r hd => src.wf && hd.wf && decide (1 ≤ r.reserved ∧ r.reserved ≤ 254)
  | .imageSend k _ => decide (k < 64)
  | .evict h k => h.wf && decide (1 ≤ k ∧ k ≤ 254)
  | .mapEnable h k => h.wf && decide (k < 64)
  | .switchFrame f => decide (f.port < 4)
  | .addressAgeOut mac => decide (mac < 2 ^ 48)
  | .arpRequest port ip mac => decide (port < 5) && decide (ip < 2 ^ 32) && decide (mac < 2 ^ 48)
  | .portLinkState port speed => decide (port < 5) && decide (speed < 3)
  | .loopModeWrite h j _ | .scheduleWrite h j _ | .bankInUseWrite h j _ | .jump h j _ | .repetitiveEnable h j _
  | .clearTable h j => h.wf && decide (j < 512)
  | .destinationWrite h j sig => h.wf && decide (j < 512) && decide (sig < 4096)
  | .coefficientWrite h bank j sub v => h.wf && decide (bank < 2 ∧ j < 512 ∧ 1 ≤ sub ∧ sub ≤ 0x17 ∧ v < 2 ^ 32)
  | .tableWindowWrite h j data => h.wf && decide (j < 512) && decide (data < 256 ^ 256)
  | .lockTimeout j => decide (j < 512)
  | .resultLands c slot _ code cycles off =>
    decide (c < 64 ∧ slot < 16 ∧ cycles < 640) && decide (-131072 ≤ code ∧ code ≤ 131071) && offsetOk off
  | .injectedFiring c source _ off => decide (c < 64) && decide (source < 4 ∨ (16 ≤ source ∧ source < 24) ∨ source = 32) && offsetOk off
  | .injectedDeferredStart c | .backgroundCheck c _ | .calibrationEnd c _ _ => decide (c < 64)
  | .calibrate h c => h.wf && decide (c < 64)
  | .averageWindowComplete x => decide (x < 256)
  | .skewCalibrationEnd trims residuals => (trims.all fun p => decide (p.1 < 64)) && residuals.all fun p => decide (p.1 < 64)
  | .openWireScan tile _ => decide (tile < 8)
  | .aoReadback g _ => decide (g < 8)
  | .debounceChange i x => decide (i < 192 ∧ x.level < 2)
  | .dutyPeriodStart x => decide (x.o < 192)
  | .fallbackSwitch side | .mainPathReturn side => decide (side < 2)
  | .supplySag b | .supplyQualified b | .bankSupplyLow b _ | .darkTestStart b | .darkTestEnd b _ => decide (b < 6)
  | .bankEnable h b v => h.wf && decide (b < 6 ∧ v < 256)
  | .faultAcknowledge h b => h.wf && decide (b < 6)
  | .safetyCycle i => (i.chans.all fun p => decide (p.1 < 32)) && i.readback.all fun p => decide (p.1 < 16)
  | .safetyDebounce k ch => decide (k < 16 ∧ ch < 2)
  | .discrepancyFault k => decide (k < 16)
  | .offDelayExpiry p => decide (p < 8)
  | .safeOutputDarkTest p ch _ | .outputFailsOff p ch => decide (p < 8 ∧ ch < 2)
  | .degradedWindowExpiry side k => decide (k < if side = 0 then 16 else if side = 1 then 8 else 0)
  | .safetyConfigWrite h e | .registerWrite h e => h.wf && e.wf
  | .resetConfirm h v => h.wf && decide (v < 65536)
  | .restart h p => h.wf && decide (p < 8)
  | .hostRequest h p _ => h.wf && decide (p < 8)
  | .faultReset h side k => h.wf && decide (k < if side = 0 then 16 else if side = 1 then 8 else 0)
  | .stageReturn a ret => decide (a < 32) && decide (ret.getD 0 < 2 ^ 32)
  | .planComplete a | .holdDelayExpiry a => decide (a < 32)
  | .axisMove h a kind target => h.wf && decide (a < 32) && decide (kind = 1 ∨ kind = 2) && decide (target < 2 ^ 32)
  | .axisStop h a | .faultClear h a | .reReference h a => h.wf && decide (a < 32)
  | .axisEnable h a v => h.wf && decide (a < 32 ∧ v < 256)
  | .setPosition h a v => h.wf && decide (a < 32 ∧ v < 2 ^ 32)
  | .blockClose k | .ringWrite k => decide (k < 7)
  | .chainPacket k words tail => decide ((k = 2 ∨ k = 4) ∧ words.length ≤ 256 ∧ 1 ≤ tail ∧ tail ≤ 4) &&
    words.all fun w => decide (w < 2 ^ 32)
  | .pauseFrame quanta => decide (quanta < 65536)
  | .triggerFire k off _ _ => decide (k < 8) && offsetOk off
  | .triggerArm h k v => h.wf && decide (k < 8 ∧ v < 2)
  | .holdOffEnd k | .captureWindowClose k => decide (k < 8)
  | .powerOnReset straps _ => decide (straps.bootsel < 4 ∧ straps.clkmode < 4)
  | .softwareFullReset h flag | .remoteReset h flag => h.wf && decide (1 ≤ flag ∧ flag ≤ 3)
  | .blockReset h mask => h.wf && decide (mask < 2 ^ 32)
  | .blockResetEnd bit => decide (bit < 18)
  | .pllLockLoss domain _ => decide (domain < 9)
  | .setTime h ns => h.wf && decide (ns < 2 ^ 64)
  | .sync i => decide (i.port < 3)
  | .announce i => decide (i.port < 3)
  | .tpoArm h k | .tpoDisarm h k => h.wf && decide (k < 16)
  | .tpoPulse k | .tpoPulseEnd k => decide (k < 16)
  | .canEnable h p | .canDisable h p | .recover h p | .queueWindowRead h p => h.wf && decide (p < 2)
  | .queueAcknowledge h p seq => h.wf && decide (p < 2 ∧ seq < 2 ^ 32)
  | .accessServiceEnable h p v => h.wf && decide (p < 2 ∧ v < 256)
  | .canFrameReceived p f => decide (p < 2) && f.wf
  | .accessRequest p f off => decide (p < 2) && f.wf && offsetOk off
  | .stale p k | .periodicSend p k => decide (p < 2 ∧ k < 128)
  | .canSend h p k => h.wf && decide (p < 2 ∧ k < 128)
  | .transmissionComplete p _ | .transmissionError p _ _ _ | .recoveryComplete p _ | .busIntegrationComplete p
  | .canReceiveError p _ => decide (p < 2)
  | .wakeLinkFrame port _ => decide (port < 4)
  | .wakeDiEdge i => decide (i < 192)
  | .tokenRequest h mask code => h.wf && decide (mask < 2 ^ 32 ∧ code < 256)
  | .tokenRelease h slot => h.wf && decide (1 ≤ slot ∧ slot ≤ 16)
  | .pulseTest h o us => h.wf && decide (o < 192 ∧ us < 65536)
  | .loadOffset h v | .firmwareOffset h v => h.wf && decide (v < 2 ^ 32)
  | .loadData h len data | .firmwareData h len data => h.wf && decide (data < 256 ^ len)
  | .swap h k => h.wf && decide (k < 2 ^ 32)
  | .patch h slots => h.wf && slots.all fun p => decide (p.1 < 256 ∧ p.2.1 < 2 ^ 32 ∧ p.2.2 < 2 ^ 32)
  | .skewCalibration h | .resetArm h | .galleryClear h | .powerRequestRun h | .powerRequestIdle h
  | .powerRequestStandby h | .stairwellBegin h | .stairwellFinish h | .stairwellCancel h | .firmwareBegin h
  | .firmwareFinish h | .firmwareCancel h | .activate h | .confirm h => h.wf
  | .flightBoundary _ | .checkpointComplete | .helloAnnounce | .ringOpen | .ringClosed | .holdWindowExpiry _
  | .clockMonitorTrip | .armTimeout | .dpSend | .dpStatus | .brownout _ _ | .resetN _ | .fabricWatchdog _
  | .requestedResetHold | .resetRelease _ | .preparationTread | .housekeepingWatchdog _ | .pfailFall _ | .pfailRise _
  | .vhuCharged | .masterLost | .followUpTimeout _ | .refinLoss | .refinReturn | .galleryRecord | .galleryClearEnd
  | .standbyEntry | .wakeTimed | .wakeComplete _ | .pulseTestEnd _ _ | .validationEnd | .firmwareVerified _ _ _
  | .trialTimeout _ _ | .safetyDomainRunning | .holdUpExhausted | .safImageRepeat | .keepAliveTimeout
  | .configurationCopyWrite | .firmwareOverP3 _ _ => true

end Sys2Proof
end

