-- ==== Sys2Proof/Safety.lean ====
section
/-! DEFINITION. The vocabulary of the statements: the invariant of a module without supply (R205, R307), what the module
may be doing after a command (R284 to R295, R391 to R395), and the writes that the commands of a partner stand for. -/

namespace Sys2Proof.Machine

/-! ### Invariants -/

/-- A module without supply drives nothing: the field side is unpowered, every digital output is off, no analog output
holds a code, and ALIVE does not toggle (R205, R307, R343). -/
def Mod.unsupplied (m : Mod) : Bool :=
  !m.field.powered && decide (m.field.doOn = 0) && m.field.aoCode.isEmpty && !m.safety.alive

/-- The invariant of every state: where the module is off, it drives nothing. -/
def State.inv (s : State) : Bool := if s.m.life = .off then s.m.unsupplied else true

/-- Whether the object stores are in canonical form. -/
def Mod.storesWf (m : Mod) : Bool := SMap.wf keyDefault m.objs && SMap.wf keyDefault m.ro

/-- The block with another module and the same waiting commands. -/
def State.withMod (s : State) (m : Mod) : State := { s with m := m }

/-! ### What the module is doing -/

/-- What a command may make of what the module is doing (R284, R288, R294, R295, R391, R393, R395, R398). Commands that
are not listed leave it alone. -/
def lifeAfter : Instr → Life → List Life
  | .treadBoundary _, .run | .treadBoundary _, .prepared => [.run, .held]
  | .powerOnReset _ _, _ => [.held]
  | .brownout _ _, l => if l = .off then [.off] else [l, .held, .off]
  | .resetN _, l => if l = .off then [.off] else [l, .held]
  | .fabricWatchdog _, .run | .requestedResetHold, .run => [.run, .held]
  | .pllLockLoss _ _, .run => [.run, .held]
  | .pllLockLoss _ _, .ready => [.ready, .held]
  | .pllLockLoss _ _, .prepared => [.prepared, .held]
  | .resetRelease _, .held | .firmwareOverP3 _ _, .held => [.held, .ready]
  | .preparationTread, .ready => [.prepared]
  | .standbyEntry, .run => [.run, .standby, .waking]
  | .wakeLinkFrame _ _, .standby | .wakeDiEdge _, .standby | .wakeTimed, .standby => [.standby, .waking]
  | .wakeComplete _, .waking => [.prepared]
  | .holdUpExhausted, _ => [.off]
  | _, l => [l]

/-! ### Writes of a partner -/

/-- The size in bytes of an object of fixed size. -/
def objectSize (idx sub : Nat) : Nat :=
  match place idx sub with
  | some p => sizeOf_ p
  | none => 0

/-- A write of one object of fixed size. -/
def objectWrite (idx sub v : Nat) : List Entry :=
  [{ idx := idx, sub := sub, len := objectSize idx sub, val := v % 256 ^ objectSize idx sub }]

/-- The heading and the entries of the write that a command of a partner stands for, by the object that the command's
rule names. -/
def written : Instr → Option (Hdr × List Entry)
  | .start h t entry => if t < 16 then some (h, objectWrite (0x4000 + t) 1 (1 + 256 * entry)) else none
  | .abort h t => if t < 16 then some (h, objectWrite (0x4000 + t) 1 2) else none
  | .forceAbort h t => if t < 16 then some (h, objectWrite (0x4000 + t) 1 3) else none
  | .pause h t => if t < 16 then some (h, objectWrite (0x4000 + t) 1 4) else none
  | .continueTrack h t => if t < 16 then some (h, objectWrite (0x4000 + t) 1 5) else none
  | .clear h t => if t < 16 then some (h, objectWrite (0x4000 + t) 1 6) else none
  | .evict h k => some (h, objectWrite 0x1100 0xD k)
  | .mapEnable h k => if k < 64 then some (h, objectWrite (0x6000 + k) 6 1) else none
  | .loopModeWrite h j v => if j < 512 then some (h, objectWrite (0x2200 + j) 1 v) else none
  | .scheduleWrite h j v => if j < 512 then some (h, objectWrite (0x2200 + j) 0xE v) else none
  | .destinationWrite h j v => if j < 512 then some (h, objectWrite (0x2200 + j) 0x11 v) else none
  | .coefficientWrite h bank j sub v =>
    if j < 512 ∧ bank < 2 ∧ 1 ≤ sub ∧ sub ≤ 0x17 then some (h, objectWrite (0x2400 + 0x200 * bank + j) sub v) else none
  | .bankInUseWrite h j v => if j < 512 then some (h, objectWrite (0x2200 + j) 0xD v) else none
  | .jump h j v => if j < 512 then some (h, objectWrite (0x2800 + j) 9 v) else none
  | .repetitiveEnable h j v => if j < 512 then some (h, objectWrite (0x2A00 + j) 1 v) else none
  | .clearTable h j => if j < 512 then some (h, objectWrite (0x2A00 + j) 0x12 1) else none
  | .tableWindowWrite h j v => if j < 512 then some (h, objectWrite (0x2A00 + j) 0x14 v) else none
  | .returnToService h pair => some (h, objectWrite 0x2000 0xE pair)
  | .skewCalibration h => some (h, objectWrite 0x3190 1 1)
  | .calibrate h c => if c < 64 then some (h, objectWrite (0x3100 + c) 9 1) else none
  | .bankEnable h b v => if b < 6 then some (h, objectWrite (0x34C0 + b) 2 v) else none
  | .faultAcknowledge h b => if b < 6 then some (h, objectWrite (0x34C0 + b) 0xA 1) else none
  | .safetyConfigWrite h e => if isSafetyCfg (okey 0 e.idx e.sub) then some (h, [e]) else none
  | .resetArm h => some (h, objectWrite 0x3500 4 0xA5)
  | .resetConfirm h v => some (h, objectWrite 0x3500 6 v)
  | .restart h p => if p < 8 then some (h, objectWrite (0x3530 + p) 9 1) else none
  | .hostRequest h p v => if p < 8 then some (h, objectWrite (0x3530 + p) 0xA v) else none
  | .faultReset h side k =>
    if side = 0 ∧ k < 16 then some (h, objectWrite (0x3510 + k) 9 1)
    else if side = 1 ∧ k < 8 then some (h, objectWrite (0x3530 + k) 0xD 1) else none
  | .axisMove h a kind target =>
    if a < 32 then some (h, objectWrite (0x3600 + a) 0x16 (kind % 2 ^ 32 + 2 ^ 32 * (target % 2 ^ 32))) else none
  | .axisStop h a => if a < 32 then some (h, objectWrite (0x3600 + a) 0x17 1) else none
  | .axisEnable h a v => if a < 32 then some (h, objectWrite (0x3600 + a) 1 v) else none
  | .faultClear h a => if a < 32 then some (h, objectWrite (0x3600 + a) 0x1C 1) else none
  | .reReference h a => if a < 32 then some (h, objectWrite (0x3600 + a) 0x1C 2) else none
  | .setPosition h a v => if a < 32 then some (h, objectWrite (0x3600 + a) 0x20 v) else none
  | .triggerArm h k v => if k < 8 then some (h, objectWrite (0x3840 + k) 0xE v) else none
  | .softwareFullReset h flag => some (h, objectWrite 0x1401 1 flag)
  | .remoteReset h flag => some (h, objectWrite 0x1402 1 flag)
  | .blockReset h mask => some (h, objectWrite 0x1410 1 mask)
  | .setTime h ns => some (h, objectWrite 0x1300 0x11 ns)
  | .tpoArm h k => if k < 16 then some (h, objectWrite (0x1340 + k) 6 1) else none
  | .tpoDisarm h k => if k < 16 then some (h, objectWrite (0x1340 + k) 6 0) else none
  | .canEnable h p => if p < 2 then some (h, objectWrite (0x3780 + p) 1 1) else none
  | .canDisable h p => if p < 2 then some (h, objectWrite (0x3780 + p) 1 0) else none
  | .canSend h p k => if p < 2 ∧ k < 128 then some (h, objectWrite (0x3700 + k) (9 + 16 * p) 1) else none
  | .recover h p => if p < 2 then some (h, objectWrite (0x3780 + p) 6 1) else none
  | .queueAcknowledge h p v => if p < 2 then some (h, objectWrite (0x3780 + p) 0x11 v) else none
  | .accessServiceEnable h p v => if p < 2 then some (h, objectWrite (0x3780 + p) 0xD v) else none
  | .galleryClear h => some (h, objectWrite 0x1500 9 0x5A)
  | .powerRequestRun h => some (h, objectWrite 0x1400 0x22 0)
  | .powerRequestIdle h => some (h, objectWrite 0x1400 0x22 1)
  | .powerRequestStandby h => some (h, objectWrite 0x1400 0x22 2)
  | .tokenRequest h mask code => some (h, objectWrite 0x1600 1 (mask % 2 ^ 32 + 2 ^ 32 * code))
  | .tokenRelease h slot => some (h, objectWrite 0x1600 2 slot)
  | .pulseTest h o us => some (h, objectWrite 0x1610 1 (o % 65536 + 65536 * us))
  | .stairwellBegin h => some (h, objectWrite 0x4021 7 1)
  | .stairwellFinish h => some (h, objectWrite 0x4021 7 2)
  | .stairwellCancel h => some (h, objectWrite 0x4021 7 3)
  | .loadOffset h v => some (h, objectWrite 0x4021 4 v)
  | .loadData h len data => some (h, [{ idx := 0x4021, sub := 5, len := len, val := data % 256 ^ len }])
  | .swap h v => some (h, objectWrite 0x4020 0xB v)
  | .patch h slots => some (h, slots.map fun x =>
      { idx := 0x4022, sub := x.1 % 256, len := 8, val := x.2.1 % 2 ^ 32 + 2 ^ 32 * (x.2.2 % 2 ^ 32) })
  | .firmwareBegin h => some (h, objectWrite 0x1620 3 1)
  | .firmwareFinish h => some (h, objectWrite 0x1620 3 2)
  | .firmwareCancel h => some (h, objectWrite 0x1620 3 3)
  | .activate h => some (h, objectWrite 0x1620 3 4)
  | .confirm h => some (h, objectWrite 0x1620 3 5)
  | .firmwareOffset h v => some (h, objectWrite 0x1620 4 v)
  | .firmwareData h len data => some (h, [{ idx := 0x1620, sub := 5, len := len, val := data % 256 ^ len }])
  | .registerWrite h e => some (h, [e])
  | _ => none

/-- The transaction that a heading and entries make (R28, R329). -/
def txnOf (h : Hdr) (l : List Entry) : Txn :=
  { assoc := h.assoc, seq := h.seq, tag := h.tag, write := true, named := h.named, early := h.early,
    journalled := h.journalled, entries := l }

/-- The module once a frame of a partner has counted as valid (R338). -/
def Mod.seen (m : Mod) (a : Nat) (p : Partner) : Mod := m.setPartner a { p with last := m.tread }

/-- The module once a valid message of a partner in one frame has discarded what stood incomplete before it (R318). -/
def Mod.cleared (m : Mod) (a : Nat) (p : Partner) : Mod := (m.seen a p).dropPartial a { p with last := m.tread }

/-- The module once the partner's next message, number `n`, has been taken in its turn (R320). -/
def Mod.turned (m : Mod) (a : Nat) (p : Partner) (n : Nat) : Mod :=
  (m.cleared a p).setPartner a { p with last := m.tread, part := none, expect := (n + 1) % 2 ^ 32, resync := false }

/-- Whether a partner's write is taken in its turn: the partner is in the hall with a class that has write
transactions, nothing is held ahead of it, its number is the next one, the limits leave room, and its list of entries is
one that a message can have (R28, R29, R320, R323). -/
def Mod.inTurn (m : Mod) (h : Hdr) (p : Partner) (l : List Entry) : Bool :=
  m.serving && decide (look m.hall h.assoc = some p) && decide (p.state = 1 ∧ p.agreed.cls ≠ 2) && p.held.isEmpty &&
  (p.resync || decide (p.expect = h.seq)) && !(m.cleared h.assoc p).full h.assoc &&
  !l.isEmpty && decide (l.length ≤ 256) && decide (l.foldl (fun n e => n + e.len) 0 ≤ 4096) &&
  !(m.turned h.assoc p h.seq).featureBad (txnOf h l)

/-- The boundary at which a write commits: the named tread, or the next boundary, or the one after it where its
validation completes past the seal (R32, R35). -/
def Mod.boundaryOf (m : Mod) (h : Hdr) : Tread :=
  match h.named with
  | some t => t
  | none => if h.off ≤ 9600 then m.tread + 1 else m.tread + 2

/-- What a write leaves staged (R32, R33, R100). -/
def Mod.stagedWrite (m : Mod) (h : Hdr) (l : List Entry) : Staged :=
  { assoc := h.assoc, seq := h.seq, tag := h.tag, due := m.boundaryOf h, entries := l, arrived := m.arrivals, early := h.early,
    journalled := h.journalled, named := h.named.isSome, swaps := m.rov 0x4020 0xC, origin := .message }

/-- The interim reply of a write that asks for one (R33). -/
def Mod.stagedReply (m : Mod) (h : Hdr) : Reply :=
  { assoc := h.assoc, seq := h.seq, tag := h.tag, status := stStaged, tread := m.boundaryOf h, interim := true,
    arrived := m.arrivals }

/-- Whether a frame of a kind counts as a valid frame of the partner `p` (R314, R315, R318, R326, R338): the module is
in service, the frame comes as R314 carries it, of the kind that it is taken for (R317), it has a layout that R315 allows, the partner is in the hall, the frame
comes from its address, and its trailer is right. -/
def Mod.validFrom (m : Mod) (kind : Nat) (f : Frame) (p : Partner) : Bool :=
  m.serving && f.src.sound && m.spoken f.src && f.kind.isNone && frameOk kind f && decide (look m.hall f.assoc = some p) && decide (p.state = 1) &&
  sameSrc p.agreed.src f.src && trailerOk p kind f

/-- What is kept of the first segment of a message of several (R318). -/
def firstSegment (f : Frame) (p : Partner) (t : Tread) : Partial :=
  { seq := f.seq, tag := f.tag, count := bits f.flags 5 3 + 1, parts := [(bits f.flags 2 3, f.body)], since := t,
    versionOk := decide (f.major = p.agreed.major) }

/-- The message of a TRANSACT of one segment (R318, R319). -/
def wholeMessage (f : Frame) (p : Partner) (t : Tread) : Msg :=
  { seq := f.seq, tag := f.tag, req := parseBody f.body, versionOk := decide (f.major = p.agreed.major), since := t }

/-- The message of an IMAGE of map `k` (R334). -/
def imageMessage (f : Frame) (p : Partner) (k : Nat) (data : List Nat) : Msg :=
  { seq := f.seq, tag := f.tag, req := .image k data, versionOk := decide (f.major = p.agreed.major) }

/-- A partner that leaves at the next boundary for a reason (R340). -/
def Partner.gone (p : Partner) (why : Nat) (t : Tread) : Partner :=
  { p with last := t, state := 2, leaving := why, declared := t, held := [], part := none }

/-- The module with the configuration of the inputs that was in force in a tread: the one before a latch that falls after it
(R163, R168). -/
def Mod.asOf (m : Mod) (t : Tread) : Mod := if t < m.effAt then { m with eff := m.effWas } else m

/-- The same module back under its present configuration. -/
def Mod.asNow (m : Mod) (t : Tread) (s : Mod) : Mod := if t < s.effAt then { m with eff := s.eff } else m

/-- A frame of the module to an address outside any association, as it leaves: its encapsulation, its header and its body
(R314, R315). -/
def Mod.frameTo (m : Mod) (dest : Src) (version : Nat × Nat) (kind assoc tag flags : Nat) (body : List Nat) : Out :=
  let f := headerBytes version.1 version.2 kind assoc 0 tag body.length flags ++ body
  .send dest kind assoc (m.framing dest f ++ f)

/-- The module with a read no longer in service (R43). -/
def Mod.readOver (m : Mod) (r : ReadSt) : Mod := { m with reads := m.reads.filter fun x => !decide (x = r) }

/-- The reply of a read: a status with the position of the entry that failed, or the values of its tread (R43, R331). -/
def readFails (r : ReadSt) (a seq st pos : Nat) : Reply :=
  { assoc := a, seq := seq, tag := r.tag, status := st, pos := pos, write := false, arrived := r.arrived }
/-- The same with the values. -/
def readGives (r : ReadSt) (a seq : Nat) : Reply :=
  { assoc := a, seq := seq, tag := r.tag, status := 0, tread := r.due, vals := r.vals, write := false,
    arrived := r.arrived }

/-- The reply LATE of a write (R37). -/
def lateReply (h : Hdr) : Reply := { assoc := h.assoc, seq := h.seq, tag := h.tag, status := stLate }
/-- The reply RANGE to a write that names a tread beyond the commit horizon (R37). -/
def horizonReply (h : Hdr) : Reply := { assoc := h.assoc, seq := h.seq, tag := h.tag, status := stRange }
/-- The reply NO_OBJECT to a write whose first entry names no object (R31). -/
def absentReply (h : Hdr) : Reply := { assoc := h.assoc, seq := h.seq, tag := h.tag, status := 0x10, pos := 0 }

end Sys2Proof.Machine
end

