-- ==== Sys2Proof/Certificates/Slice0/Obligations.lean ====
section
/-! DEFINITION. The statements for the provers. Each docstring names the rules of the spec that it rests on, and the log
entry where a clause is the model's own choice. -/

open Sys2Proof Sys2Proof.Machine

/-! ### The block as a whole -/

/-- A step takes the command at the front of the queue and executes it with the rest; an empty queue leaves the block as
it is (log entry 7: the model's choice). -/
def Obligations.StepRunsFrontCommand : Prop :=
  (∀ (c : Instr) (s : State), step { s with pending := c :: s.pending } = exec c s) ∧
  (∀ s : State, s.pending = [] → step s = .next s)

/-- No command stops the block: each answers a next state and leaves the queue to the step. -/
def Obligations.NoCommandStops : Prop :=
  ∀ (c : Instr) (s : State), ∃ t, exec c s = .next t ∧ t.pending = s.pending

/-- Right after reset the module is held, every object stands at its default, no association is in the hall, no command
waits (R284, R291; the tread number 0 and the absence of stored images are log entry 4's choice), and the invariants
hold. -/
def Obligations.ResetState : Prop :=
  State.reset.m.life = .held ∧ State.reset.m.tread = 0 ∧ State.reset.m.objs = [] ∧ State.reset.m.ro = [] ∧
  State.reset.m.hall = [] ∧ State.reset.m.field.doOn = 0 ∧ State.reset.pending = [] ∧ State.reset.inv = true ∧
  State.reset.m.storesWf = true

/-- A module without supply drives nothing, after every command (R205, R307, R343). -/
def Obligations.UnsuppliedDrivesNothing : Prop :=
  ∀ s t : State, s.inv = true → step s = .next t → t.inv = true

/-- Which commands change what the module is doing: resets, their release, the preparation tread, boundary N, standby and
its end, and the loss of supply (R284, R288, R294, R295, R307, R391, R393, R395). -/
def Obligations.LifeTransitions : Prop :=
  ∀ (c : Instr) (s t : State), exec c s = .next t → t.m.life ∈ lifeAfter c s.m.life

/-- Out of service no command of a partner has any effect: its frames are discarded (R342, R391). -/
def Obligations.OutOfServiceSilent : Prop :=
  ∀ (c : Instr) (s : State) (h : Hdr) (l : List Entry), written c = some (h, l) → s.m.life ≠ .run → exec c s = .next s

/-- The tread boundary begins the next tread: in service its number becomes the one after the present one, or the one to
which the timebase has been set; after the preparation tread it is boundary N, and the module is in service unless a
reset takes it at once (R11, R295, R345). -/
def Obligations.TreadAdvances : Prop :=
  ∀ (s : State) (i : TreadIn),
    (s.m.life = .run → s.m.leaves = false →
      ∃ t, exec (.treadBoundary i) s = .next t ∧ t.m.tread = s.m.nextTread ∧ t.pending = s.pending) ∧
    (s.m.life = .prepared →
      ∃ t, exec (.treadBoundary i) s = .next t ∧ t.m.tread = s.m.tread + 1 ∧ t.pending = s.pending ∧
        (t.m.life = .run ∨ t.m.life = .held))

/-- Gallery records are kept: only a clear empties the gallery, only a record written adds to it, and every other command
leaves its records as they are, resets included (R385). -/
def Obligations.GalleryKept : Prop :=
  ∀ (c : Instr) (s t : State), exec c s = .next t →
    t.m.gal.recs = s.m.gal.recs ∨ (c = .galleryClearEnd) ∨ (c = .galleryRecord)

/-- Logic resets and the way back to service leave the safety domain as it is; a brownout does so unless nothing bridges
it, which is a loss of power (R209, R386). -/
def Obligations.ResetLeavesSafety : Prop :=
  ∀ (c : Instr) (s t : State),
    (match c with
     | .brownout _ _ => tb (s.m.rov 0x1400 0x2F) 1 = false
     | .resetN _ | .fabricWatchdog _ | .requestedResetHold | .pllLockLoss _ _ | .resetRelease _ | .firmwareOverP3 _ _
     | .preparationTread => True
     | _ => False) →
    exec c s = .next t → t.m.safety = s.m.safety

/-! ### Stores -/

/-- A value written reads back, every other object reads as before, and the stores keep their canonical form (R411). -/
def Obligations.StoresReadBack : Prop :=
  ∀ (m : Mod) (idx sub v : Nat),
    (m.setCfg idx sub v).cfg idx sub = v ∧ (m.setRo idx sub v).rov idx sub = v ∧
    (∀ idx' sub', okey 0 idx' sub' ≠ okey 0 idx sub →
      (m.setCfg idx sub v).cfg idx' sub' = m.cfg idx' sub' ∧ (m.setRo idx sub v).rov idx' sub' = m.rov idx' sub') ∧
    (m.storesWf = true → (m.setCfg idx sub v).storesWf = true ∧ (m.setRo idx sub v).storesWf = true)

/-- Values are carried least significant byte first: a value's bytes, read back, give the value (R4, R411). -/
def Obligations.BytesReadBack : Prop :=
  ∀ (n v : Nat), ofLe (leBytes n v) = v % 256 ^ n ∧ (leBytes n v).length = n ∧ ∀ b ∈ leBytes n v, b < 256

/-! ### Writes of partners -/

/-- A write that passes validation is staged for its boundary, its objects still unchanged, with a STAGED reply where
one is due; this is every command that writes objects (R28, R31, R32, R33, R35, R320). -/
def Obligations.WriteIsStaged : Prop :=
  ∀ (c : Instr) (s : State) (h : Hdr) (p : Partner) (l : List Entry), written c = some (h, l) →
    s.m.inTurn h p l = true →
    (s.m.turned h.assoc p h.seq).validateFrom h.assoc (s.m.now + h.off) (s.m.dueOfWrite h.named h.off).2 l 0 l = none →
    (s.m.dueOfWrite h.named h.off).1 = 0 →
    (s.m.turned h.assoc p h.seq).deltaFull h.assoc (s.m.dueOfWrite h.named h.off).2 l = false →
    exec c s = .next { s with m := { s.m.turned h.assoc p h.seq with
      arrivals := s.m.arrivals + 1
      staged := s.m.staged ++ [s.m.stagedWrite h l]
      replies := if h.early = true ∨ h.named.isSome = true then s.m.replies ++ [s.m.stagedReply h] else s.m.replies } }

/-- A write of which an entry fails validation is refused whole: nothing is staged, no object changes (R31). -/
def Obligations.WriteIsRefusedWhole : Prop :=
  ∀ (c : Instr) (s : State) (h : Hdr) (p : Partner) (l : List Entry) (st pos : Nat) (k : Option Chk),
    written c = some (h, l) → s.m.inTurn h p l = true →
    (s.m.turned h.assoc p h.seq).validateFrom h.assoc (s.m.now + h.off) (s.m.dueOfWrite h.named h.off).2 l 0 l =
      some (st, pos, k) →
    ∃ t, exec c s = .next t ∧ t.m.staged = s.m.staged ∧ t.m.objs = s.m.objs ∧ t.m.reads = s.m.reads ∧
      t.m.tracks = s.m.tracks ∧ t.m.field = s.m.field ∧ t.pending = s.pending

/-- A write that names tread t, and passes validation, commits at t only if it arrives by 9.6 us of tread t-1: then it is
staged for t, unless the delta of its flight is full (R298); later, it is refused with LATE, nothing in it takes effect
and the late count rises by 1; a tread beyond the commit horizon is refused with RANGE (R37). -/
def Obligations.NamedWritesInTime : Prop :=
  ∀ (c : Instr) (s : State) (h : Hdr) (p : Partner) (l : List Entry) (t : Tread), written c = some (h, l) →
    s.m.inTurn h p l = true → h.named = some t →
    (s.m.turned h.assoc p h.seq).validateFrom h.assoc (s.m.now + h.off) t l 0 l = none →
    ((t < s.m.tread + 1 ∨ (t = s.m.tread + 1 ∧ 9600 < h.off)) →
      ∃ u, exec c s = .next u ∧ u = s.withMod (((s.m.turned h.assoc p h.seq).bump 0x1200 0xA).send (lateReply h)) ∧
        u.m.staged = s.m.staged ∧ u.m.objs = s.m.objs ∧ u.m.tracks = s.m.tracks ∧
        u.m.rov 0x1200 0xA = (s.m.rov 0x1200 0xA + 1) % 2 ^ 32) ∧
    (s.m.tread + 1 < t ∨ (t = s.m.tread + 1 ∧ h.off ≤ 9600) →
      (s.m.tread + s.m.cfg 0x1200 6 < t →
        ∃ u, exec c s = .next u ∧ u = s.withMod ((s.m.turned h.assoc p h.seq).send (horizonReply h)) ∧
          u.m.staged = s.m.staged ∧ u.m.objs = s.m.objs ∧ u.m.tracks = s.m.tracks) ∧
      (t ≤ s.m.tread + s.m.cfg 0x1200 6 → (s.m.turned h.assoc p h.seq).deltaFull h.assoc t l = false →
        ∃ u x, exec c s = .next u ∧ u.m.staged = s.m.staged ++ [x] ∧ x.due = t ∧ x.entries = l ∧ x.assoc = h.assoc ∧
          x.named = true ∧ u.m.objs = s.m.objs))

/-- Nothing of the range 0xF000 to 0xFFFF is there for a partner: an entry in it fails with NO_OBJECT wherever a
partner's entry is looked up, a write of it through the registers is refused whole, and no reading finds anything
(R425). -/
def Obligations.FactoryRangeIsClosed : Prop :=
  ∀ (m : Mod) (a : Nat) (e : Entry) (l : List Entry) (pos : Nat), 0xF000 ≤ e.idx →
    m.readFail a pos (e :: l) = some (0x10, pos) ∧
    (∀ ns due all, m.validateFrom a ns due all pos (e :: l) = some (0x10, pos, none)) ∧
    place e.idx e.sub = none ∧
    (∀ (s : State) (h : Hdr) (p : Partner), s.m.inTurn h p [e] = true →
      exec (.registerWrite h e) s = .next (s.withMod ((s.m.turned h.assoc p h.seq).send (absentReply h))))

/-- Subindex 0 of every index that the dictionary has holds the highest subindex that the index has in the reader's
profile, as one byte, and a write to it gets ACCESS (R410). -/
def Obligations.SubindexZero : Prop :=
  ∀ (idx : Nat) (f : Fam) (k : Nat), famOf idx = some (f, k) →
    (∀ (m : Mod) (a : Nat), m.readAs a idx 0 = (1, highestSub f (m.profOf a))) ∧
    (∀ prof, famProf f ≤ prof → prof ≤ 3 →
      exists_ prof idx (highestSub f prof) = 0 ∧ highestSub f prof < 256 ∧
      ∀ sub, exists_ prof idx sub = 0 → sub ≤ highestSub f prof) ∧
    (∀ (m : Mod) (a ns : Nat) (due : Tread) (all l : List Entry) (pos len v : Nat), famProf f ≤ m.profOf a →
      m.validateFrom a ns due all pos ({ idx := idx, sub := 0, len := len, val := v } :: l) = some (stAccess, pos, none)) ∧
    (∀ (m : Mod) (a : Nat) (l : List Entry) (pos : Nat), famProf f ≤ m.profOf a →
      m.readFail a pos ({ idx := idx, sub := 0 } :: l) = m.readFail a (pos + 1) l)

/-- At its boundary a plain object takes the value written: its store alone changes, with the boundary's log and the
delta of configuration (R34, R298). -/
def Obligations.PlainObjectTakesValue : Prop :=
  ∀ (m : Mod) (who a : Nat) (e : Entry),
    (m.store who a e).objs = stPut m.objs (m.writeKey a e) e.val ∧ (m.store who a e).ro = m.ro ∧
    (m.store who a e).life = m.life ∧ (m.store who a e).tracks = m.tracks ∧ (m.store who a e).hall = m.hall ∧
    (m.store who a e).field = m.field ∧ (m.store who a e).safety = m.safety ∧ (m.store who a e).axes = m.axes ∧
    (m.store who a e).staged = m.staged

/-- A track command that commits after another of the same track at its boundary is the one that acts; the earlier one
writes nothing (R40, R85). -/
def Obligations.SupersededCommandDoesNothing : Prop :=
  ∀ (m : Mod) (who : Nat) (s : Staged) (e : Entry), (m.commitCommand who s e true).1 = m

/-- What a track command does as it commits: START makes the track RUNNING from its entry point, owned by its
association, with the entry point's default landing; ABORT and FORCE_ABORT land it; PAUSE pauses it where it stands;
CONTINUE runs it again with its settle counts at 0; CLEAR makes it idle. A command that its state does not allow leaves
it alone, and no command touches another track (R75, R76, R77, R78, R86, R87). -/
def Obligations.TrackCommandsAct : Prop :=
  ∀ (m : Mod) (t a entry : Nat),
    (m.outcomeOf t 1 = 0 →
      ((m.command t 1 entry a).track t).state = 1 ∧ ((m.command t 1 entry a).track t).entryPoint = entry ∧
      ((m.command t 1 entry a).track t).owner = a ∧
      ((m.command t 1 entry a).track t).dfltLanding = bits (lookD m.bank.entries entry 0) 16 8) ∧
    (∀ c, (c = 2 ∨ c = 3) → m.outcomeOf t c = 0 →
      ((m.command t c 0 a).track t).state = 3 ∧
      ((m.track t).state ≠ 3 → ((m.command t c 0 a).track t).cause = c - 1 ∧
        ((m.command t c 0 a).track t).curLanding = m.landingOf t (m.track t).step ∧
        ((m.command t c 0 a).track t).next = none)) ∧
    (m.outcomeOf t 4 = 0 → (m.command t 4 0 a).track t = { m.track t with state := 2 }) ∧
    (m.outcomeOf t 5 = 0 → ((m.command t 5 0 a).track t).state = 1 ∧
      ((m.command t 5 0 a).track t).step = (m.track t).step ∧ ((m.command t 5 0 a).track t).timer = (m.track t).timer ∧
      ((m.track t).state = 2 → ((m.command t 5 0 a).track t).countA = 0 ∧ ((m.command t 5 0 a).track t).countB = 0)) ∧
    (m.outcomeOf t 6 = 0 → ((m.command t 6 0 a).track t).state = 0) ∧
    (∀ c, m.outcomeOf t c ≠ 0 → m.command t c entry a = m) ∧
    (∀ c x, x ≠ t → (m.command t c entry a).track x = m.track x)

/-! ### The module's rhythm -/

/-- A resynchronisation that completes returns the pair to service and reports its length; one that fails is started
again, and the third failure in a row takes the pair out of service (R138, R140). -/
def Obligations.ResynchronisationEnds : Prop :=
  ∀ (s : State) (pair : Nat), s.m.life = .run → pair ≤ 1 → s.m.rov 0x2000 (3 + pair) = 1 →
    (∃ t, exec (.resynchronisationComplete pair true) s = .next t ∧ t.m.rov 0x2000 (3 + pair) = 0 ∧
      t.m.rov 0x2000 9 = (s.m.tread - (if pair = 0 then s.m.engine.startA else s.m.engine.startB)) % 256 ∧
      t.m.objs = s.m.objs ∧ t.m.loops = s.m.loops ∧ t.pending = s.pending) ∧
    (∃ t, exec (.resynchronisationComplete pair false) s = .next t ∧
      t.m.rov 0x2000 (3 + pair) =
        (if (if pair = 0 then s.m.engine.failsA else s.m.engine.failsB) + 1 < 3 then 1 else 2) ∧
      t.m.objs = s.m.objs ∧ t.m.loops = s.m.loops ∧ t.pending = s.pending)

/-- The work of a flight boundary is done once per flight: the write of the checkpoint of the flight that has ended
begins, with the delta of that flight, unless the module leaves service at this boundary, and the operating time is
counted on to this flight; its tread, its objects and what is staged stay (R17, R173, R296, R298, R376, R388). -/
def Obligations.FlightRunsOnce : Prop :=
  ∀ (s : State) (i j : FlightIn), s.m.life = .run → s.m.tread % 100 = 0 → s.m.flown ≠ some (s.m.tread / 100) →
    ∃ t, exec (.flightBoundary i) s = .next t ∧ t.m.flown = some (s.m.tread / 100) ∧ t.m.tread = s.m.tread ∧
      t.m.rov 0x1500 8 = (s.m.rov 0x1500 8 + (s.m.tread / 100 - s.m.gal.counted)) % 2 ^ counterBits 0x1500 8 ∧
      (∀ e, s.m.journal.ending = some e → s.m.leaves = false →
        ∃ w, t.m.journal.writing = some w ∧ w.flight = s.m.tread / 100 - 1 ∧ w.saved = e.1 ∧ w.requested = false ∧
          w.delta = s.m.journal.ended ∧ w.final = s.m.journal.finalDue ∧ t.m.journal.finalDue = false ∧
          t.m.journal.ending = none) ∧
      t.m.objs = s.m.objs ∧ t.m.staged = s.m.staged ∧ t.m.tracks = s.m.tracks ∧
      exec (.flightBoundary j) t = .next t

/-- A checkpoint that completes stands in the slot of its flight and is reported; a configuration copy that is written
replaces the elder of the two (R17, R52, R296, R298). -/
def Obligations.JournalWrites : Prop :=
  (∀ (s : State) (w : Slot), s.m.life = .run → s.m.journal.writing = some w →
    ∃ t, exec .checkpointComplete s = .next t ∧ look t.m.journal.slots (w.flight % 32) = some w ∧
      t.m.journal.writing = none ∧ t.m.rov 0x1200 0xD = 100 * w.flight + 99 ∧ t.m.objs = s.m.objs ∧
      t.m.tracks = s.m.tracks ∧ t.m.field = s.m.field ∧ t.m.safety = s.m.safety ∧ t.m.staged = s.m.staged) ∧
  (∀ s : State, s.m.life = .run → s.m.journal.cfgFlight ≠ 0 →
    exec .configurationCopyWrite s = .next (s.withMod (s.m.setJournal
      (if s.m.journal.copyA.ok = false ∨ (s.m.journal.copyB.ok = true ∧ s.m.journal.copyA.fc ≤ s.m.journal.copyB.fc) then
        { s.m.journal with copyA := ⟨s.m.journal.cfgFlight, s.m.journal.cfgEnd, true⟩ }
      else { s.m.journal with copyB := ⟨s.m.journal.cfgFlight, s.m.journal.cfgEnd, true⟩ }))))

/-- A tile whose wake completes is awake; a step entry that meets a gated tile waits and is counted, and goes on once
every tile it names is awake and its track is RUNNING (R21, R22, R78). -/
def Obligations.TilesAndEntries : Prop :=
  ∀ (s : State) (k : Nat), s.m.life = .run →
    (tb s.m.tiles.waking k = true →
      ∃ t, exec (.tileWakeComplete k) s = .next t ∧ t.m.tiles.awake = setBit s.m.tiles.awake k true ∧
        t.m.tiles.waking = setBit s.m.tiles.waking k false) ∧
    (∀ n x c, (s.m.track k).next = some (.enter n x c) → s.m.mustWait (.enter n x c) = true →
      ∃ t, exec (.lateWake k) s = .next t ∧
        t.m.track k = { s.m.track k with next := none, wait := some (.enter n x c) } ∧
        t.m.rov 0x1200 5 = (s.m.rov 0x1200 5 + 1) % 2 ^ 32) ∧
    (∀ tr, (s.m.track k).next = none → (s.m.track k).wait = some tr →
      ((s.m.track k).state = 1 → s.m.mustWait tr = false →
        ∃ t, exec (.lateWake k) s = .next t ∧ t.m.track k = { s.m.track k with next := some tr, wait := none }) ∧
      ((s.m.track k).state ≠ 1 ∨ s.m.mustWait tr = true → exec (.lateWake k) s = .next s))

/-! ### The stairwell -/

/-- An exit that is due in a tread is decided for the next boundary, the first of R65's list: where no fault lands the
track, through a group that has settled, group A before group B, before the duration, and through the timeout last, which
alone is taken while an entry waits for a tile. The target's entry waits on the track, or the track lands: at once for a
fault, for a timeout whose target is 0xFFFF, and where the target's CRC does not match (R60 to R66, R81). -/
def Obligations.StepExits : Prop :=
  ∀ (s : State) (k : Nat), s.m.life = .run → s.m.toEvaluate k = true →
    let e := s.m.stepE (s.m.track k).step
    let w := s.m.frozen
    let lands := fun cause => some (Trans.land (s.m.landingOf k (s.m.track k).step) cause
      (s.m.landingOk (s.m.landingOf k (s.m.track k).step)))
    let enters := fun target exit clear => if s.m.stepOk target then some (Trans.enter target exit clear) else lands 8
    let answers := fun (c : Instr) (next : Option Trans) => ∃ t, exec c s = .next t ∧ (t.m.track k).next = next ∧
      (t.m.track k).step = (s.m.track k).step ∧ (t.m.track k).state = 1 ∧ (t.m.track k).seen = some s.m.tread ∧
      t.m.objs = s.m.objs ∧ t.m.field = s.m.field ∧ t.m.loops = s.m.loops ∧ t.m.axes = s.m.axes ∧
      ∀ x, x ≠ k → t.m.track x = s.m.track x
    (w.faultOf k = false →
      ((s.m.track k).wait = none → s.m.durationDue k = true → s.m.qualifies w k 0 = false → s.m.qualifies w k 1 = false →
        answers (.stepDurationExit k) (enters (bits (wordOf e 3) 0 16) 1 0)) ∧
      (s.m.timeoutDue k = true →
        (s.m.track k).wait ≠ none ∨ (s.m.qualifies w k 0 = false ∧ s.m.qualifies w k 1 = false ∧ s.m.durationDue k = false) →
        answers (.stepTimeout k) (if bits (wordOf e 3) 16 16 = 0xFFFF then lands 3 else enters (bits (wordOf e 3) 16 16) 4 0)) ∧
      (∀ g, g ≤ 1 → (s.m.track k).wait = none → s.m.settles w k g = true → (g = 1 → s.m.qualifies w k 0 = false) →
        answers (.settleTimeReached k) (enters (bits (wordOf e 4) (16 * g) 16) (2 + g) (groupClears e g)))) ∧
    (w.faultOf k = true →
      ((s.m.track k).wait = none → s.m.durationDue k = true → answers (.stepDurationExit k) (lands 5)) ∧
      (s.m.timeoutDue k = true → answers (.stepTimeout k) (lands 5)) ∧
      ((s.m.track k).wait = none → s.m.settles w k 0 = true ∨ s.m.settles w k 1 = true →
        answers (.settleTimeReached k) (lands 5)))

/-- A decision to enter a step checks the entry's CRC: where it matches, the entry waits on its track for the next
boundary; where it does not, the track lands instead, at the landing of the step it is leaving, with cause 8, and the
entry-CRC count rises by 1, and by 1 more where the landing's own CRC fails as well (R61, R74). -/
def Obligations.DecisionsWait : Prop :=
  ∀ (m : Mod) (k step exit clear : Nat),
    (bits (wordOf (m.stepE step) 15) 0 16 = stepCrc (m.stepE step) →
      m.decideEnter k step exit clear =
        m.setTrack k { m.track k with next := some (.enter step exit clear), wait := none }) ∧
    (bits (wordOf (m.stepE step) 15) 0 16 ≠ stepCrc (m.stepE step) →
      ((m.decideEnter k step exit clear).track k).next =
        some (.land (m.landingOf k (m.track k).step) 8 (m.landingOk (m.landingOf k (m.track k).step))) ∧
      ((m.decideEnter k step exit clear).track k).step = (m.track k).step ∧
      (m.decideEnter k step exit clear).rov 0x4010 4 =
        (m.rov 0x4010 4 + (if m.landingOk (m.landingOf k (m.track k).step) then 1 else 2)) % 2 ^ 32 ∧
      (∀ x, x ≠ k → (m.decideEnter k step exit clear).track x = m.track x))

/-- Applying a pattern of a bank sets every output whose mask bit is 1 to its pattern bit, a parallel group by its
lowest-numbered member's bit; no other object changes, so an output in duty mode keeps its duty fraction; a group whose
members' bits differ adds 1 to the conflict count (R70). -/
def Obligations.PatternsApply : Prop :=
  ∀ (m : Mod) (b : Bank) (who pat : Nat), pat ≠ 0xFFFF →
    let p := lookD b.patterns pat 0
    (∀ o, o < 192 → tb (patternMask p) o = true →
      (m.applyPattern b who pat).cfg (0x3400 + m.lead o) 1 = b2n (tb p (m.lead o))) ∧
    (∀ idx sub, (∀ o, o < 192 → tb (patternMask p) o = true → okey 0 idx sub ≠ okey 0 (0x3400 + m.lead o) 1) →
      (m.applyPattern b who pat).cfg idx sub = m.cfg idx sub) ∧
    (m.applyPattern b who pat).rov 0x4010 3 =
      (m.rov 0x4010 3 + ((((onBits 192 (patternMask p)).map m.lead).eraseDups.filter fun l =>
        (m.group l).any fun o => decide (tb p o ≠ tb p l)).length)) % 2 ^ 32 ∧
    (∀ idx sub, okey 0 idx sub ≠ okey 0 0x4010 3 → (m.applyPattern b who pat).rov idx sub = m.rov idx sub)

/-- A wait step's groups are evaluated once its dwell is over: its settle counts follow them, and an exit that is due is
decided, a fault's landing first; the delayed actions that have come due apply in their order, one that sets a host event
flag sets it; a pulse that ends writes 0 to its output; a validation leaves the shadow bank valid or with the error it
found (R60, R62, R65, R67, R99). -/
def Obligations.StairwellEvents : Prop :=
  ∀ (s : State) (k : Nat), s.m.life = .run →
    (s.m.toEvaluate k = true → s.m.kindOf (s.m.track k).step = 2 →
      wordOf (s.m.stepE (s.m.track k).step) 1 < (s.m.track k).timer →
      ∃ t, exec (.waitDwellEnd k) s = .next t ∧ (t.m.track k).seen = some s.m.tread ∧
        (t.m.track k).step = (s.m.track k).step ∧ (t.m.track k).state = 1 ∧
        (t.m.track k).countA = s.m.countNow s.m.frozen k 0 ∧ (t.m.track k).countB = s.m.countNow s.m.frozen k 1 ∧
        (s.m.frozen.faultOf k = true → ∃ l ok, (t.m.track k).next = some (.land l 5 ok)) ∧
        (s.m.frozen.faultOf k = false → (s.m.track k).wait = none → s.m.qualifies s.m.frozen k 0 = true →
          s.m.stepOk (bits (wordOf (s.m.stepE (s.m.track k).step) 4) 0 16) = true →
          (t.m.track k).next = some (.enter (bits (wordOf (s.m.stepE (s.m.track k).step) 4) 0 16) 2
            (groupClears (s.m.stepE (s.m.track k).step) 0))) ∧
        t.m.objs = s.m.objs ∧ t.m.field = s.m.field ∧ ∀ x, x ≠ k → t.m.track x = s.m.track x) ∧
    ((s.m.track k).inStep = true →
      exec (.delayedAction k) s = .next (s.withMod
        ((s.m.actsUpTo k ((s.m.track k).timer - 1)).foldl (fun m i => m.applyAction m.bank k (s.m.track k).step i)
          (s.m.setTrack k { s.m.track k with acted := Max.max (s.m.track k).acted ((s.m.track k).timer - 1) }))) ∧
      (∀ i f, s.m.actsUpTo k ((s.m.track k).timer - 1) = [i] → actOp (s.m.bank.action i) = 0xD →
        actTgt (s.m.bank.action i) = 0xB60 + f → s.m.bank.operandGood (s.m.bank.action i) = true →
        ∃ t, exec (.delayedAction k) s = .next t ∧ t.m.cfg 0x4011 (f + 1) = 1 ∧
          t.m.track k = { s.m.track k with acted := Max.max (s.m.track k).acted ((s.m.track k).timer - 1) } ∧
          t.m.ro = s.m.ro ∧ t.m.field = s.m.field)) ∧
    (k < 192 → (s.m.pulses.any fun p => decide (p.out = s.m.lead k ∧ p.ends ≤ s.m.tread)) = true →
      ∃ t, exec (.pulseDoEnd k) s = .next t ∧ t.m.cfg (0x3400 + s.m.lead k) 1 = 0 ∧
        (∀ p ∈ t.m.pulses, p.out ≠ s.m.lead k) ∧ t.m.ro = s.m.ro ∧ t.m.tracks = s.m.tracks ∧ t.m.field = s.m.field) ∧
    (s.m.blockIn 16 = false → s.m.shadowState = 2 →
      let r := validateImage s.m.load (s.m.rov 0x4021 6) (s.m.cfg 0x4021 3) (s.m.cfg 0x4021 2)
      ∃ t, exec .validationEnd s = .next t ∧ t.m.rov 0x4020 7 = (if r.1.isNone then 3 else 4) ∧
        t.m.rov 0x4020 8 = (r.1.getD (0, 0, 0)).1 ∧ t.m.rov 0x4020 9 = (r.1.getD (0, 0, 0)).2.1 ∧
        t.m.rov 0x4020 0xA = (r.1.getD (0, 0, 0)).2.2 ∧ t.m.bank = s.m.bank ∧ t.m.tracks = s.m.tracks ∧ t.m.objs = s.m.objs)

/-! ### The link -/

/-- A valid frame in service: a HEARTBEAT renews its partner's life sign and does nothing else; a BYE makes its partner
leave at the next boundary and drops what it has not yet had sealed or answered; the first segment of a TRANSACT of
several is kept, one of a single segment enters its partner's sequence, and so does an IMAGE (R315, R318, R334, R337,
R338, R340). -/
def Obligations.FramesAreTaken : Prop :=
  ∀ (s : State) (f : Frame) (p : Partner),
    (s.m.validFrom 7 f p = true → exec (.heartbeat f) s = .next (s.withMod (s.m.seen f.assoc p))) ∧
    (s.m.validFrom 8 f p = true → ∀ r, r ≤ 1 → f.body = [r, 0, 0, 0] →
      ∃ t, exec (.bye f) s = .next t ∧
        look t.m.hall f.assoc = some (p.gone (2 + r) s.m.tread) ∧
        t.m.staged = s.m.staged.filter (fun x => !decide (x.assoc = f.assoc ∧ s.m.sealedTo f.off < x.due)) ∧
        t.m.reads = s.m.reads.filter (fun x => !decide (x.assoc = f.assoc)) ∧ t.m.objs = s.m.objs ∧ t.m.ro = s.m.ro ∧
        t.m.tracks = s.m.tracks) ∧
    (s.m.validFrom 4 f p = true → p.part = none → bits f.flags 5 3 + 1 ≤ s.m.segmentLimit f.assoc →
      (bits f.flags 5 3 ≠ 0 →
        exec (.transact f) s = .next (s.withMod (s.m.setPartner f.assoc 
          { p with last := s.m.tread, part := some (firstSegment f p s.m.tread) }))) ∧
      (bits f.flags 5 3 = 0 →
        exec (.transact f) s = .next (s.withMod
          ((s.m.seen f.assoc p).sequence f.assoc (wholeMessage f p s.m.tread) false f.off)))) ∧
    (s.m.validFrom 5 f p = true → ∀ k data, k < 64 → f.body.headD 0 = k →
      f.body.drop 20 = data → ofLe ((f.body.drop 2).take 2) = data.length → 20 ≤ f.body.length →
      exec (.image f) s = .next (s.withMod
        ((s.m.seen f.assoc p).sequence f.assoc (imageMessage f p k data) false f.off)))

/-- A read whose snapshot has come begins its service once, after every earlier read of a queue window that is due, and
takes its values from the committed state of the tread; when its
service ends its reply carries them, or the first entry that could not be served; a read refused because the housekeeping
processor did not deliver gives back what it claimed (R42, R43, R46, R372). -/
def Obligations.ReadsAreServed : Prop :=
  ∀ (s : State) (a seq : Nat) (r : ReadSt), s.m.life = .run → s.m.readOf a seq = some r →
    (r.begun = false → r.due ≤ s.m.tread → (r.named = true → s.m.tread = r.due) →
      ∃ t, exec (.readService a seq) s = .next t ∧ r ∉ t.m.reads ∧ (∀ x ∈ s.m.readsBefore r, x ∉ t.m.reads) ∧
        (∃ y ∈ t.m.reads, y.assoc = r.assoc ∧ y.seq = r.seq ∧ y.begun = true ∧ y.due = s.m.tread) ∧
        t.m.objs = s.m.objs ∧ t.m.hall = s.m.hall) ∧
    (r.begun = false → r.due ≤ s.m.tread → (r.named = true → s.m.tread = r.due) → s.m.readsBefore r = [] →
      (r.entries.findIdx? fun e => s.m.readBarred r.assoc e.idx e.sub) = none →
      (s.m.takeValues r.assoc r.entries).2.foldl (fun n v => n + v.1) 0 ≤ 4096 →
      replyBytes (s.m.takeValues r.assoc r.entries).2 ≤ s.m.replyLimit r.assoc →
      ∃ t, exec (.readService a seq) s = .next t ∧
        t.m.reads = s.m.reads.map (fun x => if x = r then
          { r with begun := true, due := s.m.tread, vals := (s.m.takeValues r.assoc r.entries).2,
                   claimed := (s.m.takeValues r.assoc r.entries).1.claimedSince s.m r.assoc } else x) ∧
        t.m.objs = s.m.objs ∧ t.m.ro = s.m.ro ∧ t.m.hall = s.m.hall) ∧
    (r.begun = true →
      (∀ st pos, r.fail = some (st, pos) → ∀ d,
        exec (.readServiceEnd a seq d) s = .next (s.withMod
          ((s.m.readOver r).send (readFails r a seq st pos)).flush)) ∧
      (r.fail = none → s.m.blockIn 16 = false →
        exec (.readServiceEnd a seq true) s = .next (s.withMod
          ((s.m.readOver r).finalReply (readGives r a seq) false).flush)) ∧
      (∀ pos, r.fail = none → (r.entries.findIdx? fun e => served e.idx e.sub) = some pos →
        exec (.readServiceEnd a seq false) s = .next (s.withMod
          ((r.claimed.foldl (fun m c => m.unclaimOne c.1 c.2) (s.m.readOver r)).send (readFails r a seq stIsolated pos)).flush)))

/-- A checkpoint that covers a journalled write frees its reply: none of that message's replies keeps waiting for the
journal, and what is freed is sent in its turn (R50, R52). -/
def Obligations.JournalFreesReplies : Prop :=
  ∀ (s : State) (a seq : Nat), s.m.life = .run →
    exec (.journalledReply a seq) s = .next (s.withMod ({ s.m with waiting := s.m.waiting.map fun (w : Bool × Reply) =>
      if w.1 = true ∧ w.2.assoc = a ∧ w.2.seq = seq ∧ w.2.tread ≤ s.m.rov 0x1200 0xD then (false, w.2) else w }).flush) ∧
    ∃ t, exec (.journalledReply a seq) s = .next t ∧ t.m.objs = s.m.objs ∧ t.m.ro = s.m.ro ∧ t.m.staged = s.m.staged ∧
      (∀ w ∈ t.m.waiting, w.1 = true → w.2.assoc = a → w.2.seq = seq → s.m.rov 0x1200 0xD < w.2.tread) ∧
      (∀ w ∈ t.m.waiting, (true, w.2) ∈ s.m.waiting ∨ w ∈ s.m.waiting)

/-- What waits too long is given up: segments of a message that has not become whole, a number that does not come, a
reservation, a partner that has fallen silent (R318, R320, R323, R338). -/
def Obligations.WaitsRunOut : Prop :=
  ∀ (s : State) (a : Nat), s.m.life = .run →
    (∀ p q, s.m.inHall a = some p → p.part = some q → q.since + 100 ≤ s.m.tread → q.refused = false →
      exec (.segmentDiscard a) s = .next (s.withMod ((s.m.setPartner a { p with part := none }).bump 0x1100 0xB))) ∧
    (∀ p n (off : Offset), s.m.inHall a = some p → p.firstHeld = some n → n + 100 ≤ s.m.tread →
      exec (.sequenceGap a off) s = .next (s.withMod
        (((s.m.setPartner a { p with gaps := (p.gaps + 1) % 2 ^ 32, expect := (p.expect + 1) % 2 ^ 32 }).drainHeld
          a off 1024).sequenceGap a off 1022))) ∧
    (∀ g, look s.m.reserved a = some g → g.at_ + 100000 ≤ s.m.tread →
      exec (.reservationLapse a) s = .next (s.withMod { s.m with reserved := drop s.m.reserved a })) ∧
    (∀ p off, s.m.inHall a = some p → p.agreed.cls ≠ 2 → 300 * p.heartbeat ≤ s.m.tread - p.last →
      exec (.associationLost a off) s = .next (s.withMod ((s.m.depart a 0 (s.m.sealedTo off)).bump 0x1100 0xC)))

/-- Discovery and association: a frame that is addressed to the Spasia link and whose flags are those of a whole message is
answered, with its tag and the reply flag: a HELLO by the module's own; a NEGOTIATE that can be met reserves a number for
its sender, an ASSOCIATE that is in order enters its sender in the hall; one with a reserved flag is dropped and counted,
one addressed otherwise has no effect; while the housekeeping processor is in reset all three wait; the module announces
itself on its four ports once a second; an ARP request for its address is answered (R290, R314, R315, R316, R321, R322,
R323, R325). -/
def Obligations.Associating : Prop :=
  ∀ (s : State) (src : Src) (hd : FrameHead), s.m.life = .run → src.sound = true →
    (s.m.spoken src = false → exec (.hello src hd) s = .next s ∧ (∀ r, exec (.negotiate src r hd) s = .next s) ∧
      (∀ r, exec (.associate src r hd) s = .next s)) ∧
    (s.m.spoken src = true → flagsOk hd.flags = false →
      exec (.hello src hd) s = .next (s.withMod (s.m.bump 0x1100 0xB)) ∧
      (∀ r, exec (.negotiate src r hd) s = .next (s.withMod (s.m.bump 0x1100 0xB))) ∧
      (∀ r, exec (.associate src r hd) s = .next (s.withMod (s.m.bump 0x1100 0xB)))) ∧
    (s.m.spoken src = true → flagsOk hd.flags = true → s.m.blockIn 16 = true →
      (exec (.hello src hd) s = .next (s.withMod { s.m with asks := s.m.asks ++ [.hello src hd] })) ∧
      (∀ r, exec (.negotiate src r hd) s = .next (s.withMod { s.m with asks := s.m.asks ++ [.negotiate src r hd] })) ∧
      (∀ r, exec (.associate src r hd) s = .next (s.withMod { s.m with asks := s.m.asks ++ [.associate src r hd] }))) ∧
    (s.m.spoken src = true → flagsOk hd.flags = true → s.m.blockIn 16 = false →
      (exec (.hello src hd) s = .next (s.withMod { s.m with
        out := s.m.out ++ [s.m.frameTo src (1, 0) 1 0 hd.tag 2 (s.m.helloBody src.port)] })) ∧
      (∀ r v k, negWf r = true → commonVersion r.versions = some v → s.m.lapse.freeId = some k → s.m.lapse.negStatus r = 0 →
        ∃ t g, exec (.negotiate src r hd) s = .next t ∧ look t.m.reserved k = some g ∧ g.src = src ∧ g.cls = r.cls ∧
          g.major = v.1 ∧ g.minor = v.2 ∧ g.partnerNonce = r.nonce ∧ g.at_ = s.m.tread ∧
          t.m.out = s.m.out ++ [s.m.frameTo src (1, 0) 2 0 hd.tag 2 (negBody 0 g k s.m.tread)] ∧ t.m.hall = s.m.hall ∧
          t.m.objs = s.m.objs) ∧
      (∀ r g, look s.m.reserved r.reserved = some g → sameSrc g.src src = true → s.m.assocStatus src r = 0 →
        ∃ t, exec (.associate src r hd) s = .next t ∧ look t.m.hall r.reserved = some (s.m.newPartner g r) ∧
          look t.m.reserved r.reserved = none ∧ t.m.objs = s.m.objs ∧ t.m.ro = s.m.ro ∧
          t.m.out = s.m.out ++ [s.m.frameTo src (g.major, g.minor) 3 r.reserved hd.tag 2
            (assocBody 0 r.reserved (s.m.tread + 1)
              (if s.m.authenticated g r.role then
                proof (s.m.roleKey r.role) g.partnerNonce g.moduleNonce r.reserved r.role
              else List.replicate 16 0))])) ∧
    (s.m.blockIn 16 = false → s.m.cfg 0x1100 3 ≠ 0 → s.m.reset.first ≤ s.m.tread →
      (s.m.tread - s.m.reset.first) % 100000 = 0 →
      (∀ a b, Out.send { port := 0, mac := broadcastMac } 1 a b ∉ s.m.out) →
      exec .helloAnnounce s = .next (s.withMod { s.m with
        out := s.m.out ++ (List.range 4).map fun k =>
          s.m.frameTo { port := k, mac := broadcastMac } (1, 0) 1 0 0 0 (s.m.helloBody 0xFF) })) ∧
    (∀ port ip mac, port ≤ 4 → ip ≠ 0 → s.m.ownIp port = ip →
      exec (.arpRequest port ip mac) s = .next (s.withMod { s.m with
        out := s.m.out ++ [.send { port := port, mac := mac } 256 0 (leBytes 4 ip ++ leBytes 6 (ownMac port))] }))

/-- The switch and its ring: the ring opens after three flights without the test frame and closes after three with it,
and either forgets the addresses; a frame with a wrong FCS is counted and dropped, the ring's own test frame is noted, a
blocked port takes none but a peer delay message of the P2P mode; any other teaches its source's port and is forwarded, or
answered where it measures the peer delay in that mode; an address unseen for its time is forgotten; a port's link speed is
reported (R274, R311, R312, R313, R350). -/
def Obligations.SwitchEvents : Prop :=
  ∀ s : State,
    (s.m.life = .run → s.m.rov 0x1100 0x12 = 1 → 3 ≤ s.m.switch.silentFlights →
      exec .ringOpen s = .next (s.withMod ((s.m.setSwitch { s.m.switch with table := [] }).setRo 0x1100 0x12 2))) ∧
    (s.m.life = .run → s.m.rov 0x1100 0x12 = 2 → 3 ≤ s.m.switch.goodFlights →
      exec .ringClosed s = .next (s.withMod ((s.m.setSwitch { s.m.switch with table := [] }).setRo 0x1100 0x12 1))) ∧
    (∀ f : SwFrame, s.m.switching = true → f.port < 3 → f.len ≤ 1522 →
      let measures := f.cls = 7 ∧ s.m.cfg 0x1300 9 = 2
      (f.fcsOk = false → exec (.switchFrame f) s = .next (s.withMod (s.m.bump 0x1100 0xF))) ∧
      (f.fcsOk = true → f.cls = 6 → f.own = true → exec (.switchFrame f) s = .next (s.withMod
        (if f.port = 2 then s.m.setSwitch { s.m.switch with returned := true } else s.m))) ∧
      (f.fcsOk = true → ¬(f.cls = 6 ∧ f.own = true) →
        (s.m.ringClosed = true → f.port = 2 → ¬measures → exec (.switchFrame f) s = .next s) ∧
        ((s.m.ringClosed = true → f.port ≠ 2) → ¬measures → exec (.switchFrame f) s = .next (s.withMod
          ((s.m.setSwitch (s.m.switch.learn f.src f.port s.m.tread)).forward f))) ∧
        (measures → exec (.switchFrame f) s = .next (s.withMod
          (((s.m.setSwitch (s.m.switch.learn f.src f.port s.m.tread)).peerDelay f.port f.peerDelay).answerTo
            { port := f.port, mac := f.src } 257 0 [f.ptpId]))))) ∧
    (∀ mac, s.m.life = .run →
      exec (.addressAgeOut mac) s = .next (s.withMod (s.m.setSwitch { s.m.switch with
        table := s.m.switch.table.filter fun e => !decide (e.1 = mac ∧ e.2.2 + 30000000 ≤ s.m.tread) }))) ∧
    (∀ port speed, s.m.life ≠ .off → speed ≤ 2 →
      (port < 4 → exec (.portLinkState port speed) s = .next (s.withMod
        (s.m.setRo 0x1100 0x13 (putBits (s.m.rov 0x1100 0x13) (8 * port) 8 speed)))) ∧
      (port = 4 → speed < 2 → exec (.portLinkState port speed) s = .next (s.withMod (s.m.setRo 0x3838 0xE speed))))

/-- A map that sends does so in the treads of its period and phase, or one tread late, once a tread: the image is counted
and queued for its partner (R47, R333). -/
def Obligations.ImagesAreSent : Prop :=
  ∀ (s : State) (k : Nat) (late : Bool) (p : Partner), s.m.life = .run → k < 64 → s.m.inHall (s.m.mapPartner k) = some p →
    s.m.mapState k = 1 → s.m.cfg (0x6000 + k) 1 = 0 → s.m.cfg (0x6000 + k) 3 ≠ 0 →
    (s.m.phaseTread - b2n late) % s.m.cfg (0x6000 + k) 3 = s.m.cfg (0x6000 + k) 4 → b2n late ≤ s.m.phaseTread →
    (∀ a d, Out.msg 5 a d ∈ s.m.out → d.headD 64 ≠ k) →
    ∃ t data, exec (.imageSend k late) s = .next t ∧
      t.m.out = s.m.out ++ [.msg 5 (s.m.mapPartner k) ([k, 0] ++ leBytes 2 data.length ++ leBytes 8 s.m.tread ++
        [p.imgFail, p.imgStatus] ++ leBytes 2 p.imgPos ++ leBytes 4 p.imgCount ++ data)] ∧
      data = (List.range (s.m.cfg (0x6000 + k) 5)).flatMap (fun i =>
        let e := s.m.cfg (0x6000 + k) (0x10 + i)
        let v := s.m.readAs (s.m.mapPartner k) (e % 65536) (bits e 16 8)
        leBytes v.1 v.2) ∧
      t.m.objs = s.m.objs ∧ t.m.hall = s.m.hall ∧ t.m.staged = s.m.staged

/-- A repetitive controller whose cycle has run past its tolerance loses its lock, which is counted (R153). -/
def Obligations.LockIsLost : Prop :=
  ∀ (s : State) (j : Nat), s.m.life = .run → s.m.lockOver j = true →
    ∃ t, exec (.lockTimeout j) s = .next t ∧ (t.m.loop j).rep.locked = false ∧ (t.m.loop j).rep.bump = true ∧
      t.m.rov (0x2A00 + j) 0x15 = (s.m.rov (0x2A00 + j) 0x15 + 1) % 2 ^ counterBits (0x2A00 + j) 0x15 ∧
      t.m.objs = s.m.objs ∧ t.m.tracks = s.m.tracks ∧ t.m.field = s.m.field

/-! ### Analog inputs and outputs -/

/-- Conversions: a result of a regular slot after slot 0 is added to the window of its input's tread and kept for the
capture slots, an injected result is kept with its tread, both under the sequence and configuration in force in the tread of
their samples and unless the converter calibrated in it; a firing that finds its converter idle starts the injected
sequence at the next edge that the sampling grid allows, and one deferred from the last tread starts at cycle 32; a window
whose last tread has passed closes with what it has and waits for the latch (R163 to R166, R168 to R170). -/
def Obligations.ConversionsRun : Prop :=
  ∀ (s : State) (c : Nat), s.m.life = .run → c < 64 → s.m.tileAwake c = true →
    (∀ slot code cycles off n, n = (if off < cycles * 125 / 8 then s.m.tread - 1 else s.m.tread) →
      let u := s.m.asOf n
      (0 < slot → slot < u.regLen c → u.regSlot c slot < 4 → s.m.calIn c n = false →
        let x := 4 * c + u.regSlot c slot
        let w := s.m.winAt x (windowEnd (u.windowLen x) (u.inForce (0x3000 + x) 4) n)
        exec (.resultLands c slot false code cycles off) s =
          .next (s.withMod (((u.sample x n cycles code).capture x n code cycles).asNow n s.m)) ∧
        (s.m.biased x n = false → w.got + 1 + w.missed < u.inForce (0x3000 + x) 2 →
          ∃ t, exec (.resultLands c slot false code cycles off) s = .next t ∧
            t.m.winAt x w.ends = { w with sum := w.sum + code, got := w.got + 1 } ∧ t.m.objs = s.m.objs ∧
            t.m.tracks = s.m.tracks ∧ t.m.field = s.m.field)) ∧
      (slot < u.injLen c → u.injSlot c slot < 4 → s.m.injCal c n = false →
        let x := 4 * c + u.injSlot c slot
        exec (.resultLands c slot true code cycles off) s =
          .next (s.withMod (((u.injected x n code cycles).capture x n code cycles).asNow n s.m)) ∧
        (s.m.biased x n = false →
          ∃ t, exec (.resultLands c slot true code cycles off) s = .next t ∧
            t.m.rov (0x3000 + x) 0xF = (u.inputValue x (Dy.ofInt code)).1 ∧ t.m.rov (0x3000 + x) 0x10 = n ∧
            t.m.objs = s.m.objs ∧ t.m.tracks = s.m.tracks ∧ t.m.field = s.m.field))) ∧
    (∀ source falling off, s.m.convCal c = false → off < 10000 → s.m.firingMeets c source falling = true → 0 < s.m.injLen c →
      (s.m.conv c).asked = [] → (s.m.conv c).reqAt ≠ some (cycleOf off) → s.m.checkRuns c off = false →
      (s.m.convTo c off).inj = 0 → 125 * (s.m.convTo c off).free ≤ 8 * off → firstEdge off + 32 * s.m.injLen c ≤ 608 →
      ∃ t, exec (.injectedFiring c source falling off) s = .next t ∧ (t.m.conv c).inj = 2 ∧
        (t.m.conv c).injEnd = firstEdge off + 32 * s.m.injLen c ∧ (t.m.conv c).free = firstEdge off + 32 * s.m.injLen c ∧
        (t.m.conv c).reqAt = some (cycleOf off) ∧ t.m.objs = s.m.objs ∧ t.m.inputs = s.m.inputs) ∧
    ((s.m.conv c).inj = 4 → s.m.convCal c = false →
      exec (.injectedDeferredStart c) s = .next (s.withMod (s.m.setConv c { s.m.conv c with
        inj := 2, injEnd := 32 + 32 * s.m.injLen c, free := 32 + 32 * s.m.injLen c }))) ∧
    (∀ x w, x < 256 → s.m.dueWin x = some w →
      ∃ t, exec (.averageWindowComplete x) s = .next t ∧
        (t.m.inp x).wins = (s.m.inp x).wins.filter (fun v => !decide (v.ends = w.ends)) ∧
        ((s.m.inp x).since + s.m.windowLen x ≤ w.ends + 1 → (s.m.inp x).pend = none →
          ∃ p, (t.m.inp x).pend = some p ∧ p.tread = w.ends ∧ p.count = s.m.inForce (0x3000 + x) 2 ∧
            p.r = (let lack := s.m.inForce (0x3000 + x) 2 - (w.got + w.missed)
                   let sum := w.sum + (lack : Int) * (s.m.inp x).last
                   let sh := s.m.inForce (0x3000 + x) 3
                   if sh = 0 then sum else (sum + (2 ^ (sh - 1) : Nat)) / (2 ^ sh : Nat))) ∧
        t.m.objs = s.m.objs ∧ t.m.ro = s.m.ro ∧ t.m.tracks = s.m.tracks)

/-- Calibrations and checks end: a skew calibration passes where no residual is beyond 500 ps and then keeps its worst
one; a calibration of a converter keeps its result and its tread; a background check reports its deviation and counts
failures in a row; an open-wire scan compares with its limit; an output group's readback is reported and compared
(R174 to R181, R187). -/
def Obligations.CalibrationsEnd : Prop :=
  ∀ s : State, s.m.life = .run →
    (∀ trims residuals, s.m.rov 0x3190 2 = 1 →
      let worst := residuals.foldl (fun (w : Int) (p : Nat × Int) => if w.natAbs < p.2.natAbs then p.2 else w) 0
      ∃ t, exec (.skewCalibrationEnd trims residuals) s = .next t ∧
        t.m.rov 0x3190 2 = (if worst.natAbs ≤ 500 then 2 else 3) ∧ t.m.rov 0x3190 3 = s.m.tread ∧
        (worst.natAbs ≤ 500 → t.m.rov 0x3190 4 = ofSigned 16 worst)) ∧
    (∀ c pass coeffs, c < 64 → (s.m.conv c).calSince.isSome = true →
      ∃ t, exec (.calibrationEnd c pass coeffs) s = .next t ∧ (t.m.conv c).calSince = none ∧
        t.m.rov (0x3100 + c) 0xA = (if pass then 2 else 3) ∧ t.m.rov (0x3100 + c) 0xB = s.m.tread ∧
        (pass = false → t.m.calDue = s.m.calDue) ∧ t.m.tracks = s.m.tracks ∧ t.m.field = s.m.field ∧ t.m.loops = s.m.loops) ∧
    (∀ c q, c < 64 → 10 * (c % 8) ≤ s.m.tread % 100 → s.m.tread % 100 ≤ 10 * (c % 8) + 9 →
      (s.m.conv c).checked ≠ some (s.m.tread / 100) → (s.m.conv c).abandoned ≠ some s.m.tread →
      s.m.dacManual (c / 8) = false → s.m.tileAwake c = true → s.m.convCal c = false →
      let dev := ((Dy.ofInt (10 * q)).mul ⟨1, -17⟩).sub (s.m.dacLevel (c / 8))
      ∃ t, exec (.backgroundCheck c (some q)) s = .next t ∧ (t.m.conv c).checked = some (s.m.tread / 100) ∧
        (t.m.conv c).fails = (if dev.abs.le (f32D (s.m.cfg 0x3190 7)) then 0 else (s.m.conv c).fails + 1) ∧
        t.m.objs = s.m.objs) ∧
    (∀ tile code y, look s.m.scans tile = some (y, s.m.tread / 100) → 90 ≤ s.m.tread % 100 → s.m.tread % 100 ≤ 92 →
      s.m.dacManual tile = false →
      exec (.openWireScan tile code) s = .next (s.withMod ((s.m.setRoBit (0x3000 + y) 8 8 true).flagInput y 7
        (((f32D (s.m.cfg 0x3190 9)).mul ⟨1, 18⟩).lt (Dy.ofInt (code - (s.m.inp y).last).natAbs))))) ∧
    (∀ g v, g < 8 → s.m.field.fallIn = false →
      ∃ t, exec (.aoReadback g v) s = .next t ∧ t.m.rov (0x3200 + (8 * g + s.m.tread / 100 % 8)) 4 = v ∧
        t.m.objs = s.m.objs ∧ t.m.field = s.m.field)

/-- A background check that is due passes when its result lies within the check limit of the DAC's level, and keeps its
deviation; a check that passes ends a run of failures, one that fails lengthens it (R178, R179). -/
def Obligations.BackgroundChecksJudge : Prop :=
  ∀ (s : State) (c : Nat) (q : Int), s.m.life = .run → c < 64 → 10 * (c % 8) ≤ s.m.tread % 100 →
    s.m.tread % 100 ≤ 10 * (c % 8) + 9 → (s.m.conv c).checked ≠ some (s.m.tread / 100) →
    (s.m.conv c).abandoned ≠ some s.m.tread → s.m.dacManual (c / 8) = false → s.m.tileAwake c = true →
    s.m.convCal c = false →
    let dev := ((Dy.ofInt (10 * q)).mul ⟨1, -17⟩).sub (s.m.dacLevel (c / 8))
    ∃ t, exec (.backgroundCheck c (some q)) s = .next t ∧ t.m.rov (0x3100 + c) 8 = toF32 dev ∧
      (dev.abs.le (f32D (s.m.cfg 0x3190 7)) = true → (t.m.conv c).fails = 0 ∧ tb (t.m.rov (0x3100 + c) 7) 0 = false) ∧
      (dev.abs.le (f32D (s.m.cfg 0x3190 7)) = false → (t.m.conv c).fails = (s.m.conv c).fails + 1 ∧
        ((s.m.conv c).fails = 2 → tb (t.m.rov (0x3100 + c) 7) 0 = true)) ∧
      t.m.objs = s.m.objs ∧ t.m.tracks = s.m.tracks

/-! ### Field side -/

/-- Inputs and paths: a level that has held for its input's debounce time is taken and a rise counted; a duty output's
period starts on the main path; a side whose frames have failed in the three treads before and fails again takes the
fall-back path, and the thousandth good frame in a row brings it back (R188, R192, R193, R194, R195). -/
def Obligations.PathsAndInputs : Prop :=
  ∀ s : State, s.m.field.powered = true →
    (∀ i level samples, i < 192 → tb s.m.field.di i ≠ decide (level = 1) →
      s.m.inForce (0x3300 + i) 1 ≤ s.m.heldSamples i samples →
      exec (.debounceChange i { level := level, samples := samples }) s = .next (s.withMod
        (let m := { s.m with field := { s.m.field with di := setBit s.m.field.di i (decide (level = 1)) } }
         if level = 1 then m.bump (0x3300 + i) 5 else m))) ∧
    (∀ o k, s.m.life = .run → o < 192 → s.m.isDuty o = true → s.m.field.fallOut = false → tb s.m.field.image.dos o = true →
      s.m.phaseTread % Max.max 1 (s.m.cfg (0x3400 + o) 4) = 0 →
      let on := decide (0 < dutyCount (lookD s.m.field.image.duty o 0) (Max.max 1 (s.m.cfg (0x3400 + o) 4)))
      exec (.dutyPeriodStart { o := o, treads := k }) s = .next (s.withMod
        ({ s.m with field := { s.m.field with dutyOn := setBit s.m.field.dutyOn o on } } : Mod).setLevels)) ∧
    (s.m.field.fallOut = false → 3 ≤ s.m.field.badOut →
      ∃ t, exec (.fallbackSwitch 0) s = .next t ∧ t.m.field.fallOut = true ∧ t.m.field.goodOut = 0 ∧
        t.m.objs = s.m.objs ∧ t.m.tracks = s.m.tracks) ∧
    (s.m.field.fallIn = false → 3 ≤ s.m.field.badIn →
      ∃ t, exec (.fallbackSwitch 1) s = .next t ∧ t.m.field.fallIn = true ∧ t.m.snapFault = 63 ∧
        t.m.field.snapDi = s.m.field.diRaw ∧ t.m.objs = s.m.objs ∧ t.m.tracks = s.m.tracks) ∧
    (s.m.field.fallOut = true → 999 ≤ s.m.field.goodOut →
      ∃ t, exec (.mainPathReturn 0) s = .next t ∧ t.m.field.fallOut = false ∧ t.m.field.badOut = 0 ∧
        t.m.field.di = s.m.field.diRaw ∧ t.m.field.dutyOn = 0 ∧ t.m.objs = s.m.objs ∧ t.m.ro = s.m.ro) ∧
    (s.m.field.fallIn = true → 999 ≤ s.m.field.goodIn →
      ∃ t, exec (.mainPathReturn 1) s = .next t ∧ t.m.field.fallIn = false ∧ t.m.field.badIn = 0 ∧
        t.m.objs = s.m.objs)

/-- Loss of the logic side and of supply: once their hold window is over the analog outputs that held stand at their fail
values and the banks whose window is over are marked so; when the hold-up is exhausted the module is off and drives
nothing; in standby the last images are applied again (R203, R204, R205, R307, R343, R392). -/
def Obligations.HoldRunsOut : Prop :=
  ∀ s : State,
    (∀ ms, s.m.field.powered = true → s.m.holdOver ms = true →
      ∃ t, exec (.holdWindowExpiry ms) s = .next t ∧
        (s.m.aoOver ms = true → t.m.field.aoFailed = true ∧ t.m.field.aoVal = s.m.field.failAo) ∧
        (s.m.aoOver ms = false → t.m.field.aoFailed = s.m.field.aoFailed ∧ t.m.field.aoVal = s.m.field.aoVal) ∧
        t.m.field.doFailed = orBits s.m.field.doFailed (s.m.banksOver ms) ∧
        t.m.field.holdValid = false ∧ t.m.objs = s.m.objs ∧ t.m.tracks = s.m.tracks) ∧
    (∃ t, exec .holdUpExhausted s = .next t ∧ t.m.life = .off ∧ t.m.unsupplied = true) ∧
    (s.m.field.powered = true → s.m.life = .standby ∨ s.m.life = .waking →
      exec .safImageRepeat s = .next (s.withMod (s.m.latchImage s.m.field.image).setLevels))

/-- Bank supplies: a sag latches the bank off unless a safety cut has; a supply below 19.2 V is marked for as long as it
is below, one that qualifies again lets its bank retry: at a boundary at which an image is applied to it, a bank with auto
re-enable returns from a sag, not from a cut; a switch that is too hot is marked until it has cooled and been commanded off
(R196, R197, R198, R199). -/
def Obligations.BankSupplies : Prop :=
  ∀ (s : State) (b : Nat), s.m.field.powered = true → b < 6 →
    ((s.m.fbank b).state ≠ 2 →
      exec (.supplySag b) s = .next (s.withMod
        (s.m.setFbank b { s.m.fbank b with state := 1, low := true, under := true, qualified := false }).darkPass.setLevels)) ∧
    (exec (.supplyQualified b) s = .next (s.withMod
      (s.m.setFbank b { s.m.fbank b with low := false, under := false, qualified := true }))) ∧
    (∀ mask, (s.m.autoEnable mask).fbank b =
      (if tb mask b = true ∧ s.m.cfg (0x34C0 + b) 3 = 1 ∧ (s.m.fbank b).state = 1 ∧ (s.m.fbank b).qualified = true ∧
          (s.m.fbank b).byCut = false then { s.m.fbank b with state := 0 } else s.m.fbank b)) ∧
    (exec (.bankSupplyLow b) s = .next (s.withMod
      (s.m.setFbank b { s.m.fbank b with low := true, under := true, qualified := false }))) ∧
    (exec (.bankSupplyLow b true) s = .next (s.withMod (s.m.setFbank b { s.m.fbank b with under := false }))) ∧
    (∀ i, i < 32 →
      ∃ t, exec (.switchOvertemperature (32 * b + i)) s = .next t ∧ (t.m.fbank b).hot = setBit (s.m.fbank b).hot i true ∧
        (t.m.fbank b).cooled = setBit (s.m.fbank b).cooled i false ∧ t.m.field = s.m.field ∧ t.m.objs = s.m.objs ∧
        ∀ c, c ≠ b → t.m.fbank c = s.m.fbank c) ∧
    (∀ i, i < 32 → tb (s.m.fbank b).hot i = true →
      exec (.switchCooled (32 * b + i)) s = .next (s.withMod
        (s.m.setFbank b { s.m.fbank b with cooled := setBit (s.m.fbank b).cooled i true }).coolPass))

/-- Dark tests of the digital outputs: a bank that is free, while images are applied, starts one on its next output; it
ends once its time has passed, which the field side times itself while no treads pass, and an output that read high is marked (R200, R201). -/
def Obligations.DarkTests : Prop :=
  ∀ (s : State) (b o : Nat), s.m.field.powered = true → b < 6 →
    (s.m.beating = true → (s.m.fbank b).state = 0 → (s.m.fbank b).darkOut = none → s.m.field.fallOut = false → tb s.m.field.doFailed b = false →
      (∀ l, (s.m.fbank b).darkLast = some l → l + 100 ≤ s.m.tread) → s.m.darkNext b = some o →
      ∃ t, exec (.darkTestStart b) s = .next t ∧ (t.m.fbank b).darkOut = some o ∧ (t.m.fbank b).darkSince = s.m.tread ∧
        t.m.objs = s.m.objs ∧ t.m.ro = s.m.ro) ∧
    (∀ readback, (s.m.fbank b).darkOut = some o →
      s.m.life ≠ .run ∨ s.m.cfg (0x34C0 + b) 9 < (s.m.tread - (s.m.fbank b).darkSince + 1) * 10 →
      ∃ t, exec (.darkTestEnd b readback) s = .next t ∧ (t.m.fbank b).darkOut = none ∧
        (t.m.fbank b).darkLast = some s.m.tread ∧
        (t.m.fbank b).darkBad = (if (s.m.group o).all (fun x => !tb readback x) then (s.m.fbank b).darkBad
          else setBit (s.m.fbank b).darkBad (o % 32) true) ∧
        t.m.objs = s.m.objs ∧ t.m.ro = s.m.ro)

/-! ### Safety -/

/-- The safety domain: a clock monitor that trips stops it, once; it stays in safe stop over any cycle, no output
switched on and ALIVE still; elsewhere ALIVE toggles where a keep-alive has been delivered in the cycle; two cycles of disagreement in a row stop it; a domain whose stored configuration is valid runs, another
stops; an arm lapses after ten seconds; a keep-alive that stays out stops ALIVE (R208, R210, R211, R212, R343). -/
def Obligations.SafetyDomainStates : Prop :=
  ∀ s : State, s.m.life ≠ .off →
    (s.m.safety.dom ≠ 3 →
      ∃ t, exec .clockMonitorTrip s = .next t ∧ t.m.safety.dom = 3 ∧ t.m.safety.alive = false ∧
        ∀ p, p < 8 → (t.m.safOut p).on = false) ∧
    (∀ i, ∃ t, exec (.safetyCycle i) s = .next t ∧ t.m.safety.cycle = s.m.safety.cycle + 1 ∧
      t.m.safety.pulse = (s.m.safety.pulse + 1) % 8 ∧
      (i.disagree = false → t.m.safety.alive =
        (i.keepAlive && s.m.keepsAlive && decide (s.m.safety.dom ≠ 3))) ∧
      (s.m.safety.dom = 3 → t.m.safety.dom = 3 ∧ t.m.safety.alive = false ∧
        ∀ p, (s.m.safOut p).on = false → (t.m.safOut p).on = false) ∧
      (s.m.safety.dom = 1 → i.disagree = true → 1 ≤ s.m.safety.disagree →
        t.m.safety.dom = 3 ∧ ∀ p, p < 8 → (t.m.safOut p).on = false)) ∧
    (s.m.safety.dom = 2 ∨ (s.m.safety.dom = 0 ∧ s.m.safety.storedOk = true) →
      exec .safetyDomainRunning s = .next (s.withMod
        ({ s.m with safety := { s.m.safety with dom := 1, cutHold := 0 } } : Mod).cutPass)) ∧
    (s.m.safety.dom = 0 → s.m.safety.storedOk = false →
      ∃ t, exec .safetyDomainRunning s = .next t ∧ t.m.safety.dom = 3) ∧
    (∀ a, s.m.safety.arm = some a → 10000 < a.ms →
      exec .armTimeout s = .next (s.withMod (({ s.m with safety := { s.m.safety with arm := none } } : Mod).setRo 0x3500 5 0))) ∧
    (exec .keepAliveTimeout s = .next (s.withMod { s.m with safety := { s.m.safety with alive := false } }))

/-- The safety pairs: a channel whose demand level has held against its demand state for the debounce time changes that
state; a discrepancy that lasts latches its pair; a delayed switch-off takes effect; an output that fails off, or a
degraded window that runs out, latches its pair; a dark test of a channel that is due, and whose readback falls within its
pulse, is passed and noted (R216 to R219, R224 to R226). -/
def Obligations.SafetyPairEvents : Prop :=
  ∀ s : State, s.m.life ≠ .off →
    (∀ k ch n, k < 16 → ch < 2 → s.m.act (0x3510 + k) 1 ≠ 0 → ((s.m.safIn k).ch ch).held = some n →
      s.m.act (0x3510 + k) 2 ≤ n →
      exec (.safetyDebounce k ch) s = .next (s.withMod (s.m.setSafIn k ((s.m.safIn k).setCh ch
        { (s.m.safIn k).ch ch with demand := !((s.m.safIn k).ch ch).demand, held := none })))) ∧
    (∀ k, k < 16 → s.m.act (0x3510 + k) 1 ≠ 0 → (s.m.safIn k).latched = false →
      (s.m.safIn k).a.demand ≠ (s.m.safIn k).b.demand → s.m.act (0x3510 + k) 3 < (s.m.safIn k).discrepancy →
      ∃ t, exec (.discrepancyFault k) s = .next t ∧ t.m.safIn k = { s.m.safIn k with fault := 5, latched := true, left := 0 } ∧
        t.m.safety.outputs = s.m.safety.outputs ∧ t.m.objs = s.m.objs) ∧
    (∀ p, p < 8 → (s.m.safOut p).on = true → (s.m.safOut p).delay = some 0 →
      ∃ t, exec (.offDelayExpiry p) s = .next t ∧ (t.m.safOut p).on = false ∧ (t.m.safOut p).delay = none ∧
        ((s.m.safOut p).needRestart = true ∨ s.m.act (0x3530 + p) 3 = 0 → (t.m.safOut p).needRestart = true) ∧
        t.m.safety.inputs = s.m.safety.inputs ∧ t.m.objs = s.m.objs) ∧
    (∀ p ch, p < 8 → ch < 2 → (s.m.safOut p).on = true → (s.m.safOut p).latched = false →
      ((s.m.safOut p).ch ch).fault = false → 2 ≤ ((s.m.safOut p).ch ch).low →
      ∃ t, exec (.outputFailsOff p ch) s = .next t ∧ (t.m.safOut p).on = false ∧ (t.m.safOut p).latched = true ∧
        (t.m.safOut p).fault = (if (s.m.safOut p).faulted then 12 else 9 + ch) ∧ ((t.m.safOut p).ch ch).fault = true ∧
        t.m.safety.inputs = s.m.safety.inputs ∧ t.m.objs = s.m.objs) ∧
    (∀ k, k < 16 → (s.m.safIn k).latched = false → (s.m.safIn k).left = 0 → (s.m.safIn k).faulted = true →
      ∃ t, exec (.degradedWindowExpiry 0 k) s = .next t ∧ t.m.safIn k = { s.m.safIn k with fault := 6, latched := true } ∧
        t.m.safety.outputs = s.m.safety.outputs ∧ t.m.objs = s.m.objs) ∧
    (∀ p, p < 8 → (s.m.safOut p).latched = false → (s.m.safOut p).left = 0 → (s.m.safOut p).faulted = true →
      ∃ t, exec (.degradedWindowExpiry 1 p) s = .next t ∧ (t.m.safOut p).on = false ∧ (t.m.safOut p).latched = true ∧
        (t.m.safOut p).fault = 6 ∧ t.m.safety.inputs = s.m.safety.inputs ∧ t.m.objs = s.m.objs) ∧
    (∀ p ch us, p < 8 → ch < 2 → (s.m.safOut p).on = true → ((s.m.safOut p).ch ch).fault = false →
      (s.m.safOut p).testDue ch (s.m.act (0x3530 + p) 7 * 1000) s.m.safety.cycle = true →
      s.m.safety.lastTest ≠ some s.m.safety.cycle → us < s.m.act (0x3530 + p) 8 →
      ∃ t, exec (.safeOutputDarkTest p ch (some us)) s = .next t ∧
        t.m.safOut p = (s.m.safOut p).setCh ch { (s.m.safOut p).ch ch with test := some s.m.safety.cycle } ∧
        t.m.safety.lastTest = some s.m.safety.cycle ∧ t.m.objs = s.m.objs ∧ t.m.ro = s.m.ro)

/-! ### Axes -/

/-- Axes: a stage that does not answer is counted; an answer's status takes effect two treads on; a path that has run
out leaves the axis at rest on its last position; an axis that has stood still for its hold delay, counted in treads from
the frame in which it last moved, takes its hold current
(R234, R235, R238, R240, R244). -/
def Obligations.AxisEvents : Prop :=
  ∀ (s : State) (a : Nat), s.m.life = .run →
    (a < 32 → tb (s.m.cfg (0x3640 + a / 8) 1) (a % 8) = true → tb s.m.tiles.awake (8 + a / 8) = true →
      s.m.blockIn (8 + a / 8) = false →
      (exec (.stageReturn a none) s = .next (s.withMod
        (let m := (s.m.setAxis a { s.m.axis a with silent := satAdd 4 (s.m.axis a).silent 1, differ := 0 }).bump (0x3640 + a / 8) 4
         if a % 8 = lastStage (s.m.cfg (0x3640 + a / 8) 1) then m.judgeLink (a / 8) else m))) ∧
      (∀ w st, returnStatus a w = some st → s.m.tread % 2 = b2n (slotLate (a % 8)) →
        ∃ t, exec (.stageReturn a (some w)) s = .next t ∧ (t.m.axis a).silent = 0 ∧
          (t.m.axis a).statusDue = some (2 * (s.m.tread / 2) + 2, st) ∧ t.m.objs = s.m.objs ∧
          (a % 8 ≠ lastStage (s.m.cfg (0x3640 + a / 8) 1) → (t.m.link (a / 8)).answered = true))) ∧
    (((s.m.axis a).state = 2 ∨ (s.m.axis a).state = 3 ∨ (s.m.axis a).state = 4) → (s.m.axis a).replan = false →
      planTime (s.m.axis a).plan - planSlack ≤ treadTime (s.m.axis a).clock →
      ∃ t, exec (.planComplete a) s = .next t ∧ (t.m.axis a).mot = ⟨(s.m.axis a).mot.y, 0, 0⟩ ∧ (t.m.axis a).queue = [] ∧
        (t.m.axis a).state = (if (s.m.axis a).state ≠ 2 ∧ (s.m.axis a).stopFault ≠ 0 then 5 else 1) ∧
        t.m.objs = s.m.objs ∧ t.m.ro = s.m.ro ∧ ∀ b, b ≠ a → t.m.axis b = s.m.axis b) ∧
    ((look s.m.axes a).isSome = true → (s.m.axis a).state ≠ 2 → (s.m.axis a).state ≠ 3 → (s.m.axis a).state ≠ 4 →
      (s.m.axis a).moving = false → (s.m.axis a).still + s.m.cfg (0x3600 + a) 0x10 * 100 ≤ s.m.tread →
      exec (.holdDelayExpiry a) s = .next (s.withMod (s.m.setAxis a { s.m.axis a with holdCurrent := true })))

/-! ### Recording -/

/-- Recording: a block that is full, or has reached its age or the end of its map, closes with the treads that are
complete; a block that drains enters the ring under the next sequence number, after those that closed before it; a packet
of at most 1 024 bytes enters the chain of its stream, or is dropped and counted (R256, R260, R261, R272, R273). -/
def Obligations.RecordingEvents : Prop :=
  ∀ (s : State) (k : Nat), s.m.life = .run →
    (∀ first, k ≤ 6 → (s.m.stream k).first = some first →
      s.m.blockFull k = true ∨ s.m.blockEnd k first + lagOf k ≤ s.m.tread + 1 →
      exec (.blockClose k) s = .next (s.withMod (s.m.closeBlock k (s.m.tread - lagOf k) false))) ∧
    (∀ b, k ≤ 6 → b.stream < 6 → (s.m.stream k).drain = some b → s.m.drainsTo b.no = [k] →
      ∃ t, exec (.ringWrite k) s = .next t ∧ look t.m.record.ring s.m.record.next = some b ∧
        t.m.record.next = s.m.record.next + 1 ∧ (t.m.stream k).drain = none ∧ (t.m.stream k).ringExpect = b.next ∧
        (b.gap = 0 → (t.m.stream b.stream).gaps = (s.m.stream b.stream).gaps) ∧
        (b.gap ≠ 0 → (t.m.stream b.stream).gaps = (s.m.stream b.stream).gaps + 1) ∧
        t.m.objs = s.m.objs) ∧
    (∀ words tail, words.length ≤ 256 → 1 ≤ tail → tail ≤ 4 →
      exec (.chainPacket 2 words tail) s = .next (s.withMod
        (let m := { s.m with chain2 := (s.m.chain2.enter s.m.tread words tail).1 }
         if (s.m.chain2.enter s.m.tread words tail).2 then m.bump 0x3860 1 else m)) ∧
      exec (.chainPacket 4 words tail) s = .next (s.withMod
        (let m := { s.m with chain4 := (s.m.chain4.enter s.m.tread words tail).1 }
         if (s.m.chain4.enter s.m.tread words tail).2 then m.bump 0x3860 2 else m)))

/-- The data port sends the next block of the ring while it runs, after a gap notice where that block has been
overwritten, which counts the blocks lost; and one status frame in every hundredth flight; a
pause frame holds it for its quanta of 512 bit times (R274, R275, R276). -/
def Obligations.DataPortSends : Prop :=
  ∀ s : State, s.m.life = .run →
    (∀ b, s.m.portRuns = true → s.m.ringOldest ≤ s.m.rov 0x3838 0xF → look s.m.record.ring (s.m.rov 0x3838 0xF) = some b →
      exec .dpSend s = .next (s.withMod
        ((s.m.sendBlock (s.m.rov 0x3838 0xF) b.bytes).setRo 0x3838 0xF (s.m.rov 0x3838 0xF + 1)))) ∧
    (s.m.portRuns = true → s.m.rov 0x3838 0xF < s.m.ringOldest →
      ∃ t, exec .dpSend s = .next t ∧ s.m.ringOldest ≤ t.m.rov 0x3838 0xF ∧
        t.m.rov 0x3838 0xD = (s.m.rov 0x3838 0xD + (s.m.ringOldest - s.m.rov 0x3838 0xF)) % 2 ^ counterBits 0x3838 0xD ∧
        (∀ q ∈ t.m.record.ring, s.m.ringOldest ≤ q.1) ∧ t.m.objs = s.m.objs) ∧
    (s.m.portRuns = true → s.m.tread / 100 % 100 = 0 → s.m.record.status ≠ some (s.m.tread / 100) →
      exec .dpStatus s = .next (s.withMod
        ((s.m.setRecord { s.m.record with status := some (s.m.tread / 100) }).dpFrame 4 4 (s.m.record.next - 1)
          (leBytes 8 s.m.tread ++ leBytes 8 s.m.ringOldest)))) ∧
    (∀ quanta, s.m.cfg 0x3838 0xB = 1 →
      exec (.pauseFrame quanta) s = .next (s.withMod (s.m.setRecord { s.m.record with
        pausedTo := s.m.tread + (quanta % 65536 * 512 + 99999) / 100000 })))

/-- Triggers: an armed trigger whose condition holds fires, is counted and keeps its tread; its hold-off by time ends in
the armed state; a capture window that has passed its last tread closes and frees its place, and a trigger that waits
for it is done, armed again or in hold-off (R278, R279, R280, R281). -/
def Obligations.TriggerEvents : Prop :=
  ∀ (s : State) (k : Nat), s.m.life = .run → k < 8 →
    (∀ off raw falling,
      let m := if s.m.trigCfg k 1 = 5 then s.m.trgEdge (s.m.trigCfg k 8 % 4) falling else s.m
      s.m.blockIn 14 = false → (s.m.trig k).fired ≠ some s.m.tread → m.trigMeets k raw falling = true → m.trigState k = 1 →
      exec (.triggerFire k off raw falling) s = .next (s.withMod
        (m.fireTrigger k off (raw.isSome && decide (m.trigCfg k 3 ≠ 0xFF))))) ∧
    (s.m.trigState k = 3 → s.m.trigCfg k 0xB = 1 → (s.m.trig k).holdFrom + s.m.trigCfg k 0xC ≤ s.m.tread →
      exec (.holdOffEnd k) s = .next (s.withMod (s.m.setRo (0x3840 + k) 0xF 1))) ∧
    (∀ w, (s.m.record.windows.find? fun w => decide (w.trig = k ∧ w.last < s.m.tread)) = some w →
      ∃ t, exec (.captureWindowClose k) s = .next t ∧
        t.m.record.windows = s.m.record.windows.filter (fun x => !decide (x = w)) ∧
        (t.m.stream w.slot).first = none ∧ (t.m.trig k).taken = (s.m.trig k).taken + 1 ∧ t.m.objs = s.m.objs ∧
        t.m.trigState k = (if s.m.trigState k ≠ 2 then s.m.trigState k
          else if s.m.trigCfg k 0xD ≠ 0 ∧ s.m.trigCfg k 0xD ≤ (s.m.trig k).taken + 1 then 4
          else if s.m.trigCfg k 0xB = 0 ∨ s.m.trigCfg k 0xC = 0 then 1 else 3))

/-! ### Resets, bring-up and supply -/

/-- What resets do: the module is held and the cause reported; a power-on reset forgets the hall and the tracks, whatever
the module was doing, and keeps the gallery; a logic reset drops what was staged, read and waiting; a brownout that nothing
bridges is a loss of power; a pair whose PLL loses its lock miscompares in the tread, and the other takes over, unless it is
out of service itself (R284, R285, R287, R288, R291, R385, R386, R398). -/
def Obligations.ResetsHold : Prop :=
  ∀ s : State,
    (∀ straps stored, ∃ t, exec (.powerOnReset straps stored) s = .next t ∧ t.m.life = .held ∧ t.m.rov 0x1400 1 = 1 ∧
      t.m.hall = [] ∧ t.m.tracks = [] ∧ t.m.staged = [] ∧
      t.m.rov 0x1400 0xD = straps.bootsel % 4 + 4 * (straps.clkmode % 4) ∧
      t.m.gal.recs = s.m.gal.recs ∧ t.m.safety.dom = 0) ∧
    (s.m.life ≠ .off →
      (∀ ns us, 2000 < ns →
        (tb (s.m.rov 0x1400 0x2F) 1 = false → ∃ t, exec (.brownout ns us) s = .next t ∧ t.m.life = .held ∧
          t.m.rov 0x1400 1 = 2 ∧ t.m.staged = [] ∧ t.m.reads = [] ∧ t.m.waiting = []) ∧
        (tb (s.m.rov 0x1400 0x2F) 1 = true → ∃ t, exec (.brownout ns us) s = .next t ∧ t.m.life = .off ∧
          t.m.unsupplied = true ∧ t.m.gal.recs = s.m.gal.recs)) ∧
      (∀ n, 50 ≤ n → ∃ t, exec (.resetN n) s = .next t ∧ t.m.life = .held ∧ t.m.rov 0x1400 1 = 3 ∧ t.m.staged = [] ∧
        t.m.reads = [] ∧ t.m.waiting = [])) ∧
    (s.m.life = .run →
      (∀ n, 3 ≤ n → ∃ t, exec (.fabricWatchdog n) s = .next t ∧ t.m.life = .held ∧ t.m.rov 0x1400 1 = 4 ∧ t.m.staged = [] ∧
        t.m.reads = [] ∧ t.m.waiting = []) ∧
      (∀ cause flag n, s.m.reset.request = some (cause, flag, n) → s.m.tread % 100 = 0 → n < s.m.tread →
        ∃ t, exec .requestedResetHold s = .next t ∧ t.m.life = .held ∧ t.m.rov 0x1400 1 = cause ∧ t.m.reset.flag = flag ∧
          t.m.reset.request = none ∧ t.m.staged = [])) ∧
    (s.m.switching = true →
      (∀ d more, 2 ≤ d → d ≤ 6 → ∃ t, exec (.pllLockLoss d more) s = .next t ∧ t.m.life = .held ∧ t.m.rov 0x1400 1 = 4) ∧
      (∀ pair more, pair ≤ 1 →
        (s.m.life ≠ .run ∨ s.m.rov 0x2000 (3 + pair) ≠ 0 → exec (.pllLockLoss pair more) s = .next (s.withMod { s.m with
          engine := if pair = 0 then { s.m.engine with forceA := more } else { s.m.engine with forceB := more } })) ∧
        (s.m.life = .run → s.m.rov 0x2000 (3 + pair) = 0 → s.m.rov 0x2000 (4 - pair) = 0 →
          ∃ t, exec (.pllLockLoss pair more) s = .next t ∧ t.m.life = .run ∧ t.m.rov 0x2000 (3 + pair) ≠ 0 ∧
            t.m.rov 0x2000 2 = (if s.m.rov 0x2000 2 = pair then 1 - pair else s.m.rov 0x2000 2) ∧
            (if pair = 0 then t.m.engine.forceA else t.m.engine.forceB) = more ∧ t.m.objs = s.m.objs ∧
            t.m.field = s.m.field) ∧
        (s.m.life = .run → s.m.rov 0x2000 (3 + pair) = 0 → s.m.rov 0x2000 (4 - pair) ≠ 0 →
          ∃ t, exec (.pllLockLoss pair more) s = .next t ∧ t.m.life = .held ∧ t.m.rov 0x1400 1 = 5)) ∧
      (∀ more, exec (.pllLockLoss 7 more) s = .next (s.withMod (s.m.setRo 0x1100 0x13 0))) ∧
      (∀ more, exec (.pllLockLoss 8 more) s = .next (s.withMod (s.m.setRo 0x3838 0xE 0))))

/-- The way back to service: a release leaves the module ready two treads before its first boundary, a whole flight; a
start from P3 waits for signed firmware; the preparation tread runs before boundary N, and the tread before N is the
last one (R291 to R295). -/
def Obligations.BringUpProceeds : Prop :=
  ∀ (s : State) (b : BringUp),
    (s.m.life = .held → s.m.reset.needP3 = false → (s.m.reset.bootsel ≠ 1 ∨ factoryOptions b = true) →
      ∃ t, exec (.resetRelease b) s = .next t ∧ t.m.life = .ready ∧ t.m.reset.first % 100 = 0 ∧ b.now < t.m.reset.first ∧
        t.m.tread + 2 = t.m.reset.first ∧ t.m.reset.needP3 = false) ∧
    (s.m.life = .held → s.m.reset.needP3 = false → s.m.reset.bootsel = 1 → factoryOptions b = false →
      ∃ t, exec (.resetRelease b) s = .next t ∧ t.m.life = .held ∧ t.m.reset.needP3 = true) ∧
    (s.m.life = .held → s.m.reset.needP3 = true →
      ∃ t, exec (.firmwareOverP3 true b) s = .next t ∧ t.m.life = .ready ∧ t.m.reset.first % 100 = 0 ∧
        b.now < t.m.reset.first ∧ t.m.tread + 2 = t.m.reset.first ∧ t.m.reset.needP3 = false) ∧
    (s.m.life = .ready →
      ∃ t, exec .preparationTread s = .next t ∧ t.m.life = .prepared ∧ t.m.tread = s.m.reset.first - 1)

/-- Failing supplies and blocks: PFAIL low for 10 us makes the next checkpoint the final one; its rise ends the brownout
and is recorded with its length; a charged hold-up bank is reported; a housekeeping processor that hangs is reset, which
refuses the writes that need it, those sealed already apart, and leaves the others and the reads whose service has begun; a block leaves its reset at the end
of it (R54, R285, R289, R290, R309, R386). -/
def Obligations.SupplyAndBlocks : Prop :=
  ∀ s : State,
    (s.m.life ≠ .off →
      (∀ us, 10 ≤ us → s.m.journal.pfail = none →
        exec (.pfailFall us) s = .next (s.withMod (s.m.setJournal { s.m.journal with pfail := some s.m.tread, finalDue := true }))) ∧
      (∀ us n, s.m.journal.pfail = some n →
        exec (.pfailRise us) s = .next (s.withMod
          ((s.m.setJournal { s.m.journal with pfail := none }).logGal 0x061 0 [us]))) ∧
      (exec .vhuCharged s = .next (s.withMod (s.m.setRo 0x1400 0x2F (setBit (s.m.rov 0x1400 0x2F) 1 false))))) ∧
    (s.m.switching = true → s.m.blockIn 16 = false → ∀ off : Offset,
      ∃ t, exec (.housekeepingWatchdog off) s = .next t ∧ t.m.blockIn 16 = true ∧ t.m.objs = s.m.objs ∧
        t.m.tracks = s.m.tracks ∧ t.m.field = s.m.field ∧
        (∀ x, x ∈ t.m.staged ↔ x ∈ s.m.staged ∧
          ((s.m.enterBlock 16).isolatedAt x.entries = none ∨ x.due ≤ s.m.sealedTo off)) ∧
        (∀ x ∈ s.m.reads, x.begun = true → x ∈ t.m.reads)) ∧
    (s.m.life = .run →
      (∀ bit, bit < 18 → s.m.blockIn bit = true →
        exec (.blockResetEnd bit) s = .next (s.withMod (s.m.leaveBlock bit).serveAsks)))

/-! ### Timebase -/

/-- The timebase: on a port, of the domain and over the transport that are set, a Sync of the selected master gives the
offset, with the path delay of the mechanism in use; the first one sets the time, at a flight boundary (that it never moves
it back is log entry 27's choice); an offset beyond a second marks the master behind; an ANNOUNCE takes part in the selection, a lost master leaves it; a Follow_Up that does not come is counted; the reference
input is lost and returns (R345 to R348, R350 to R353). -/
def Obligations.TimebaseEvents : Prop :=
  ∀ s : State,
    (s.m.life = .run →
      (∀ i : SyncIn, s.m.ptpTakes i.port i.domain i.udp = true → -7 ≤ i.interval → i.interval ≤ 1 →
        s.m.time.heard = some i.master →
        let d := if s.m.cfg 0x1300 9 = 2 then bits (s.m.rov 0x1300 0xE) (32 * i.port) 32 else i.pathDelay
        let o : Int := (i.t2 : Int) - i.t1 - i.correction - d
        ∃ t, exec (.sync i) s = .next t ∧ t.m.rov 0x1300 3 = satTo .i32 (Dy.ofInt o) ∧
          t.m.rov 0x1300 4 = Min.min d 0xFFFFFFFF ∧ t.m.tread = s.m.tread ∧ t.m.objs = s.m.objs ∧
          (s.m.time.timeSet = false → t.m.time.timeSet = true ∧ t.m.rov 0x1300 1 = 2 ∧
            (o < 0 → t.m.time.stepTo = some (flightAfter (s.m.now + o.natAbs)))) ∧
          (s.m.time.timeSet = true → 1000000000 < o → t.m.rov 0x1300 1 = 5)) ∧
      (∀ i : AnnounceIn, s.m.ptpTakes i.port i.domain i.udp = true → -3 ≤ i.interval → i.interval ≤ 4 →
        exec (.announce i) s = .next (s.withMod ((s.m.setTime { s.m.time with
          masters := (i, s.m.tread) :: s.m.time.masters.filter fun x =>
            !decide (senderOf x.1 = senderOf i ∧ x.1.portNumber = i.portNumber) }).selectMaster))) ∧
      (∀ id, s.m.time.master = some id → s.m.rov 0x1300 1 ≠ 0 → s.m.rov 0x1300 1 ≠ 4 →
        (∀ x ∈ s.m.time.masters, x.2 + announceSpan x.1 ≤ s.m.tread) →
        ∃ t, exec .masterLost s = .next t ∧ t.m.time.master = none ∧ t.m.time.masters = [] ∧ t.m.rov 0x1300 1 = 4 ∧
          t.m.tread = s.m.tread ∧ t.m.objs = s.m.objs) ∧
      (∀ id e, (s.m.switch.ptp.find? fun e => decide (e.id = id ∧ e.at_ + 100000 ≤ s.m.tread)) = some e →
        exec (.followUpTimeout id) s = .next (s.withMod
          ((s.m.setSwitch { s.m.switch with ptp := s.m.switch.ptp.erase e }).bump 0x1300 0x15)))) ∧
    (s.m.life ≠ .off →
      (s.m.time.refLost = false → s.m.time.clkmode = 1 ∨ s.m.time.clkmode = 3 →
        ∃ t, exec .refinLoss s = .next t ∧ t.m.time.refLost = true ∧ t.m.rov 0x1300 2 = 1 ∧
          (s.m.time.clkmode = 1 → s.m.rov 0x1300 1 ≠ 0 → t.m.rov 0x1300 1 = 4) ∧ t.m.objs = s.m.objs) ∧
      (s.m.time.refLost = true →
        ∃ t, exec .refinReturn s = .next t ∧ t.m.time.refLost = false ∧ t.m.rov 0x1300 2 = 0 ∧
          (s.m.time.clkmode = 1 → s.m.rov 0x1300 1 = 4 → t.m.rov 0x1300 1 = 1) ∧ t.m.objs = s.m.objs))

/-- Time outputs: a pulse begins in the tread of its instant, the first of its instants that has not passed, is counted,
and a periodic output takes its next instant from its period; it ends in the tread of its width (R354, R355). -/
def Obligations.TimeOutputsPulse : Prop :=
  ∀ (s : State) (k n : Nat), s.m.life = .run → n < (s.m.tread + 1) * 10000 →
    ((s.m.tpoFrom k (s.m.tpo k) s.m.now).next = some n → s.m.now ≤ n →
      ∃ t, exec (.tpoPulse k) s = .next t ∧ t.m.tpo k = { s.m.tpo k with
          next := (if (s.m.tpo k).single then none else some (n + Max.max 1 (s.m.cfg (0x1340 + k) 3))),
          ends := some (n + s.m.cfg (0x1340 + k) 4) } ∧
        t.m.rov (0x1340 + k) 8 = (s.m.rov (0x1340 + k) 8 + 1) % 2 ^ counterBits (0x1340 + k) 8 ∧
        t.m.rov (0x1340 + k) 0xA = n ∧ t.m.rov (0x1340 + k) 7 = 2 ∧ t.m.tpoNow = setBit s.m.tpoNow k true ∧
        t.m.objs = s.m.objs) ∧
    ((s.m.tpo k).ends = some n →
      ∃ t, exec (.tpoPulseEnd k) s = .next t ∧ t.m.tpo k = { s.m.tpo k with ends := none } ∧
        ((s.m.tpo k).next = none → t.m.rov (0x1340 + k) 7 = 0) ∧ t.m.tpoNow = setBit s.m.tpoNow k false ∧
        t.m.objs = s.m.objs)

/-! ### CAN ports -/

/-- What a port hears, in a frame in which it was disabled too: a frame that matches a buffer is kept for the next
boundary, one that matches a queue of an enabled port waits to enter it; a receive error is counted; a buffer goes stale when its time has passed, and its value counts as lost; a
port that has integrated or recovered takes part (R135, R357, R359, R362, R363, R368, R370, R371). -/
def Obligations.CanHears : Prop :=
  ∀ (s : State) (p : Nat), s.m.life = .run →
    ((∀ f k, s.m.hears p f.began = true → f.remote = false → s.m.isRequest p f = false →
        ((s.m.mos p).find? fun k => s.m.moMatches k f) = some k →
        (s.m.canCfg k 1 = 2 → ∃ t, exec (.canFrameReceived p f) s = .next t ∧
          (t.m.canObj k).rx = some (ofLe (f.data.take 64), f.data.length) ∧ t.m.objs = s.m.objs) ∧
        (s.m.canCfg k 1 = 3 → s.m.portState p ≠ 0 → ∃ t e, exec (.canFrameReceived p f) s = .next t ∧
          (t.m.canPort p).arriving = (s.m.canPort p).arriving ++ [e] ∧ e.mo = k % 128 ∧ e.len = f.data.length ∧
          e.data = ofLe (f.data.take 64) ∧ e.id % 2 ^ 29 = f.id % 2 ^ 29 ∧ t.m.objs = s.m.objs)) ∧
      (s.m.hears p = true → ∀ dominant, exec (.canReceiveError p dominant) s = .next (s.withMod
        (s.m.setErrors p (s.m.canPort p).tec (Min.min 255 ((s.m.canPort p).rec_ + if dominant then 8 else 1)))))) ∧
    (∀ k, p < 2 → k < 128 → s.m.canCfg (k + 128 * p) 1 = 2 → s.m.canCfg (k + 128 * p) 0xD ≠ 0 →
      (s.m.canObj (k + 128 * p)).stale = false →
      (s.m.canObj (k + 128 * p)).since + s.m.canCfg (k + 128 * p) 0xD ≤ s.m.tread →
      exec (.stale p k) s = .next (s.withMod
        (s.m.putMo (k + 128 * p) { s.m.canObj (k + 128 * p) with stale := true, lost := true }))) ∧
    (p < 2 → s.m.portState p = 1 → exec (.busIntegrationComplete p) s = .next (s.withMod (s.m.setRo (0x3780 + p) 7 2))) ∧
    (∀ n, p < 2 → (s.m.portState p = 5 ∨ s.m.portState p = 4 ∧ s.m.cfg (0x3780 + p) 5 = 1) → 128 ≤ n →
      ∃ t, exec (.recoveryComplete p n) s = .next t ∧ t.m.portState p = 2 ∧ (t.m.canPort p).tec = 0 ∧
        (t.m.canPort p).rec_ = 0 ∧ (∀ r ∈ (t.m.canPort p).resp, r.held = false) ∧ t.m.objs = s.m.objs)

/-- What a port sends: a periodic object that is due becomes pending, once a tread; the frame of the object or response
that a port offered as its attempt began goes out, and what was offered no longer stays pending; an error raises the
transmit counter by 8, unless an error-passive port misses an acknowledgement, and uses up an attempt, a lost arbitration
neither; the last attempt fails the object, or drops the response; past 255 the port is bus-off and holds what it sends
(R357, R364 to R369, R374; an attempt that began in an earlier tread, `began` treads ago, is log entry 128's). -/
def Obligations.CanSends : Prop :=
  ∀ (s : State) (p k : Nat), s.m.life = .run →
    (p < 2 → k < 128 → s.m.canCfg (k + 128 * p) 0xA ≠ 0 → s.m.phaseTread % s.m.canCfg (k + 128 * p) 0xA = 0 →
      (s.m.canObj (k + 128 * p)).sentAt ≠ some s.m.tread → s.m.canCfg (k + 128 * p) 1 = 1 →
      exec (.periodicSend p k) s = .next (s.withMod
        ((s.m.setCanObj (k + 128 * p) { s.m.canObj (k + 128 * p) with sentAt := some s.m.tread }).sendMo (k + 128 * p)))) ∧
    (s.m.offer p = .mo k → s.m.attempt p 0 = (.mo k, s.m.moFrame k, true)) ∧
    (∀ r l, s.m.offer p = .resp → (s.m.canPort p).resp = r :: l → s.m.attempt p 0 = (.resp, s.m.respFrame p r, true)) ∧
    (∀ ack began, exec (.transmissionError p true ack began) s = .next s) ∧
    (∀ f waits began, s.m.transmits p began = true → s.m.attempt p began = (.mo k, f, waits) →
      (∃ t, exec (.transmissionComplete p began) s = .next t ∧
        t.m.canObj k = (if waits = true then { s.m.canObj k with pend := false, tries := 0, failed := false, held := false }
          else s.m.canObj k) ∧
        (t.m.canPort p).frame = some f ∧ (t.m.canPort p).offers = [] ∧
        (t.m.canPort p).tec = (s.m.canPort p).tec - 1 ∧ t.m.objs = s.m.objs) ∧
      (∀ ack, ∃ t, exec (.transmissionError p false ack began) s = .next t ∧
        (t.m.canPort p).tec = (s.m.canPort p).tec + (if ack = true ∧ s.m.portState p = 3 then 0 else 8) ∧
        (waits = true → 255 < s.m.tecAfter p ack →
          t.m.portState p = 4 ∧ t.m.canObj k = { s.m.canObj k with held := true }) ∧
        (waits = true → s.m.tecAfter p ack ≤ 255 →
          t.m.canObj k = (if (s.m.canObj k).tries ≤ 1 then { s.m.canObj k with pend := false, tries := 0, failed := true }
            else { s.m.canObj k with tries := (s.m.canObj k).tries - 1 })) ∧
        (waits = false → t.m.canObj k = s.m.canObj k) ∧ t.m.objs = s.m.objs)) ∧
    (∀ f r l began, s.m.transmits p began = true → s.m.attempt p began = (.resp, f, true) → (s.m.canPort p).resp = r :: l →
      (∃ t, exec (.transmissionComplete p began) s = .next t ∧ (t.m.canPort p).resp = l ∧
        (t.m.canPort p).frame = some f ∧ (t.m.canPort p).tec = (s.m.canPort p).tec - 1 ∧
        t.m.canObjs = s.m.canObjs ∧ t.m.objs = s.m.objs) ∧
      (∀ ack, ∃ t, exec (.transmissionError p false ack began) s = .next t ∧ (t.m.canPort p).tec = s.m.tecAfter p ack ∧
        (t.m.canPort p).resp = (if 255 < s.m.tecAfter p ack then { r with held := true } :: l
          else if r.tries ≤ 1 then l else { r with tries := r.tries - 1 } :: l) ∧
        t.m.canObjs = s.m.canObjs ∧ t.m.objs = s.m.objs))

/-- A request frame of the access service becomes a transaction of the port's association with the next number, of one
entry, in NEXT mode: refused OVERLOAD where the limits are full, TYPE where the frame is not laid out as it must be,
INDEX where the service does not reach the object, and otherwise taken in its turn; a read of the queue window is the
partner's read of that object, served in its tread (R372, R373, R374). -/
def Obligations.CanAccessRequests : Prop :=
  ∀ (s : State) (p : Nat) (h : Hdr), s.m.life = .run →
    (∀ f off, s.m.hears p = true → f.remote = false → s.m.isRequest p f = true → (s.m.canPort p).assoc ≠ 0 →
      let a := (s.m.canPort p).assoc
      let l := f.data.take 64
      let e : Entry := { idx := l.getD 2 0 + 256 * l.getD 3 0, sub := l.getD 4 0, len := l.getD 5 0,
                         val := ofLe ((l.drop 8).take (l.getD 5 0)) }
      let x : Txn := { assoc := a, seq := (s.m.canPort p).issue + 1, tag := l.getD 1 0, write := tb (l.getD 0 0) 0,
                       named := none, early := false, journalled := false, entries := [e] }
      let m := s.m.setErrors p (s.m.canPort p).tec (goodRec (s.m.canPort p).rec_)
      let m := m.setCanPort p { m.canPort p with issue := x.seq }
      (m.full a = true → exec (.accessRequest p f off) s = .next (s.withMod (m.refuse x stOverload 0xFFFF))) ∧
      (m.full a = false → requestOk l = false →
        exec (.accessRequest p f off) s = .next (s.withMod (m.refuse x stType 0xFFFF))) ∧
      (m.full a = false → requestOk l = true → exists_ (m.profOf a) e.idx e.sub = 0 → serviceReaches e.idx e.sub = false →
        exec (.accessRequest p f off) s = .next (s.withMod (m.refuse x 0x10 0))) ∧
      (m.full a = false → requestOk l = true → exists_ (m.profOf a) e.idx e.sub ≠ 0 ∨ serviceReaches e.idx e.sub = true →
        exec (.accessRequest p f off) s = .next (s.withMod (m.arrive x true true off)))) ∧
    (p < 2 → exec (.queueWindowRead h p) s = .next (s.withMod
      ((s.m.partner h false [{ idx := 0x3780 + p, sub := 0x10 }]).serveNow h.assoc h.seq)))

/-- A read of a port's queue window that arrives in its turn, its object readable and its snapshot due in the present tread,
is served at once where no earlier read of a window waits: its reply carries the entry that the association already owns,
or else the oldest that no one owns, which it then owns, as 88 bytes; where the queue has neither, zeros (R42, R371,
R372). -/
def Obligations.QueueWindowIsRead : Prop :=
  ∀ (s : State) (p : Nat) (h : Hdr) (who : Partner), s.m.life = .run → p < 2 → h.early = false → h.journalled = false →
    let l : List Entry := [{ idx := 0x3780 + p, sub := 0x10 }]
    let u := s.m.turned h.assoc who h.seq
    let q := (s.m.canPort p).queue
    let r : ReadSt := { assoc := h.assoc, seq := h.seq, tag := h.tag, due := s.m.tread, entries := l,
                        named := h.named.isSome, arrived := s.m.arrivals }
    let gives := fun (m : Mod) (value : Nat) => exec (.queueWindowRead h p) s = .next (s.withMod
      (({ m with arrivals := s.m.arrivals + 1 } : Mod).finalReply (readGives { r with vals := [(88, value)] } h.assoc h.seq)
        false).flush)
    s.m.inTurn h who l = true → (∀ x ∈ s.m.reads, ¬(x.assoc = h.assoc ∧ x.seq = h.seq)) →
    u.readFail h.assoc 0 l = none → u.dueOfRead h.assoc h.named h.off = (0, s.m.tread) → u.readsBefore r = [] →
      (∀ e, (q.find? fun e => decide (e.owner = h.assoc)) = some e → gives u e.bytes) ∧
      ((q.find? fun e => decide (e.owner = h.assoc)) = none →
        (∀ e, (q.find? fun e => decide (e.owner = 0)) = some e →
          gives (u.setCanPort p { s.m.canPort p with
            queue := q.map fun x => if x.seq = e.seq then { x with owner := h.assoc } else x }) e.bytes) ∧
        ((q.find? fun e => decide (e.owner = 0)) = none → gives u 0))

/-! ### Gallery, power states, maintenance -/

/-- The gallery: a record that is due, its snapshot the one of its tread, is written at the next place and counted in
its code's rate window, or suppressed where that window holds as many as the code's limit, or counted as a full loss;
at most 64 are written in a flight, and the next one waits; a clear ends with the gallery empty but for the record of it (R376, R378, R379,
R380, R381, R382, R384). -/
def Obligations.GalleryEvents : Prop :=
  ∀ s : State, s.m.life = .run →
    (∀ d l, s.m.fillSnaps.gal.queue = d :: l → s.m.blockIn 17 = false →
      d.snap.isSome = true ∧
      (s.m.rov 0x1500 5 = 1 →
        ∃ t, exec .galleryRecord s = .next t ∧ t.m.gal.queue = l ∧ t.m.gal.recs = s.m.gal.recs ∧
          t.m.rov 0x1500 7 = (s.m.rov 0x1500 7 + 1) % 2 ^ counterBits 0x1500 7 ∧ t.m.gal.codes = s.m.gal.codes) ∧
      (s.m.rov 0x1500 5 = 0 → s.m.galSet d.code 2 ≤ (s.m.rateWindow d.code (d.tread / 100)).2 →
        ∃ t, exec .galleryRecord s = .next t ∧ t.m.gal.queue = l ∧ t.m.gal.recs = s.m.gal.recs ∧ t.m.ro = s.m.ro ∧
          t.m.galCode d.code = { s.m.galCode d.code with
            pending := satAdd 0xFFFFFFFF (s.m.galCode d.code).pending 1,
            total := ((s.m.galCode d.code).total + 1) % 2 ^ 32 }) ∧
      (s.m.rov 0x1500 5 = 0 → (s.m.rateWindow d.code (d.tread / 100)).2 < s.m.galSet d.code 2 →
        64 ≤ (if s.m.gal.flight = s.m.tread / 100 then s.m.gal.wrote else 0) →
        exec .galleryRecord s = .next (s.withMod s.m.fillSnaps)) ∧
      (s.m.rov 0x1500 5 = 0 → (s.m.rateWindow d.code (d.tread / 100)).2 < s.m.galSet d.code 2 →
        (if s.m.gal.flight = s.m.tread / 100 then s.m.gal.wrote else 0) < 64 →
        ∃ t, exec .galleryRecord s = .next t ∧ t.m.gal.queue = l ∧
          t.m.gal.recs = put s.m.gal.recs (s.m.rov 0x1500 4)
            (ofWords (d.words64 (s.m.rov 0x1500 6) (s.m.galCode d.code).pending)) ∧
          t.m.rov 0x1500 4 = s.m.rov 0x1500 4 + 1 ∧ t.m.rov 0x1500 6 = s.m.rov 0x1500 6 + 1 ∧
          t.m.rov 0x1500 5 = (if 16384 ≤ s.m.rov 0x1500 4 + 1 then 1 else 0) ∧
          t.m.galCode d.code = { s.m.galCode d.code with
            pending := 0, written := ((s.m.galCode d.code).written + 1) % 2 ^ 32,
            opened := some ((s.m.rateWindow d.code (d.tread / 100)).1.getD (d.tread / 100)),
            inWindow := (s.m.rateWindow d.code (d.tread / 100)).2 + 1 })) ∧
    (s.m.rov 0x1500 5 = 2 →
      ∃ t w, exec .galleryClearEnd s = .next t ∧ t.m.gal.recs = [(0, w)] ∧ t.m.rov 0x1500 4 = 1 ∧ t.m.rov 0x1500 5 = 0 ∧
        t.m.rov 0x1500 7 = 0 ∧ t.m.field = s.m.field ∧ t.m.tracks = s.m.tracks)

/-- Standby: at the flight boundary after a commanded entry the module enters STANDBY, its tiles asleep and its ports down
but those of the wake mask; a frame, an edge or the set time that its mask allows wakes it and is reported, one that comes
at that boundary before standby has taken hold as soon as it has; the wake ends prepared for a flight boundary at
least a flight after the entry (R390, R391, R393, R394, R395). -/
def Obligations.StandbyAndWake : Prop :=
  ∀ s : State,
    (∀ n, s.m.life = .run → s.m.power.standby = some n → s.m.tread % 100 = 0 → n < s.m.tread → s.m.resetsNow = false →
      (∃ t, exec .standbyEntry s = .next t ∧ t.m.tiles.awake = 0 ∧ t.m.tiles.waking = 0 ∧
        t.m.power.entry = s.m.tread ∧ t.m.power.standby = none ∧ t.m.rov 0x1400 0x21 = 2 ∧ t.m.tracks = s.m.tracks ∧
        t.m.hall = s.m.hall ∧ t.m.objs = s.m.objs ∧ t.m.rov 0x3838 0xE = 0 ∧
        (∀ p, p < 4 → tb (s.m.cfg 0x1400 0x24) p = false → bits (t.m.rov 0x1100 0x13) (8 * p) 8 = 0) ∧
        (s.m.power.early = none → t.m.life = .standby) ∧
        (∀ cause detail, s.m.power.early = some (cause, detail) → tb (s.m.cfg 0x1400 0x23) (cause - 1) = true →
          t.m.life = .waking ∧ t.m.rov 0x1400 0x27 = cause ∧ t.m.rov 0x1400 0x28 = detail)) ∧
      (s.m.power.early = none →
        (∀ port, tb (s.m.cfg 0x1400 0x24) port = true → tb (s.m.cfg 0x1400 0x23) 0 = true →
          exec (.wakeLinkFrame port true) s = .next (s.withMod { s.m with
            power := { s.m.power with early := some (1, port) } })) ∧
        (∀ i, i < 192 → tb (s.m.cfg 0x1400 0x25) i = true → tb (s.m.cfg 0x1400 0x23) 1 = true →
          exec (.wakeDiEdge i) s = .next (s.withMod { s.m with power := { s.m.power with early := some (2, i) } })) ∧
        (tb (s.m.cfg 0x1400 0x23) 2 = true →
          exec .wakeTimed s = .next (s.withMod { s.m with power := { s.m.power with early := some (3, 0) } })))) ∧
    (s.m.life = .standby →
      (∀ port, tb (s.m.cfg 0x1400 0x24) port = true → tb (s.m.cfg 0x1400 0x23) 0 = true →
        ∃ t, exec (.wakeLinkFrame port true) s = .next t ∧ t.m.life = .waking ∧ t.m.rov 0x1400 0x27 = 1 ∧
          t.m.rov 0x1400 0x28 = port) ∧
      (∀ i, i < 192 → tb (s.m.cfg 0x1400 0x25) i = true → tb (s.m.cfg 0x1400 0x23) 1 = true →
        ∃ t, exec (.wakeDiEdge i) s = .next t ∧ t.m.life = .waking ∧ t.m.rov 0x1400 0x27 = 2 ∧
          t.m.rov 0x1400 0x28 = i) ∧
      (tb (s.m.cfg 0x1400 0x23) 2 = true →
        ∃ t, exec .wakeTimed s = .next t ∧ t.m.life = .waking ∧ t.m.rov 0x1400 0x27 = 3 ∧ t.m.rov 0x1400 0x28 = 0 ∧
          t.m.power.timed = true)) ∧
    (∀ now, s.m.life = .waking →
      ∃ t, exec (.wakeComplete now) s = .next t ∧ t.m.life = .prepared ∧ s.m.power.entry + 99 ≤ t.m.tread ∧
        (∀ x ∈ t.m.hall, x.2.resync = true) ∧ t.m.hall.length = s.m.hall.length)

/-- Maintenance: an output pulse test that has run its length ends with the outputs that answered; a firmware image is
found good or not, with its code; a trial that runs out returns to the other slot (R405, R407, R408). -/
def Obligations.MaintenanceEvents : Prop :=
  ∀ s : State,
    (∀ p before after, s.m.field.powered = true → s.m.field.pulse = some p → p.2.1 < (s.m.tread - p.2.2 + 1) * 10 →
      ∃ t, exec (.pulseTestEnd before after) s = .next t ∧ t.m.field.pulse = none ∧
        t.m.rov 0x1610 2 = clrBits (before % 2 ^ 32) after ∧ t.m.objs = s.m.objs) ∧
    (∀ orderOk formatOk version, s.m.life = .run → s.m.fwState = 2 → s.m.blockIn 16 = false →
      ∃ t, exec (.firmwareVerified orderOk formatOk version) s = .next t ∧
        (t.m.rov 0x1620 6 = 3 ↔ (Config.signatureHolds (bytesAt s.m.firmware.image 0 (s.m.cfg 0x1620 2)) = true ∧
          orderOk = true ∧ s.m.firmware.received = s.m.cfg 0x1620 2 ∧ formatOk = true)) ∧
        t.m.firmware.running = s.m.firmware.running) ∧
    (∀ n failed, s.m.life = .run → s.m.firmware.trial = some n → failed = true ∨ n + 60000000 ≤ s.m.tread →
      ∀ off : Offset, ∃ t, exec (.trialTimeout failed off) s = .next t ∧ t.m.firmware.running = 1 - s.m.firmware.running ∧
        t.m.firmware.trial = none ∧ t.m.rov 0x1620 6 = 4 ∧ t.m.blockIn 16 = true)
end

