-- ==== Sys2Proof/Laws/Bits.lean ====
section
/-! SUPPORT. Bits of numbers: a bit set reads back, every other bit reads as before. -/

namespace Sys2Proof.Machine

theorem tb_eq (w n : Nat) : tb w n = w.testBit n := by
  simp [tb, Nat.testBit_eq_decide_div_mod_eq]

/-- A number by its bit `n`, what stands above and what stands below. -/
theorem split_at (w n : Nat) : w = 2 ^ n * (2 * (w / 2 ^ (n + 1)) + b2n (tb w n)) + w % 2 ^ n := by
  have h1 : w / 2 ^ (n + 1) = w / 2 ^ n / 2 := by rw [Nat.pow_succ, Nat.div_div_eq_div_mul]
  have h2 : b2n (tb w n) = w / 2 ^ n % 2 := by
    unfold b2n tb
    split <;> simp_all
  rw [h1, h2, Nat.div_add_mod]
  exact (Nat.div_add_mod w (2 ^ n)).symm

theorem setBit_eq (w n : Nat) (b : Bool) :
    setBit w n b = 2 ^ n * (2 * (w / 2 ^ (n + 1)) + b2n b) + w % 2 ^ n := by
  have h := split_at w n
  unfold setBit
  cases hb : tb w n <;> cases b <;> simp only [hb, b2n, if_true, Bool.false_eq_true, if_false, Nat.mul_add,
    Nat.mul_one, Nat.add_zero] at h ⊢ <;> omega

@[simp] theorem tb_setBit_same (w n : Nat) (b : Bool) : tb (setBit w n b) n = b := by
  rw [tb_eq, setBit_eq, Nat.testBit_two_pow_mul_add _ (Nat.mod_lt _ (Nat.two_pow_pos n))]
  cases b <;> simp [b2n, Nat.testBit_zero]

theorem tb_setBit_ne (w n j : Nat) (b : Bool) (h : j ≠ n) : tb (setBit w n b) j = tb w j := by
  have hl := Nat.mod_lt w (Nat.two_pow_pos n)
  rw [tb_eq, tb_eq, setBit_eq]
  conv => rhs; rw [split_at w n]
  rw [Nat.testBit_two_pow_mul_add _ hl, Nat.testBit_two_pow_mul_add _ hl]
  by_cases hj : j < n
  · simp [hj]
  · obtain ⟨k, rfl⟩ : ∃ k, j = n + (k + 1) := ⟨j - n - 1, by omega⟩
    have hk : n + (k + 1) - n = k + 1 := by omega
    simp only [hj, if_false, hk, Nat.testBit_succ]
    congr 1
    have : ∀ c : Bool, (2 * (w / 2 ^ (n + 1)) + b2n c) / 2 = w / 2 ^ (n + 1) := by
      intro c; cases c <;> simp [b2n] <;> omega
    rw [this, this]

theorem tb_setBit (w n j : Nat) (b : Bool) : tb (setBit w n b) j = if j = n then b else tb w j := by
  split
  · subst_vars; simp
  · exact tb_setBit_ne w n j b (by assumption)

end Sys2Proof.Machine
end

