-- ==== Sys2Proof/Laws/Gallery.lean ====
section
/-! SUPPORT. What leaves the records of the gallery alone: every operation but the writing of a record and a clear. -/
namespace Sys2Proof.Machine
@[simp] theorem over_recs {β : Type} (l : List β) (f : Mod → β → Mod) (m : Mod) (h : ∀ m x, (f m x).gal.recs = m.gal.recs) :
    (overAll l f m).gal.recs = m.gal.recs := by
  induction l generalizing m with
  | nil => rfl
  | cons a l ih => exact (ih (f m a)).trans (h m a)
theorem foldl_recs {β γ : Type} (l : List β) (f : Mod × γ → β → Mod × γ) (x : Mod × γ) (h : ∀ x b, (f x b).1.gal.recs = x.1.gal.recs) :
    (l.foldl f x).1.gal.recs = x.1.gal.recs := by
  induction l generalizing x with
  | nil => rfl
  | cons a l ih => exact (ih (f x a)).trans (h x a)
@[simp] theorem apply_ite_recs (c : Prop) [Decidable c] (x y : Mod) :
    (if c then x else y).gal.recs = if c then x.gal.recs else y.gal.recs := apply_ite (fun m : Mod => m.gal.recs) c x y
theorem ite_recs (c : Prop) [Decidable c] (x y : Mod) (v : SMap Nat) (h : x.gal.recs = v) (k : y.gal.recs = v) : (if c then x else y).gal.recs = v := by
  split <;> assumption
@[simp] theorem Mod.setCfg_recs (m : Mod) (idx sub v : Nat) : (Mod.setCfg m idx sub v).gal.recs = m.gal.recs := by unfold Mod.setCfg; simp
@[simp] theorem Mod.setCfgOf_recs (m : Mod) (a idx sub v : Nat) : (Mod.setCfgOf m a idx sub v).gal.recs = m.gal.recs := by unfold Mod.setCfgOf; simp
@[simp] theorem Mod.setRo_recs (m : Mod) (idx sub v : Nat) : (Mod.setRo m idx sub v).gal.recs = m.gal.recs := by unfold Mod.setRo; simp
@[simp] theorem Mod.bumpBy_recs (m : Mod) (idx sub n : Nat) : (Mod.bumpBy m idx sub n).gal.recs = m.gal.recs := by unfold Mod.bumpBy; simp
@[simp] theorem Mod.bump_recs (m : Mod) (idx sub : Nat) : (Mod.bump m idx sub).gal.recs = m.gal.recs := by unfold Mod.bump; simp
@[simp] theorem Mod.setRoBit_recs (m : Mod) (idx sub bit : Nat) (b : Bool) : (Mod.setRoBit m idx sub bit b).gal.recs = m.gal.recs := by unfold Mod.setRoBit; simp
@[simp] theorem Mod.setLoop_recs (m : Mod) (j : Nat) (s : LoopSt) : (Mod.setLoop m j s).gal.recs = m.gal.recs := by unfold Mod.setLoop; simp
@[simp] theorem Mod.setTrack_recs (m : Mod) (t : Nat) (s : TrackSt) : (Mod.setTrack m t s).gal.recs = m.gal.recs := by unfold Mod.setTrack; simp
@[simp] theorem Mod.setInp_recs (m : Mod) (x : Nat) (s : InpSt) : (Mod.setInp m x s).gal.recs = m.gal.recs := by unfold Mod.setInp; simp
@[simp] theorem Mod.setConv_recs (m : Mod) (c : Nat) (s : ConvSt) : (Mod.setConv m c s).gal.recs = m.gal.recs := by unfold Mod.setConv; simp
@[simp] theorem Mod.setFbank_recs (m : Mod) (b : Nat) (s : BankSt) : (Mod.setFbank m b s).gal.recs = m.gal.recs := by unfold Mod.setFbank; simp
@[simp] theorem Mod.setAxis_recs (m : Mod) (a : Nat) (s : AxisSt) : (Mod.setAxis m a s).gal.recs = m.gal.recs := by unfold Mod.setAxis; simp
@[simp] theorem Mod.setLink_recs (m : Mod) (k : Nat) (s : AxisLinkSt) : (Mod.setLink m k s).gal.recs = m.gal.recs := by unfold Mod.setLink; simp
@[simp] theorem Mod.setSafIn_recs (m : Mod) (k : Nat) (s : SafInSt) : (Mod.setSafIn m k s).gal.recs = m.gal.recs := by unfold Mod.setSafIn; simp
@[simp] theorem Mod.setSafOut_recs (m : Mod) (p : Nat) (s : SafOutSt) : (Mod.setSafOut m p s).gal.recs = m.gal.recs := by unfold Mod.setSafOut; simp
@[simp] theorem Mod.setShadow_recs (m : Mod) (b : Bank) : (Mod.setShadow m b).gal.recs = m.gal.recs := by unfold Mod.setShadow; simp
@[simp] theorem Mod.setBank_recs (m : Mod) (b : Bank) : (Mod.setBank m b).gal.recs = m.gal.recs := by
  (unfold Mod.setBank; repeat' split) <;> (first | with_reducible rfl | simp)
@[simp] theorem Mod.setCanObj_recs (m : Mod) (k : Nat) (s : CanObjSt) : (Mod.setCanObj m k s).gal.recs = m.gal.recs := by unfold Mod.setCanObj; simp
@[simp] theorem Mod.draw_recs (m : Mod) : (Mod.draw m).2.gal.recs = m.gal.recs := by unfold Mod.draw; simp
@[simp] theorem Mod.chainPut_recs (m : Mod) (stream : Nat) (packet : List Nat) (tail : Nat) : (Mod.chainPut m stream packet tail).gal.recs = m.gal.recs := by unfold Mod.chainPut; simp
@[simp] theorem Mod.logS4_recs (m : Mod) (kind source w1 w2 w3 : Nat) : (Mod.logS4 m kind source w1 w2 w3).gal.recs = m.gal.recs := by unfold Mod.logS4; simp
@[simp] theorem Mod.setGalCode_recs (m : Mod) (c : Nat) (g : GalCode) : (Mod.setGalCode m c g).gal.recs = m.gal.recs := by unfold Mod.setGalCode; simp
@[simp] theorem Mod.suppress_recs (m : Mod) (code : Nat) : (Mod.suppress m code).gal.recs = m.gal.recs := by unfold Mod.suppress; simp
@[simp] theorem Mod.enqueueDue_recs (m : Mod) (d : GalDue) : (Mod.enqueueDue m d).gal.recs = m.gal.recs := by
  (unfold Mod.enqueueDue; dsimp only []; repeat' (first | with_reducible rfl | assumption | (refine (over_recs _ _ _ (fun _ _ => ?_)).trans ?_) | (refine ite_recs _ _ _ _ ?_ ?_) | split | (simp; done)))
@[simp] theorem Mod.logRecord_recs (m : Mod) (d : GalDue) : (Mod.logRecord m d).gal.recs = m.gal.recs := by unfold Mod.logRecord; simp
@[simp] theorem Mod.logGal_recs (m : Mod) (code source : Nat) (words : List Nat) : (Mod.logGal m code source words).gal.recs = m.gal.recs := by unfold Mod.logGal; simp
@[simp] theorem Mod.logRecipe_recs (m : Mod) (code track step : Nat) : (Mod.logRecipe m code track step).gal.recs = m.gal.recs := by unfold Mod.logRecipe; simp
@[simp] theorem Mod.timeTo_recs (m : Mod) (f : Nat) : (Mod.timeTo m f).gal.recs = m.gal.recs := by unfold Mod.timeTo; simp
@[simp] theorem Mod.setStream_recs (m : Mod) (s : Nat) (v : StreamSt) : (Mod.setStream m s v).gal.recs = m.gal.recs := by unfold Mod.setStream; simp
@[simp] theorem Mod.recAt_recs (m : Mod) (s : Nat) (t : Tread) (kind key : Nat) (words : List Nat) : (Mod.recAt m s t kind key words).gal.recs = m.gal.recs := by
  (unfold Mod.recAt; dsimp only []; repeat' (first | with_reducible rfl | assumption | (refine (over_recs _ _ _ (fun _ _ => ?_)).trans ?_) | (refine ite_recs _ _ _ _ ?_ ?_) | split | (simp; done)))
@[simp] theorem Mod.rec__recs (m : Mod) (s : Nat) (t : Tread) (kind : Nat) (words : List Nat) : (Mod.rec_ m s t kind words).gal.recs = m.gal.recs := by unfold Mod.rec_; simp
@[simp] theorem Mod.note_recs (m : Mod) (who key : Nat) : (Mod.note m who key).gal.recs = m.gal.recs := by unfold Mod.note; simp
@[simp] theorem Mod.wr_recs (m : Mod) (who idx sub v : Nat) : (Mod.wr m who idx sub v).gal.recs = m.gal.recs := by unfold Mod.wr; simp
@[simp] theorem Mod.clearLog_recs (m : Mod) : (Mod.clearLog m).gal.recs = m.gal.recs := by unfold Mod.clearLog; simp
@[simp] theorem Mod.setRecord_recs (m : Mod) (r : RecSt) : (Mod.setRecord m r).gal.recs = m.gal.recs := by unfold Mod.setRecord; simp
@[simp] theorem Mod.setTrig_recs (m : Mod) (k : Nat) (t : TrigSt) : (Mod.setTrig m k t).gal.recs = m.gal.recs := by unfold Mod.setTrig; simp
@[simp] theorem Mod.holdOff_recs (m : Mod) (k : Nat) (t : Tread) : (Mod.holdOff m k t).gal.recs = m.gal.recs := by unfold Mod.holdOff; simp
@[simp] theorem Mod.remember_recs (m : Mod) (k v : Nat) : (Mod.remember m k v).gal.recs = m.gal.recs := by unfold Mod.remember; simp
@[simp] theorem Mod.noteRaw_recs (m : Mod) (j : Nat) (code : Int) : (Mod.noteRaw m j code).gal.recs = m.gal.recs := by
  (unfold Mod.noteRaw; dsimp only []; repeat' (first | with_reducible rfl | assumption | (refine (over_recs _ _ _ (fun _ _ => ?_)).trans ?_) | (refine ite_recs _ _ _ _ ?_ ?_) | split | (simp; done)))
@[simp] theorem Mod.setLevels_recs (m : Mod) : (Mod.setLevels m).gal.recs = m.gal.recs := by unfold Mod.setLevels; simp
@[simp] theorem Mod.abandonDark_recs (m : Mod) (b : Nat) : (Mod.abandonDark m b).gal.recs = m.gal.recs := by
  (unfold Mod.abandonDark; repeat' split) <;> (first | with_reducible rfl | simp)
@[simp] theorem Mod.pulsePass_recs (m : Mod) : (Mod.pulsePass m).gal.recs = m.gal.recs := by
  (unfold Mod.pulsePass; repeat' split) <;> (first | with_reducible rfl | simp)
@[simp] theorem Mod.darkPass_recs (m : Mod) : (Mod.darkPass m).gal.recs = m.gal.recs := by unfold Mod.darkPass; simp
@[simp] theorem Mod.darkStart_recs (m : Mod) (b : Nat) : (Mod.darkStart m b).gal.recs = m.gal.recs := by
  (unfold Mod.darkStart; repeat' split) <;> (first | with_reducible rfl | simp)
@[simp] theorem Mod.darkEnd_recs (m : Mod) (b readback : Nat) : (Mod.darkEnd m b readback).gal.recs = m.gal.recs := by
  (unfold Mod.darkEnd; dsimp only []; repeat' (first | with_reducible rfl | assumption | (refine (over_recs _ _ _ (fun _ _ => ?_)).trans ?_) | (refine ite_recs _ _ _ _ ?_ ?_) | split | (simp; done)))
@[simp] theorem Mod.compareOne_recs (m : Mod) (diff : Nat) (o : Nat) : (Mod.compareOne m diff o).gal.recs = m.gal.recs := by unfold Mod.compareOne; simp
@[simp] theorem Mod.compareReadback_recs (m : Mod) (rb : Nat) : (Mod.compareReadback m rb).gal.recs = m.gal.recs := by unfold Mod.compareReadback; simp
@[simp] theorem Mod.autoEnable_recs (m : Mod) (mask : Nat) : (Mod.autoEnable m mask).gal.recs = m.gal.recs := by unfold Mod.autoEnable; simp
@[simp] theorem Mod.coolPass_recs (m : Mod) : (Mod.coolPass m).gal.recs = m.gal.recs := by unfold Mod.coolPass; simp
@[simp] theorem Mod.latchImage_recs (m : Mod) (img : Img) : (Mod.latchImage m img).gal.recs = m.gal.recs := by unfold Mod.latchImage; simp
@[simp] theorem Mod.takeCouplers_recs (m : Mod) (img : Img) (strobes : Nat) : (Mod.takeCouplers m img strobes).gal.recs = m.gal.recs := by unfold Mod.takeCouplers; simp
@[simp] theorem Mod.pathChange_recs (m : Mod) : (Mod.pathChange m).gal.recs = m.gal.recs := by unfold Mod.pathChange; simp
@[simp] theorem Mod.outFalls_recs (m : Mod) : (Mod.outFalls m).gal.recs = m.gal.recs := by unfold Mod.outFalls; simp
@[simp] theorem Mod.outReturns_recs (m : Mod) : (Mod.outReturns m).gal.recs = m.gal.recs := by unfold Mod.outReturns; simp
@[simp] theorem Mod.outPath_recs (m : Mod) (mainOut : Bool) : (Mod.outPath m mainOut).gal.recs = m.gal.recs := by unfold Mod.outPath; simp
@[simp] theorem Mod.applyImage_recs (m : Mod) (mainOut : Bool) (strobes : Nat) : (Mod.applyImage m mainOut strobes).gal.recs = m.gal.recs := by
  unfold Mod.applyImage
  extract_lets f
  split
  · rfl
  · split
    · rfl
    · extract_lets a1 a2 a3
      have h1 : a1.gal.recs = m.gal.recs := by
        simp only [a1]
        (repeat' split) <;> simp +zetaDelta [apply_ite (fun m : Mod => m.gal.recs)]
      have h2 : a2.gal.recs = m.gal.recs := by simp [a2, h1]
      simp [h2]
@[simp] theorem Mod.takeSnapshot_recs (m : Mod) (rb : Nat) : (Mod.takeSnapshot m rb).gal.recs = m.gal.recs := by unfold Mod.takeSnapshot; simp
@[simp] theorem Mod.forceFaults_recs (m : Mod) : (Mod.forceFaults m).gal.recs = m.gal.recs := by unfold Mod.forceFaults; simp
@[simp] theorem Mod.inFalls_recs (m : Mod) : (Mod.inFalls m).gal.recs = m.gal.recs := by unfold Mod.inFalls; simp
@[simp] theorem Mod.takeRaw_recs (m : Mod) (i : TreadIn) : (Mod.takeRaw m i).gal.recs = m.gal.recs := by unfold Mod.takeRaw; simp
@[simp] theorem Mod.inPath_recs (m : Mod) (mainIn : Bool) : (Mod.inPath m mainIn).gal.recs = m.gal.recs := by unfold Mod.inPath; simp
@[simp] theorem Mod.snapField_recs (m : Mod) (i : TreadIn) : (Mod.snapField m i).gal.recs = m.gal.recs := by unfold Mod.snapField; simp
@[simp] theorem Mod.fallback_recs (m : Mod) (side : Nat) : (Mod.fallback m side).gal.recs = m.gal.recs := by unfold Mod.fallback; simp
@[simp] theorem Mod.mainReturn_recs (m : Mod) (side : Nat) : (Mod.mainReturn m side).gal.recs = m.gal.recs := by unfold Mod.mainReturn; simp
@[simp] theorem Mod.holdExpiry_recs (m : Mod) (ms : Nat) : (Mod.holdExpiry m ms).gal.recs = m.gal.recs := by unfold Mod.holdExpiry; simp
@[simp] theorem Mod.sag_recs (m : Mod) (b : Nat) : (Mod.sag m b).gal.recs = m.gal.recs := by unfold Mod.sag; simp
@[simp] theorem Mod.supplyLow_recs (m : Mod) (b : Nat) : (Mod.supplyLow m b).gal.recs = m.gal.recs := by unfold Mod.supplyLow; simp
@[simp] theorem Mod.supplyBack_recs (m : Mod) (b : Nat) : (Mod.supplyBack m b).gal.recs = m.gal.recs := by unfold Mod.supplyBack; simp
@[simp] theorem Mod.qualified_recs (m : Mod) (b : Nat) : (Mod.qualified m b).gal.recs = m.gal.recs := by unfold Mod.qualified; simp
@[simp] theorem Mod.overTemp_recs (m : Mod) (o : Nat) : (Mod.overTemp m o).gal.recs = m.gal.recs := by unfold Mod.overTemp; simp
@[simp] theorem Mod.cooledDown_recs (m : Mod) (o : Nat) : (Mod.cooledDown m o).gal.recs = m.gal.recs := by unfold Mod.cooledDown; simp
@[simp] theorem Mod.unpowerField_recs (m : Mod) : (Mod.unpowerField m).gal.recs = m.gal.recs := by unfold Mod.unpowerField; simp
@[simp] theorem Mod.freshField_recs (m : Mod) : (Mod.freshField m).gal.recs = m.gal.recs := by unfold Mod.freshField; simp
@[simp] theorem Mod.aoReadback_recs (m : Mod) (g v : Nat) : (Mod.aoReadback m g v).gal.recs = m.gal.recs := by unfold Mod.aoReadback; simp
@[simp] theorem Mod.debounceTo_recs (m : Mod) (i level samples : Nat) : (Mod.debounceTo m i level samples).gal.recs = m.gal.recs := by unfold Mod.debounceTo; simp
@[simp] theorem Mod.regroup_recs (m : Mod) : (Mod.regroup m).gal.recs = m.gal.recs := by unfold Mod.regroup; simp
@[simp] theorem Mod.takeMaps_recs (m : Mod) : (Mod.takeMaps m).gal.recs = m.gal.recs := by unfold Mod.takeMaps; simp
@[simp] theorem Mod.fieldFlight_recs (m : Mod) (before : SMap Nat) : (Mod.fieldFlight m before).gal.recs = m.gal.recs := by unfold Mod.fieldFlight; simp
@[simp] theorem Mod.enterMode_recs (m : Mod) (who j mode : Nat) : (Mod.enterMode m who j mode).gal.recs = m.gal.recs := by unfold Mod.enterMode; simp
@[simp] theorem Mod.modeRecords_recs (m : Mod) : (Mod.modeRecords m).gal.recs = m.gal.recs := by unfold Mod.modeRecords; simp
@[simp] theorem Mod.writeManual_recs (m : Mod) (who j v : Nat) : (Mod.writeManual m who j v).gal.recs = m.gal.recs := by unfold Mod.writeManual; simp
@[simp] theorem Mod.takeManuals_recs (m : Mod) : (Mod.takeManuals m).gal.recs = m.gal.recs := by unfold Mod.takeManuals; simp
@[simp] theorem Mod.selectBank_recs (m : Mod) (who j b : Nat) : (Mod.selectBank m who j b).gal.recs = m.gal.recs := by unfold Mod.selectBank; simp
@[simp] theorem Mod.writeCoef_recs (m : Mod) (who bank j sub v : Nat) : (Mod.writeCoef m who bank j sub v).gal.recs = m.gal.recs := by unfold Mod.writeCoef; simp
@[simp] theorem Mod.loopChanges_recs (m : Mod) : (Mod.loopChanges m).gal.recs = m.gal.recs := by
  (unfold Mod.loopChanges; dsimp only []; repeat' (first | with_reducible rfl | assumption | (refine (over_recs _ _ _ (fun _ _ => ?_)).trans ?_) | (refine ite_recs _ _ _ _ ?_ ?_) | split | (simp; done)))
@[simp] theorem Mod.jumpTo_recs (m : Mod) (who j v : Nat) : (Mod.jumpTo m who j v).gal.recs = m.gal.recs := by unfold Mod.jumpTo; simp
@[simp] theorem Mod.clearTableOf_recs (m : Mod) (j : Nat) : (Mod.clearTableOf m j).gal.recs = m.gal.recs := by unfold Mod.clearTableOf; simp
@[simp] theorem Mod.restartTable_recs (m : Mod) (j : Nat) : (Mod.restartTable m j).gal.recs = m.gal.recs := by unfold Mod.restartTable; simp
@[simp] theorem Mod.setLocked_recs (m : Mod) (j : Nat) (locked : Bool) : (Mod.setLocked m j locked).gal.recs = m.gal.recs := by unfold Mod.setLocked; simp
@[simp] theorem Mod.indexEdge_recs (m : Mod) (j : Nat) : (Mod.indexEdge m j).gal.recs = m.gal.recs := by
  (unfold Mod.indexEdge; dsimp only []; repeat' (first | with_reducible rfl | assumption | (refine (over_recs _ _ _ (fun _ _ => ?_)).trans ?_) | (refine ite_recs _ _ _ _ ?_ ?_) | split | (simp; done)))
@[simp] theorem Mod.lockTimeout_recs (m : Mod) (j : Nat) : (Mod.lockTimeout m j).gal.recs = m.gal.recs := by unfold Mod.lockTimeout; simp
@[simp] theorem Mod.restartLock_recs (m : Mod) (j : Nat) : (Mod.restartLock m j).gal.recs = m.gal.recs := by unfold Mod.restartLock; simp
@[simp] theorem Mod.lockPass_recs (m : Mod) : (Mod.lockPass m).gal.recs = m.gal.recs := by
  (unfold Mod.lockPass; dsimp only []; repeat' (first | with_reducible rfl | assumption | (refine (over_recs _ _ _ (fun _ _ => ?_)).trans ?_) | (refine ite_recs _ _ _ _ ?_ ?_) | split | (simp; done)))
@[simp] theorem Mod.evaluate_recs (m : Mod) (poolBad pathBad : List Nat) : (Mod.evaluate m poolBad pathBad).gal.recs = m.gal.recs := by unfold Mod.evaluate; simp
@[simp] theorem Mod.driveAo_recs (m : Mod) (a w : Nat) (u : Dy) : (Mod.driveAo m a w u).gal.recs = m.gal.recs := by unfold Mod.driveAo; simp
@[simp] theorem Mod.drive_recs (m : Mod) (d : Sig) (u : Dy) : (Mod.drive m d u).gal.recs = m.gal.recs := by
  (unfold Mod.drive; dsimp only []; repeat' (first | with_reducible rfl | assumption | (refine (over_recs _ _ _ (fun _ _ => ?_)).trans ?_) | (refine ite_recs _ _ _ _ ?_ ?_) | split | (simp; done)))
@[simp] theorem Mod.undrive_recs (m : Mod) (a : Nat) : (Mod.undrive m a).gal.recs = m.gal.recs := by unfold Mod.undrive; simp
@[simp] theorem Mod.undriven_recs (m : Mod) : (Mod.undriven m).gal.recs = m.gal.recs := by unfold Mod.undriven; simp
@[simp] theorem Mod.applyReleased_recs (m : Mod) : (Mod.applyReleased m).gal.recs = m.gal.recs := by
  (unfold Mod.applyReleased; repeat' split) <;> (first | with_reducible rfl | simp)
@[simp] theorem Mod.lostPass_recs (m : Mod) : (Mod.lostPass m).gal.recs = m.gal.recs := by unfold Mod.lostPass; simp
@[simp] theorem Mod.resync_recs (m : Mod) (pair : Nat) : (Mod.resync m pair).gal.recs = m.gal.recs := by unfold Mod.resync; simp
@[simp] theorem Mod.missed_recs (m : Mod) (pair : Nat) : (Mod.missed m pair).gal.recs = m.gal.recs := by unfold Mod.missed; simp
@[simp] theorem Mod.takeover_recs (m : Mod) (pair : Nat) : (Mod.takeover m pair).gal.recs = m.gal.recs := by unfold Mod.takeover; simp
@[simp] theorem Mod.pairs_recs (m : Mod) (i : TreadIn) : (Mod.pairs m i).1.gal.recs = m.gal.recs := by
  unfold Mod.pairs
  extract_lets prim inA inB path missA missB e m2 m3 m4 m5 m6 okA okB m7 m8 sel m9 m10
  have h3 : m3.gal.recs = m.gal.recs := by simp [m3, m2]
  clear_value m3
  have h4 : m4.gal.recs = m.gal.recs := by simp only [m4]; split <;> simp [h3]
  clear_value m4
  have h5 : m5.gal.recs = m.gal.recs := by simp only [m5]; split <;> simp [h4]
  clear_value m5
  have h6 : m6.gal.recs = m.gal.recs := by simp only [m6]; split <;> simp [h5]
  clear_value m6
  have h7 : m7.gal.recs = m.gal.recs := by simp only [m7]; split <;> simp [h6]
  clear_value m7
  have h8 : m8.gal.recs = m.gal.recs := by simp only [m8]; split <;> simp [h7]
  clear_value m8
  have h9 : m9.gal.recs = m.gal.recs := by simp only [m9]; split <;> simp [h8]
  clear_value m9
  have h10 : m10.gal.recs = m.gal.recs := by simp only [m10]; split <;> simp [h9]
  clear_value m10
  split <;> simp [h8, h10]
@[simp] theorem Mod.resyncEnd_recs (m : Mod) (pair : Nat) (ok : Bool) : (Mod.resyncEnd m pair ok).gal.recs = m.gal.recs := by unfold Mod.resyncEnd; simp
@[simp] theorem Mod.queueMove_recs (m : Mod) (a : Nat) (t : Int) : (Mod.queueMove m a t).gal.recs = m.gal.recs := by unfold Mod.queueMove; simp
@[simp] theorem Mod.stopAxis_recs (m : Mod) (a : Nat) : (Mod.stopAxis m a).gal.recs = m.gal.recs := by unfold Mod.stopAxis; simp
@[simp] theorem Mod.axisFault_recs (m : Mod) (a code : Nat) : (Mod.axisFault m a code).gal.recs = m.gal.recs := by
  (unfold Mod.axisFault; dsimp only []; repeat' (first | with_reducible rfl | assumption | (refine (over_recs _ _ _ (fun _ _ => ?_)).trans ?_) | (refine ite_recs _ _ _ _ ?_ ?_) | split | (simp; done)))
@[simp] theorem Mod.safetyStopAxis_recs (m : Mod) (a : Nat) : (Mod.safetyStopAxis m a).gal.recs = m.gal.recs := by unfold Mod.safetyStopAxis; simp
@[simp] theorem Mod.axesSafety_recs (m : Mod) : (Mod.axesSafety m).gal.recs = m.gal.recs := by unfold Mod.axesSafety; simp
@[simp] theorem Mod.frameLink_recs (m : Mod) (k : Nat) : (Mod.frameLink m k).gal.recs = m.gal.recs := by
  unfold Mod.frameLink
  extract_lets mask r n header
  have h : r.1.gal.recs = m.gal.recs := foldl_recs _ _ _ (fun r s => by
    extract_lets a f
    split <;> simp)
  clear_value r
  simp [h]
@[simp] theorem Mod.recordAxes_recs (m : Mod) : (Mod.recordAxes m).gal.recs = m.gal.recs := by unfold Mod.recordAxes; simp
@[simp] theorem Mod.axisFrames_recs (m : Mod) : (Mod.axisFrames m).gal.recs = m.gal.recs := by unfold Mod.axisFrames; simp
@[simp] theorem Mod.planComplete_recs (m : Mod) (a : Nat) : (Mod.planComplete m a).gal.recs = m.gal.recs := by unfold Mod.planComplete; simp
@[simp] theorem Mod.holdDelay_recs (m : Mod) (a : Nat) : (Mod.holdDelay m a).gal.recs = m.gal.recs := by unfold Mod.holdDelay; simp
@[simp] theorem Mod.axisFound_recs (m : Mod) (a code : Nat) (new : Bool) : (Mod.axisFound m a code new).gal.recs = m.gal.recs := by unfold Mod.axisFound; simp
@[simp] theorem Mod.judgeLink_recs (m : Mod) (k : Nat) : (Mod.judgeLink m k).gal.recs = m.gal.recs := by unfold Mod.judgeLink; simp
@[simp] theorem Mod.stageReturn_recs (m : Mod) (a : Nat) (ret : Option Nat) : (Mod.stageReturn m a ret).gal.recs = m.gal.recs := by
  unfold Mod.stageReturn
  extract_lets k mask late s before m1
  split
  · rfl
  · have h1 : m1.gal.recs = m.gal.recs := by
      simp only [m1]
      split
      · simp
      · repeat' (first | rw [Mod.axisFault_recs] | rw [Mod.axisFound_recs] | refine ite_recs _ _ _ _ ?_ ?_ | (simp; done))
    clear_value m1
    split <;> simp [h1]
@[simp] theorem Mod.axesStatus_recs (m : Mod) : (Mod.axesStatus m).gal.recs = m.gal.recs := by
  (unfold Mod.axesStatus; dsimp only []; repeat' (first | with_reducible rfl | assumption | (refine (over_recs _ _ _ (fun _ _ => ?_)).trans ?_) | (refine ite_recs _ _ _ _ ?_ ?_) | split | (simp; done)))
@[simp] theorem Mod.enableAxis_recs (m : Mod) (a v : Nat) : (Mod.enableAxis m a v).gal.recs = m.gal.recs := by unfold Mod.enableAxis; simp
@[simp] theorem Mod.clearAxis_recs (m : Mod) (a : Nat) : (Mod.clearAxis m a).gal.recs = m.gal.recs := by unfold Mod.clearAxis; simp
@[simp] theorem Mod.reReference_recs (m : Mod) (a : Nat) : (Mod.reReference m a).gal.recs = m.gal.recs := by unfold Mod.reReference; simp
@[simp] theorem Mod.setPos_recs (m : Mod) (a : Nat) (v : Int) : (Mod.setPos m a v).gal.recs = m.gal.recs := by unfold Mod.setPos; simp
@[simp] theorem Mod.axisWrite_recs (m : Mod) (a sub v : Nat) : (Mod.axisWrite m a sub v).gal.recs = m.gal.recs := by
  (unfold Mod.axisWrite; repeat' split) <;> (first | with_reducible rfl | simp)
@[simp] theorem Mod.emptyShadow_recs (m : Mod) : (Mod.emptyShadow m).gal.recs = m.gal.recs := by unfold Mod.emptyShadow; simp
@[simp] theorem Mod.beginLoad_recs (m : Mod) : (Mod.beginLoad m).gal.recs = m.gal.recs := by unfold Mod.beginLoad; simp
@[simp] theorem Mod.putChunk_recs (m : Mod) (len data : Nat) : (Mod.putChunk m len data).gal.recs = m.gal.recs := by unfold Mod.putChunk; simp
@[simp] theorem Mod.finishLoad_recs (m : Mod) : (Mod.finishLoad m).gal.recs = m.gal.recs := by unfold Mod.finishLoad; simp
@[simp] theorem Mod.endValidation_recs (m : Mod) : (Mod.endValidation m).gal.recs = m.gal.recs := by unfold Mod.endValidation; simp
@[simp] theorem Mod.swapBanks_recs (m : Mod) : (Mod.swapBanks m).gal.recs = m.gal.recs := by unfold Mod.swapBanks; simp
@[simp] theorem Mod.activateBank_recs (m : Mod) (was k : Nat) : (Mod.activateBank m was k).gal.recs = m.gal.recs := by unfold Mod.activateBank; simp
@[simp] theorem Mod.applyPatch_recs (m : Mod) (slots : List (Nat × Nat)) : (Mod.applyPatch m slots).gal.recs = m.gal.recs := by unfold Mod.applyPatch; simp
@[simp] theorem Mod.revert_recs (m : Mod) (r : Tread) : (Mod.revert m r).gal.recs = m.gal.recs := by unfold Mod.revert; simp
@[simp] theorem Mod.judge_recs (m : Mod) (x : Nat) : (Mod.judge m x).gal.recs = m.gal.recs := by unfold Mod.judge; simp
@[simp] theorem Mod.flagInput_recs (m : Mod) (x bit : Nat) (b : Bool) : (Mod.flagInput m x bit b).gal.recs = m.gal.recs := by unfold Mod.flagInput; simp
@[simp] theorem Mod.judgeValue_recs (m : Mod) (x v : Nat) : (Mod.judgeValue m x v).gal.recs = m.gal.recs := by unfold Mod.judgeValue; simp
@[simp] theorem Mod.present_recs (m : Mod) (x : Nat) : (Mod.present m x).gal.recs = m.gal.recs := by
  (unfold Mod.present; repeat' split) <;> (first | with_reducible rfl | simp)
@[simp] theorem Mod.latch_recs (m : Mod) : (Mod.latch m).gal.recs = m.gal.recs := by unfold Mod.latch; simp
@[simp] theorem Mod.closeWindow_recs (m : Mod) (x : Nat) (w : Win) : (Mod.closeWindow m x w).gal.recs = m.gal.recs := by unfold Mod.closeWindow; simp
@[simp] theorem Mod.addCode_recs (m : Mod) (x : Nat) (t : Tread) (code : Int) (landed : Bool) : (Mod.addCode m x t code landed).gal.recs = m.gal.recs := by unfold Mod.addCode; simp
@[simp] theorem Mod.noteSample_recs (m : Mod) (x : Nat) (t : Tread) (cycles : Nat) (code : Int) : (Mod.noteSample m x t cycles code).gal.recs = m.gal.recs := by unfold Mod.noteSample; simp
@[simp] theorem Mod.sample_recs (m : Mod) (x : Nat) (t : Tread) (cycles : Nat) (code : Int) : (Mod.sample m x t cycles code).gal.recs = m.gal.recs := by unfold Mod.sample; simp
@[simp] theorem Mod.missSample_recs (m : Mod) (x : Nat) (t : Tread) : (Mod.missSample m x t).gal.recs = m.gal.recs := by unfold Mod.missSample; simp
@[simp] theorem Mod.restartWindow_recs (m : Mod) (x : Nat) (since : Tread) : (Mod.restartWindow m x since).gal.recs = m.gal.recs := by unfold Mod.restartWindow; simp
@[simp] theorem Mod.closeDue_recs (m : Mod) (x : Nat) : (Mod.closeDue m x).gal.recs = m.gal.recs := by
  (unfold Mod.closeDue; repeat' split) <;> (first | with_reducible rfl | simp)
@[simp] theorem Mod.fireAt_recs (m : Mod) (c off : Nat) : (Mod.fireAt m c off).gal.recs = m.gal.recs := by unfold Mod.fireAt; simp
@[simp] theorem Mod.askFire_recs (m : Mod) (c off : Nat) : (Mod.askFire m c off).gal.recs = m.gal.recs := by unfold Mod.askFire; simp
@[simp] theorem Mod.settleAsked_recs (m : Mod) (c off : Nat) : (Mod.settleAsked m c off).gal.recs = m.gal.recs := by unfold Mod.settleAsked; simp
@[simp] theorem Mod.fire_recs (m : Mod) (c off : Nat) : (Mod.fire m c off).gal.recs = m.gal.recs := by unfold Mod.fire; simp
@[simp] theorem Mod.missSlots_recs (m : Mod) (c : Nat) (slots : List Nat) : (Mod.missSlots m c slots).gal.recs = m.gal.recs := by unfold Mod.missSlots; simp
@[simp] theorem Mod.slotsOver_recs (m : Mod) (c : Nat) : (Mod.slotsOver m c).gal.recs = m.gal.recs := by unfold Mod.slotsOver; simp
@[simp] theorem Mod.slotsEnd_recs (m : Mod) : (Mod.slotsEnd m).gal.recs = m.gal.recs := by unfold Mod.slotsEnd; simp
@[simp] theorem Mod.capture_recs (m : Mod) (x : Nat) (t : Tread) (code : Int) (cycles : Nat) : (Mod.capture m x t code cycles).gal.recs = m.gal.recs := by unfold Mod.capture; simp
@[simp] theorem Mod.slotZero_recs (m : Mod) (codes : List (Nat × Int)) : (Mod.slotZero m codes).gal.recs = m.gal.recs := by unfold Mod.slotZero; simp
@[simp] theorem Mod.injected_recs (m : Mod) (x : Nat) (t : Tread) (code : Int) (cycles : Nat) : (Mod.injected m x t code cycles).gal.recs = m.gal.recs := by unfold Mod.injected; simp
@[simp] theorem Mod.landed_recs (m : Mod) (c slot : Nat) (inj : Bool) (code : Int) (cycles : Nat) (t : Tread) : (Mod.landed m c slot inj code cycles t).gal.recs = m.gal.recs := by unfold Mod.landed; simp
@[simp] theorem Mod.resultLands_recs (m : Mod) (c slot : Nat) (inj : Bool) (code : Int) (cycles : Nat) (off : Offset) : (Mod.resultLands m c slot inj code cycles off).gal.recs = m.gal.recs := by unfold Mod.resultLands; simp
@[simp] theorem Mod.mapChanged_recs (m : Mod) (s : Nat) (t : Tread) : (Mod.mapChanged m s t).gal.recs = m.gal.recs := by unfold Mod.mapChanged; simp
@[simp] theorem Mod.inputMaps_recs (m : Mod) (l : List Nat) (t : Tread) : (Mod.inputMaps m l t).gal.recs = m.gal.recs := by unfold Mod.inputMaps; simp
@[simp] theorem Mod.check_recs (m : Mod) (c : Nat) (code : Option Int) : (Mod.check m c code).gal.recs = m.gal.recs := by
  (unfold Mod.check; repeat' split) <;> (first | with_reducible rfl | simp)
@[simp] theorem Mod.beginCal_recs (m : Mod) (c : Nat) : (Mod.beginCal m c).gal.recs = m.gal.recs := by unfold Mod.beginCal; simp
@[simp] theorem Mod.resumeConv_recs (m : Mod) (c : Nat) : (Mod.resumeConv m c).gal.recs = m.gal.recs := by unfold Mod.resumeConv; simp
@[simp] theorem Mod.endCal_recs (m : Mod) (c : Nat) (pass : Bool) (coeffs : List (Nat × Nat × Nat)) : (Mod.endCal m c pass coeffs).gal.recs = m.gal.recs := by
  (unfold Mod.endCal; repeat' split) <;> (first | with_reducible rfl | simp)
@[simp] theorem Mod.beginSkew_recs (m : Mod) : (Mod.beginSkew m).gal.recs = m.gal.recs := by
  unfold Mod.beginSkew; exact (over_recs _ _ _ (fun m p => by simp)).trans (by simp)
@[simp] theorem Mod.endSkew_recs (m : Mod) (trims : List (Nat × Nat)) (residuals : List (Nat × Int)) : (Mod.endSkew m trims residuals).gal.recs = m.gal.recs := by unfold Mod.endSkew; simp
@[simp] theorem Mod.scanStart_recs (m : Mod) : (Mod.scanStart m).gal.recs = m.gal.recs := by
  (unfold Mod.scanStart; grind [over_recs])
@[simp] theorem Mod.scan_recs (m : Mod) (tile : Nat) (code : Int) : (Mod.scan m tile code).gal.recs = m.gal.recs := by
  (unfold Mod.scan; repeat' split) <;> (first | with_reducible rfl | simp)
@[simp] theorem Mod.restartTile_recs (m : Mod) (tile : Nat) (since : Tread) : (Mod.restartTile m tile since).gal.recs = m.gal.recs := by
  (unfold Mod.restartTile; dsimp only []; repeat' (first | with_reducible rfl | assumption | (refine (over_recs _ _ _ (fun _ _ => ?_)).trans ?_) | (refine ite_recs _ _ _ _ ?_ ?_) | split | (simp; done)))
@[simp] theorem Mod.applyInputConfig_recs (m : Mod) : (Mod.applyInputConfig m).gal.recs = m.gal.recs := by unfold Mod.applyInputConfig; simp
@[simp] theorem Mod.setTpo_recs (m : Mod) (k : Nat) (s : TpoSt) : (Mod.setTpo m k s).gal.recs = m.gal.recs := by unfold Mod.setTpo; simp
@[simp] theorem Mod.setTime_recs (m : Mod) (t : TimeSt) : (Mod.setTime m t).gal.recs = m.gal.recs := by unfold Mod.setTime; simp
@[simp] theorem Mod.holdFrequency_recs (m : Mod) : (Mod.holdFrequency m).gal.recs = m.gal.recs := by unfold Mod.holdFrequency; simp
@[simp] theorem Mod.stepTime_recs (m : Mod) (ns : Nat) : (Mod.stepTime m ns).gal.recs = m.gal.recs := by
  unfold Mod.stepTime
  extract_lets t m1 m2
  have h : m2.gal.recs = m.gal.recs := by simp [m2, m1]
  clear_value m2
  split
  · exact h
  · split <;> simp [h]
@[simp] theorem Mod.holdover_recs (m : Mod) : (Mod.holdover m).gal.recs = m.gal.recs := by unfold Mod.holdover; simp
@[simp] theorem Mod.selectMaster_recs (m : Mod) : (Mod.selectMaster m).gal.recs = m.gal.recs := by
  (unfold Mod.selectMaster; dsimp only []; repeat' (first | with_reducible rfl | assumption | (refine (over_recs _ _ _ (fun _ _ => ?_)).trans ?_) | (refine ite_recs _ _ _ _ ?_ ?_) | split | (simp; done)))
@[simp] theorem Mod.announce_recs (m : Mod) (a : AnnounceIn) : (Mod.announce m a).gal.recs = m.gal.recs := by unfold Mod.announce; simp
@[simp] theorem Mod.masterLost_recs (m : Mod) : (Mod.masterLost m).gal.recs = m.gal.recs := by
  (unfold Mod.masterLost; repeat' split) <;> (first | with_reducible rfl | simp)
@[simp] theorem Mod.recordBehind_recs (m : Mod) : (Mod.recordBehind m).gal.recs = m.gal.recs := by unfold Mod.recordBehind; simp
@[simp] theorem Mod.masterBehind_recs (m : Mod) : (Mod.masterBehind m).gal.recs = m.gal.recs := by unfold Mod.masterBehind; simp
@[simp] theorem Mod.servo_recs (m : Mod) (o : Int) : (Mod.servo m o).gal.recs = m.gal.recs := by unfold Mod.servo; simp
@[simp] theorem Mod.sync_recs (m : Mod) (i : SyncIn) : (Mod.sync m i).gal.recs = m.gal.recs := by unfold Mod.sync; simp
@[simp] theorem Mod.servoFlight_recs (m : Mod) : (Mod.servoFlight m).gal.recs = m.gal.recs := by unfold Mod.servoFlight; simp
@[simp] theorem Mod.refLoss_recs (m : Mod) : (Mod.refLoss m).gal.recs = m.gal.recs := by unfold Mod.refLoss; simp
@[simp] theorem Mod.refReturn_recs (m : Mod) : (Mod.refReturn m).gal.recs = m.gal.recs := by unfold Mod.refReturn; simp
@[simp] theorem Mod.tpoArm_recs (m : Mod) (k : Nat) : (Mod.tpoArm m k).gal.recs = m.gal.recs := by unfold Mod.tpoArm; simp
@[simp] theorem Mod.tpoDisarm_recs (m : Mod) (k : Nat) : (Mod.tpoDisarm m k).gal.recs = m.gal.recs := by unfold Mod.tpoDisarm; simp
@[simp] theorem Mod.edge_recs (m : Mod) (t : Tread) (sig : Sig) (level : Bool) : (Mod.edge m t sig level).gal.recs = m.gal.recs := by unfold Mod.edge; simp
@[simp] theorem Mod.trgEdge_recs (m : Mod) (k : Nat) (falling : Bool) : (Mod.trgEdge m k falling).gal.recs = m.gal.recs := by unfold Mod.trgEdge; simp
@[simp] theorem Mod.tpoPulse_recs (m : Mod) (k : Nat) : (Mod.tpoPulse m k).gal.recs = m.gal.recs := by
  (unfold Mod.tpoPulse; dsimp only []; repeat' (first | with_reducible rfl | assumption | (refine (over_recs _ _ _ (fun _ _ => ?_)).trans ?_) | (refine ite_recs _ _ _ _ ?_ ?_) | split | (simp; done)))
@[simp] theorem Mod.tpoEnd_recs (m : Mod) (k : Nat) : (Mod.tpoEnd m k).gal.recs = m.gal.recs := by
  (unfold Mod.tpoEnd; dsimp only []; repeat' (first | with_reducible rfl | assumption | (refine (over_recs _ _ _ (fun _ _ => ?_)).trans ?_) | (refine ite_recs _ _ _ _ ?_ ?_) | split | (simp; done)))
@[simp] theorem Mod.tpoQuiet_recs (m : Mod) : (Mod.tpoQuiet m).gal.recs = m.gal.recs := by unfold Mod.tpoQuiet; simp
@[simp] theorem Mod.tpoStep_recs (m : Mod) (d : Nat) (n : Tread) : (Mod.tpoStep m d n).gal.recs = m.gal.recs := by
  (unfold Mod.tpoStep; dsimp only []; repeat' (first | with_reducible rfl | assumption | (refine (over_recs _ _ _ (fun _ _ => ?_)).trans ?_) | (refine ite_recs _ _ _ _ ?_ ?_) | split | (simp; done)))
@[simp] theorem Mod.tpoResume_recs (m : Mod) : (Mod.tpoResume m).gal.recs = m.gal.recs := by
  (unfold Mod.tpoResume; dsimp only []; repeat' (first | with_reducible rfl | assumption | (refine (over_recs _ _ _ (fun _ _ => ?_)).trans ?_) | (refine ite_recs _ _ _ _ ?_ ?_) | split | (simp; done)))
@[simp] theorem Mod.setCanPort_recs (m : Mod) (p : Nat) (s : CanPortSt) : (Mod.setCanPort m p s).gal.recs = m.gal.recs := by unfold Mod.setCanPort; simp
@[simp] theorem Mod.setCanRo_recs (m : Mod) (k sub v : Nat) : (Mod.setCanRo m k sub v).gal.recs = m.gal.recs := by unfold Mod.setCanRo; simp
@[simp] theorem Mod.canBump_recs (m : Mod) (k sub : Nat) : (Mod.canBump m k sub).gal.recs = m.gal.recs := by unfold Mod.canBump; simp
@[simp] theorem Mod.putMo_recs (m : Mod) (k : Nat) (s : CanObjSt) : (Mod.putMo m k s).gal.recs = m.gal.recs := by unfold Mod.putMo; simp
@[simp] theorem Mod.setErrors_recs (m : Mod) (p tec rec_ : Nat) : (Mod.setErrors m p tec rec_).gal.recs = m.gal.recs := by unfold Mod.setErrors; simp
@[simp] theorem Mod.offEnds_recs (m : Mod) (p : Nat) : (Mod.offEnds m p).gal.recs = m.gal.recs := by unfold Mod.offEnds; simp
@[simp] theorem Mod.canReceive_recs (m : Mod) (p : Nat) (f : CanFrame) : (Mod.canReceive m p f).gal.recs = m.gal.recs := by
  unfold Mod.canReceive
  split
  · rfl
  · extract_lets m0 m1 d l
    have h1 : m1.gal.recs = m.gal.recs := by simp [m1, m0]
    clear_value m1
    split
    · exact h1
    · split
      · exact h1
      · extract_lets m2 s q
        have h2 : m2.gal.recs = m.gal.recs := by simp [m2, h1]
        clear_value m2
        split
        · simp only [Mod.putMo_recs]
          split <;> simp [h2]
        · split
          · exact h2
          · simp [h2]
@[simp] theorem Mod.canBoundary_recs (m : Mod) : (Mod.canBoundary m).gal.recs = m.gal.recs := by
  (unfold Mod.canBoundary; dsimp only []; repeat' (first | with_reducible rfl | assumption | (refine (over_recs _ _ _ (fun _ _ => ?_)).trans ?_) | (refine ite_recs _ _ _ _ ?_ ?_) | split | (simp; done)))
@[simp] theorem Mod.goStale_recs (m : Mod) (k : Nat) : (Mod.goStale m k).gal.recs = m.gal.recs := by unfold Mod.goStale; simp
@[simp] theorem Mod.sendMo_recs (m : Mod) (k : Nat) : (Mod.sendMo m k).gal.recs = m.gal.recs := by unfold Mod.sendMo; simp
@[simp] theorem Mod.periodicSend_recs (m : Mod) (k : Nat) : (Mod.periodicSend m k).gal.recs = m.gal.recs := by unfold Mod.periodicSend; simp
@[simp] theorem Mod.noteOffers_recs (m : Mod) : (Mod.noteOffers m).gal.recs = m.gal.recs := by unfold Mod.noteOffers; simp
@[simp] theorem Mod.attemptEnds_recs (m : Mod) (p : Nat) : (Mod.attemptEnds m p).gal.recs = m.gal.recs := by unfold Mod.attemptEnds; simp
@[simp] theorem Mod.sent_recs (m : Mod) (p : Nat) (began : Nat) : (Mod.sent m p began).gal.recs = m.gal.recs := by
  unfold Mod.sent
  split
  · rfl
  · extract_lets x m1 m2 q1 m3 q2
    split
    · rfl
    · have h : m3.gal.recs = m.gal.recs := by simp [m3, m2, m1]
      clear_value m3
      split
      · exact h
      · simp only [Mod.canBump_recs]
        split <;> simp [h]
      · split <;> simp [h]
@[simp] theorem Mod.busOff_recs (m : Mod) (p mo : Nat) : (Mod.busOff m p mo).gal.recs = m.gal.recs := by unfold Mod.busOff; simp
@[simp] theorem Mod.moError_recs (m : Mod) (p k : Nat) (off : Bool) : (Mod.moError m p k off).gal.recs = m.gal.recs := by unfold Mod.moError; simp
@[simp] theorem Mod.respError_recs (m : Mod) (p : Nat) (off : Bool) : (Mod.respError m p off).gal.recs = m.gal.recs := by
  (unfold Mod.respError; dsimp only []; repeat' (first | with_reducible rfl | assumption | (refine (over_recs _ _ _ (fun _ _ => ?_)).trans ?_) | (refine ite_recs _ _ _ _ ?_ ?_) | split | (simp; done)))
@[simp] theorem Mod.sendError_recs (m : Mod) (p : Nat) (arbitration : Bool) (ack : Bool) (began : Nat) :
    (Mod.sendError m p arbitration ack began).gal.recs = m.gal.recs := by
  unfold Mod.sendError
  split
  · rfl
  · extract_lets x tec off m1 m2
    split
    · rfl
    · have h : m2.gal.recs = m.gal.recs := by simp [m2, m1]
      clear_value m2
      split
      · simp [h]
      · simp [h]
      · split <;> simp [h]
@[simp] theorem Mod.receiveError_recs (m : Mod) (p : Nat) (dominant : Bool) : (Mod.receiveError m p dominant).gal.recs = m.gal.recs := by unfold Mod.receiveError; simp
@[simp] theorem Mod.recover_recs (m : Mod) (p : Nat) : (Mod.recover m p).gal.recs = m.gal.recs := by unfold Mod.recover; simp
@[simp] theorem Mod.recovered_recs (m : Mod) (p sequences : Nat) : (Mod.recovered m p sequences).gal.recs = m.gal.recs := by unfold Mod.recovered; simp
@[simp] theorem Mod.dropPending_recs (m : Mod) (p : Nat) : (Mod.dropPending m p).gal.recs = m.gal.recs := by unfold Mod.dropPending; simp
@[simp] theorem Mod.emptyQueue_recs (m : Mod) (p : Nat) : (Mod.emptyQueue m p).gal.recs = m.gal.recs := by unfold Mod.emptyQueue; simp
@[simp] theorem Mod.portOn_recs (m : Mod) (p : Nat) : (Mod.portOn m p).gal.recs = m.gal.recs := by unfold Mod.portOn; simp
@[simp] theorem Mod.portOff_recs (m : Mod) (p : Nat) : (Mod.portOff m p).gal.recs = m.gal.recs := by unfold Mod.portOff; simp
@[simp] theorem Mod.integrated_recs (m : Mod) (p : Nat) : (Mod.integrated m p).gal.recs = m.gal.recs := by unfold Mod.integrated; simp
@[simp] theorem Mod.resetPort_recs (m : Mod) (p : Nat) : (Mod.resetPort m p).gal.recs = m.gal.recs := by unfold Mod.resetPort; simp
@[simp] theorem Mod.canAfresh_recs (m : Mod) : (Mod.canAfresh m).gal.recs = m.gal.recs := by unfold Mod.canAfresh; simp
@[simp] theorem Mod.claim_recs (m : Mod) (p a : Nat) : (Mod.claim m p a).1.gal.recs = m.gal.recs := by
  (unfold Mod.claim; dsimp only []; repeat' (first | with_reducible rfl | assumption | (refine (over_recs _ _ _ (fun _ _ => ?_)).trans ?_) | (refine ite_recs _ _ _ _ ?_ ?_) | split | (simp; done)))
@[simp] theorem Mod.acknowledge_recs (m : Mod) (p a seq : Nat) : (Mod.acknowledge m p a seq).gal.recs = m.gal.recs := by unfold Mod.acknowledge; simp
@[simp] theorem Mod.unclaimOne_recs (m : Mod) (p seq : Nat) : (Mod.unclaimOne m p seq).gal.recs = m.gal.recs := by unfold Mod.unclaimOne; simp
@[simp] theorem Mod.unclaim_recs (m : Mod) (a : Nat) : (Mod.unclaim m a).gal.recs = m.gal.recs := by unfold Mod.unclaim; simp
@[simp] theorem Mod.decideLand_recs (m : Mod) (t cause : Nat) : (Mod.decideLand m t cause).gal.recs = m.gal.recs := by unfold Mod.decideLand; simp
@[simp] theorem Mod.decideEnter_recs (m : Mod) (t step exit clear : Nat) : (Mod.decideEnter m t step exit clear).gal.recs = m.gal.recs := by unfold Mod.decideEnter; simp
@[simp] theorem Mod.runTimers_recs (m : Mod) : (Mod.runTimers m).gal.recs = m.gal.recs := by unfold Mod.runTimers; simp
@[simp] theorem Mod.takeTimeout_recs (m : Mod) (t : Nat) : (Mod.takeTimeout m t).gal.recs = m.gal.recs := by unfold Mod.takeTimeout; simp
@[simp] theorem Mod.takeGroup_recs (m : Mod) (t g : Nat) : (Mod.takeGroup m t g).gal.recs = m.gal.recs := by unfold Mod.takeGroup; simp
@[simp] theorem Mod.takeDuration_recs (m : Mod) (t : Nat) : (Mod.takeDuration m t).gal.recs = m.gal.recs := by unfold Mod.takeDuration; simp
@[simp] theorem Mod.chooseExit_recs (m : Mod) (t : Nat) (fault qa qb : Bool) : (Mod.chooseExit m t fault qa qb).gal.recs = m.gal.recs := by unfold Mod.chooseExit; simp
@[simp] theorem Mod.evalGroups_recs (m w : Mod) (t : Nat) (fault : Bool) : (Mod.evalGroups m w t fault).gal.recs = m.gal.recs := by unfold Mod.evalGroups; simp
@[simp] theorem Mod.enterFirst_recs (m : Mod) (t : Nat) : (Mod.enterFirst m t).gal.recs = m.gal.recs := by unfold Mod.enterFirst; simp
@[simp] theorem Mod.evalTrack_recs (m w : Mod) (t : Nat) : (Mod.evalTrack m w t).gal.recs = m.gal.recs := by
  (unfold Mod.evalTrack; dsimp only []; repeat' (first | with_reducible rfl | assumption | (refine (over_recs _ _ _ (fun _ _ => ?_)).trans ?_) | (refine ite_recs _ _ _ _ ?_ ?_) | split | (simp; done)))
@[simp] theorem Mod.evalTracks_recs (m : Mod) : (Mod.evalTracks m).gal.recs = m.gal.recs := by unfold Mod.evalTracks; simp
@[simp] theorem Mod.evalNow_recs (m : Mod) (t : Nat) : (Mod.evalNow m t).gal.recs = m.gal.recs := by unfold Mod.evalNow; simp
@[simp] theorem Mod.durationExit_recs (m : Mod) (t : Nat) : (Mod.durationExit m t).gal.recs = m.gal.recs := by unfold Mod.durationExit; simp
@[simp] theorem Mod.timeoutExit_recs (m : Mod) (t : Nat) : (Mod.timeoutExit m t).gal.recs = m.gal.recs := by unfold Mod.timeoutExit; simp
@[simp] theorem Mod.dwellEnd_recs (m : Mod) (t : Nat) : (Mod.dwellEnd m t).gal.recs = m.gal.recs := by unfold Mod.dwellEnd; simp
@[simp] theorem Mod.settleExit_recs (m : Mod) (t : Nat) : (Mod.settleExit m t).gal.recs = m.gal.recs := by unfold Mod.settleExit; simp
@[simp] theorem Mod.lateWake_recs (m : Mod) (t : Nat) : (Mod.lateWake m t).gal.recs = m.gal.recs := by
  (unfold Mod.lateWake; dsimp only []; repeat' (first | with_reducible rfl | assumption | (refine (over_recs _ _ _ (fun _ _ => ?_)).trans ?_) | (refine ite_recs _ _ _ _ ?_ ?_) | split | (simp; done)))
@[simp] theorem Mod.wokenEntry_recs (m : Mod) (t : Nat) : (Mod.wokenEntry m t).gal.recs = m.gal.recs := by
  (unfold Mod.wokenEntry; dsimp only []; repeat' (first | with_reducible rfl | assumption | (refine (over_recs _ _ _ (fun _ _ => ?_)).trans ?_) | (refine ite_recs _ _ _ _ ?_ ?_) | split | (simp; done)))
@[simp] theorem Mod.wakeCheck_recs (m : Mod) : (Mod.wakeCheck m).gal.recs = m.gal.recs := by unfold Mod.wakeCheck; simp
@[simp] theorem Mod.setDo_recs (m : Mod) (who o v : Nat) : (Mod.setDo m who o v).gal.recs = m.gal.recs := by unfold Mod.setDo; simp
@[simp] theorem Mod.applyPattern_recs (m : Mod) (b : Bank) (who pat : Nat) : (Mod.applyPattern m b who pat).gal.recs = m.gal.recs := by unfold Mod.applyPattern; simp
@[simp] theorem Mod.refuseAction_recs (m : Mod) (t step idx op : Nat) : (Mod.refuseAction m t step idx op).gal.recs = m.gal.recs := by unfold Mod.refuseAction; simp
@[simp] theorem Mod.applySet_recs (m : Mod) (b : Bank) (who t step set : Nat) : (Mod.applySet m b who t step set).gal.recs = m.gal.recs := by
  (unfold Mod.applySet; dsimp only []; repeat' (first | with_reducible rfl | assumption | (refine (over_recs _ _ _ (fun _ _ => ?_)).trans ?_) | (refine ite_recs _ _ _ _ ?_ ?_) | split | (simp; done)))
@[simp] theorem Mod.request_recs (m : Mod) (t p : Nat) (on : Bool) : (Mod.request m t p on).gal.recs = m.gal.recs := by unfold Mod.request; simp
theorem Mod.outAction_recs (m m' : Mod) (who op tgt v : Nat) : m.outAction who op tgt v = some m' → m'.gal.recs = m.gal.recs := by
  intro h; revert h; unfold Mod.outAction
  (repeat' split) <;> intro h <;> (first | (cases h; done) | (cases h; simp; done)  | (simp only [] at h; (repeat' split at h) <;> (first | (cases h; done) | (cases h; simp; done) )))
theorem Mod.loopAction_recs (m m' : Mod) (who op tgt v : Nat) : m.loopAction who op tgt v = some m' → m'.gal.recs = m.gal.recs := by
  intro h; revert h; unfold Mod.loopAction
  (repeat' split) <;> intro h <;> (first | (cases h; done) | (cases h; simp; done)  | (simp only [] at h; (repeat' split at h) <;> (first | (cases h; done) | (cases h; simp; done) )))
theorem Mod.tpoAction_recs (m m' : Mod) (k treads : Nat) (e : Tread) : m.tpoAction k treads e = some m' → m'.gal.recs = m.gal.recs := by
  intro h; revert h; unfold Mod.tpoAction
  (repeat' split) <;> intro h <;> (first | (cases h; done) | (cases h; simp; done)  | (simp only [] at h; (repeat' split at h) <;> (first | (cases h; done) | (cases h; simp; done) )))
theorem Mod.plainAction_recs (m m' : Mod) (who t step op tgt v : Nat) (e : Tread) : m.plainAction who t step op tgt v e = some m' → m'.gal.recs = m.gal.recs := by
  intro h; revert h; unfold Mod.plainAction
  (repeat' split) <;> intro h <;> (first | (cases h; done) | (cases h; simp; done) | exact Mod.tpoAction_recs _ _ _ _ _ h | (simp only [] at h; (repeat' split at h) <;> (first | (cases h; done) | (cases h; simp; done) | exact Mod.tpoAction_recs _ _ _ _ _ h)))
theorem Mod.simpleAction_recs (m m' : Mod) (who t step op tgt v : Nat) (e : Tread) : m.simpleAction who t step op tgt v e = some m' → m'.gal.recs = m.gal.recs := by
  intro h; revert h; unfold Mod.simpleAction
  (repeat' split) <;> intro h <;> (first | (cases h; done) | (cases h; simp; done) | exact Mod.outAction_recs _ _ _ _ _ _ h | exact Mod.loopAction_recs _ _ _ _ _ _ h | exact Mod.plainAction_recs _ _ _ _ _ _ _ _ _ h | (simp only [] at h; (repeat' split at h) <;> (first | (cases h; done) | (cases h; simp; done) | exact Mod.outAction_recs _ _ _ _ _ _ h | exact Mod.loopAction_recs _ _ _ _ _ _ h | exact Mod.plainAction_recs _ _ _ _ _ _ _ _ _ h)))
theorem Mod.axisAction_recs (m m' : Mod) (op tgt v : Nat) : m.axisAction op tgt v = some m' → m'.gal.recs = m.gal.recs := by
  intro h; revert h; unfold Mod.axisAction
  (repeat' split) <;> intro h <;> (first | (cases h; done) | (cases h; simp; done)  | (simp only [] at h; (repeat' split at h) <;> (first | (cases h; done) | (cases h; simp; done) )))
@[simp] theorem Mod.axisActions_recs (m : Mod) (t : Nat) (idxs : List Nat) : (Mod.axisActions m t idxs).gal.recs = m.gal.recs := by
  unfold Mod.axisActions
  refine over_recs _ _ _ (fun m i => ?_)
  extract_lets e
  split
  · rfl
  · split
    · rename_i m1 h
      split at h
      · exact Mod.axisAction_recs _ _ _ _ _ h
      · cases h
    · rfl
@[simp] theorem Mod.landingStops_recs (m : Mod) (b : Bank) (l : Nat) : (Mod.landingStops m b l).gal.recs = m.gal.recs := by unfold Mod.landingStops; simp
@[simp] theorem Mod.landingEffects_recs (m : Mod) (b : Bank) (t step l : Nat) (axes : Bool) : (Mod.landingEffects m b t step l axes).gal.recs = m.gal.recs := by
  unfold Mod.landingEffects
  extract_lets e who m1 m2 m3 m4
  have h2 : m2.gal.recs = m.gal.recs := by simp [m2, m1]
  have h3 : m3.gal.recs = m.gal.recs := by
    refine (over_recs _ _ _ (fun m i => ?_)).trans h2
    extract_lets a op r
    split
    · rfl
    · have h : ∀ m', r = some m' → m'.gal.recs = m.gal.recs := by
        intro m' h
        simp only [r] at h
        split at h
        · cases h
        · split at h
          · exact Mod.axisAction_recs _ _ _ _ _ h
          · exact Mod.simpleAction_recs _ _ _ _ _ _ _ _ _ h
      clear_value r
      cases r with
      | none => simp
      | some m' => exact h m' rfl
  have h4 : m4.gal.recs = m.gal.recs := by simp only [m4]; split <;> simp [h3]
  simp [h4]
@[simp] theorem Mod.setTrackState_recs (m : Mod) (t new cmd : Nat) : (Mod.setTrackState m t new cmd).gal.recs = m.gal.recs := by unfold Mod.setTrackState; simp
@[simp] theorem Mod.notify_recs (m : Mod) (a code : Nat) (data : List Nat) : (Mod.notify m a code data).gal.recs = m.gal.recs := by unfold Mod.notify; simp
@[simp] theorem Mod.becomeLanded_recs (m : Mod) (t l cause cmd : Nat) (ok : Bool) : (Mod.becomeLanded m t l cause cmd ok).gal.recs = m.gal.recs := by unfold Mod.becomeLanded; simp
@[simp] theorem Mod.landLater_recs (m : Mod) (t l : Nat) : (Mod.landLater m t l).gal.recs = m.gal.recs := by unfold Mod.landLater; simp
@[simp] theorem Mod.landNow_recs (m : Mod) (t cause cmd : Nat) : (Mod.landNow m t cause cmd).gal.recs = m.gal.recs := by unfold Mod.landNow; simp
@[simp] theorem Mod.startTrack_recs (m : Mod) (t entry owner cmd : Nat) : (Mod.startTrack m t entry owner cmd).gal.recs = m.gal.recs := by unfold Mod.startTrack; simp
@[simp] theorem Mod.clearTrack_recs (m : Mod) (t : Nat) : (Mod.clearTrack m t).gal.recs = m.gal.recs := by unfold Mod.clearTrack; simp
@[simp] theorem Mod.command_recs (m : Mod) (t code entry a : Nat) : (Mod.command m t code entry a).gal.recs = m.gal.recs := by
  (unfold Mod.command; repeat' split) <;> (first | with_reducible rfl | simp)
@[simp] theorem Mod.countBlock_recs (m : Mod) (s : Nat) (z : StreamSt) (base : Nat) : (Mod.countBlock m s z base).gal.recs = m.gal.recs := by
  unfold Mod.countBlock; simp
@[simp] theorem Mod.drainBlock_recs (m : Mod) (s : Nat) (v : StreamSt) (b : Block) (used : Bool) : (Mod.drainBlock m s v b used).gal.recs = m.gal.recs := by
  (unfold Mod.drainBlock; split) <;> simp
@[simp] theorem Mod.closeBlock_recs (m : Mod) (s : Nat) (last : Tread) (capLast : Bool) : (Mod.closeBlock m s last capLast).gal.recs = m.gal.recs := by
  unfold Mod.closeBlock
  extract_lets
  split
  · rfl
  · extract_lets
    split
    · rfl
    · exact (Mod.drainBlock_recs _ _ _ _ _).trans (Mod.countBlock_recs _ _ _ _)
@[simp] theorem Mod.blockClose_recs (m : Mod) (s : Nat) : (Mod.blockClose m s).gal.recs = m.gal.recs := by
  (unfold Mod.blockClose; repeat' split) <;> (first | with_reducible rfl | simp)
@[simp] theorem Mod.noteRing_recs (m : Mod) (s : Nat) (v : StreamSt) (b : Block) (n : Nat) : (Mod.noteRing m s v b n).gal.recs = m.gal.recs := by
  unfold Mod.noteRing; simp
@[simp] theorem Mod.noteGap_recs (m : Mod) (b : Block) : (Mod.noteGap m b).gal.recs = m.gal.recs := by
  (unfold Mod.noteGap; split) <;> simp
@[simp] theorem Mod.writeDrain_recs (m : Mod) (s : Nat) : (Mod.writeDrain m s).gal.recs = m.gal.recs := by
  unfold Mod.writeDrain
  extract_lets
  split
  · rfl
  · exact ((Mod.noteGap_recs _ _).trans (Mod.noteRing_recs _ _ _ _ _)).trans (Mod.setRecord_recs _ _)
@[simp] theorem Mod.ringWrite_recs (m : Mod) (s : Nat) : (Mod.ringWrite m s).gal.recs = m.gal.recs := by
  (unfold Mod.ringWrite; repeat' split) <;> (first | with_reducible rfl | simp)
@[simp] theorem Mod.closeDown_recs (m : Mod) (s : Nat) (last : Tread) (capLast : Bool) (n : Nat) :
    (m.closeDown s last capLast n).gal.recs = m.gal.recs := by
  induction n generalizing m with
  | zero => rfl
  | succ n ih =>
    unfold Mod.closeDown
    extract_lets m1
    split
    · simp [m1]
    · split
      · simp [m1]
      · rw [ih]; simp [m1]
@[simp] theorem Mod.endStream_recs (m : Mod) (s : Nat) (last : Tread) (capLast : Bool) : (Mod.endStream m s last capLast).gal.recs = m.gal.recs := by
  unfold Mod.endStream; extract_lets m1; simp [m1]
@[simp] theorem Mod.disableStream_recs (m : Mod) (s : Nat) : (Mod.disableStream m s).gal.recs = m.gal.recs := by unfold Mod.disableStream; simp
@[simp] theorem Mod.drainPackets_recs (m : Mod) (s kind : Nat) (l : List (List Nat × Option Tread)) : (Mod.drainPackets m s kind l).gal.recs = m.gal.recs := by
  (unfold Mod.drainPackets; dsimp only []; repeat' (first | with_reducible rfl | assumption | (refine (over_recs _ _ _ (fun _ _ => ?_)).trans ?_) | (refine ite_recs _ _ _ _ ?_ ?_) | split | (simp; done)))
@[simp] theorem Mod.drainChains_recs (m : Mod) : (Mod.drainChains m).gal.recs = m.gal.recs := by unfold Mod.drainChains; simp
@[simp] theorem Mod.keepMap_recs (m : Mod) (s : Nat) (first : Tread) : (Mod.keepMap m s first).gal.recs = m.gal.recs := by unfold Mod.keepMap; simp
@[simp] theorem Mod.remap_recs (m : Mod) (k id : Nat) : (Mod.remap m k id).gal.recs = m.gal.recs := by
  unfold Mod.remap
  extract_lets old m1
  have h1 : m1.gal.recs = m.gal.recs := by simp only [m1]; split <;> simp
  simp [h1]
@[simp] theorem Mod.mapPass_recs (m : Mod) : (Mod.mapPass m).gal.recs = m.gal.recs := by
  unfold Mod.mapPass
  refine over_recs _ _ _ (fun m s => ?_)
  split
  · rfl
  · split
    · rfl
    · extract_lets z m1 m2 m3
      have h1 : m1.gal.recs = m.gal.recs := by simp [m1]
      have h2 : m2.gal.recs = m.gal.recs := by simp [m2, h1]
      have h3 : m3.gal.recs = m.gal.recs := by simp only [m3]; split <;> simp [h2]
      simp [h3]
@[simp] theorem Mod.firstMap_recs (m : Mod) (s : Nat) (t : Tread) : (Mod.firstMap m s t).gal.recs = m.gal.recs := by unfold Mod.firstMap; simp
@[simp] theorem Mod.newMaps_recs (m : Mod) (t : Tread) : (Mod.newMaps m t).gal.recs = m.gal.recs := by
  (unfold Mod.newMaps; dsimp only []; repeat' (first | with_reducible rfl | assumption | (refine (over_recs _ _ _ (fun _ _ => ?_)).trans ?_) | (refine ite_recs _ _ _ _ ?_ ?_) | split | (simp; done)))
@[simp] theorem Mod.openBlock_recs (m : Mod) (s : Nat) (t : Tread) : (Mod.openBlock m s t).gal.recs = m.gal.recs := by unfold Mod.openBlock; simp
@[simp] theorem Mod.openStreams_recs (m : Mod) (t : Tread) : (Mod.openStreams m t).gal.recs = m.gal.recs := by unfold Mod.openStreams; simp
@[simp] theorem Mod.haltStreams_recs (m : Mod) (last : Tread) (cause : Nat) : (Mod.haltStreams m last cause).gal.recs = m.gal.recs := by unfold Mod.haltStreams; simp
@[simp] theorem Mod.loseStreams_recs (m : Mod) : (Mod.loseStreams m).gal.recs = m.gal.recs := by unfold Mod.loseStreams; simp
@[simp] theorem Mod.dpFrame_recs (m : Mod) (kind segment seq : Nat) (body : List Nat) : (Mod.dpFrame m kind segment seq body).gal.recs = m.gal.recs := by unfold Mod.dpFrame; simp
@[simp] theorem Mod.sendBlock_recs (m : Mod) (n bytes : Nat) : (Mod.sendBlock m n bytes).gal.recs = m.gal.recs := by
  (unfold Mod.sendBlock; repeat' split) <;> (first | with_reducible rfl | simp)
@[simp] theorem Mod.dpSend_recs (m : Mod) : (Mod.dpSend m).gal.recs = m.gal.recs := by
  unfold Mod.dpSend
  split
  · rfl
  extract_lets a1 a2 a3 a4 a5 a6 a7 a8
  have h : a7.gal.recs = m.gal.recs := by
    simp only [a7]
    split
    · simp [a5]
    · rfl
  clear_value a7
  split <;> simp [h]
@[simp] theorem Mod.dpStatus_recs (m : Mod) : (Mod.dpStatus m).gal.recs = m.gal.recs := by unfold Mod.dpStatus; simp
@[simp] theorem Mod.pauseFrame_recs (m : Mod) (quanta : Nat) : (Mod.pauseFrame m quanta).gal.recs = m.gal.recs := by unfold Mod.pauseFrame; simp
@[simp] theorem Mod.dpStart_recs (m : Mod) : (Mod.dpStart m).gal.recs = m.gal.recs := by unfold Mod.dpStart; simp
@[simp] theorem Mod.openCapture_recs (m : Mod) (k off : Nat) : (Mod.openCapture m k off).gal.recs = m.gal.recs := by unfold Mod.openCapture; simp
@[simp] theorem Mod.trigNext_recs (m : Mod) (k : Nat) : (Mod.trigNext m k).gal.recs = m.gal.recs := by
  (unfold Mod.trigNext; repeat' split) <;> (first | with_reducible rfl | simp)
@[simp] theorem Mod.fireConverters_recs (m : Mod) (k off : Nat) : (Mod.fireConverters m k off).gal.recs = m.gal.recs := by unfold Mod.fireConverters; simp
@[simp] theorem Mod.openFire_recs (m : Mod) (k place : Nat) : (Mod.openFire m k place).gal.recs = m.gal.recs := by unfold Mod.openFire; simp
@[simp] theorem Mod.openFires_recs (m : Mod) : (Mod.openFires m).gal.recs = m.gal.recs := by unfold Mod.openFires; simp
@[simp] theorem Mod.fireTrigger_recs (m : Mod) (k off : Nat) (raw : Bool) : (Mod.fireTrigger m k off raw).gal.recs = m.gal.recs := by unfold Mod.fireTrigger; simp
@[simp] theorem Mod.triggerFire_recs (m : Mod) (k off : Nat) (raw : Option Int) (falling : Bool) : (Mod.triggerFire m k off raw falling).gal.recs = m.gal.recs := by unfold Mod.triggerFire; simp
@[simp] theorem Mod.triggerArm_recs (m : Mod) (k v : Nat) : (Mod.triggerArm m k v).gal.recs = m.gal.recs := by unfold Mod.triggerArm; simp
@[simp] theorem Mod.holdOffEnd_recs (m : Mod) (k : Nat) : (Mod.holdOffEnd m k).gal.recs = m.gal.recs := by unfold Mod.holdOffEnd; simp
@[simp] theorem Mod.windowClose_recs (m : Mod) (k : Nat) : (Mod.windowClose m k).gal.recs = m.gal.recs := by
  (unfold Mod.windowClose; repeat' split) <;> (first | with_reducible rfl | simp)
@[simp] theorem Mod.recordLoops_recs (m : Mod) : (Mod.recordLoops m).gal.recs = m.gal.recs := by
  unfold Mod.recordLoops
  refine over_recs _ _ _ (fun m p => ?_)
  split
  · split <;> simp
  · rfl
@[simp] theorem Mod.pairEvent_recs (m : Mod) (side k code event : Nat) : (Mod.pairEvent m side k code event).gal.recs = m.gal.recs := by unfold Mod.pairEvent; simp
@[simp] theorem Mod.cutPass_recs (m : Mod) : (Mod.cutPass m).gal.recs = m.gal.recs := by unfold Mod.cutPass; simp
@[simp] theorem Mod.allOff_recs (m : Mod) : (Mod.allOff m).gal.recs = m.gal.recs := by
  unfold Mod.allOff; exact over_recs _ _ _ (fun m p => by split <;> simp)
@[simp] theorem Mod.inputFault_recs (m : Mod) (k ch code : Nat) : (Mod.inputFault m k ch code).gal.recs = m.gal.recs := by unfold Mod.inputFault; simp
@[simp] theorem Mod.latchOut_recs (m : Mod) (p code event : Nat) : (Mod.latchOut m p code event).gal.recs = m.gal.recs := by unfold Mod.latchOut; simp
@[simp] theorem Mod.failsOn_recs (m : Mod) (p ch : Nat) : (Mod.failsOn m p ch).gal.recs = m.gal.recs := by unfold Mod.failsOn; simp
@[simp] theorem Mod.failsOff_recs (m : Mod) (p ch : Nat) : (Mod.failsOff m p ch).gal.recs = m.gal.recs := by unfold Mod.failsOff; simp
@[simp] theorem Mod.windowExpiry_recs (m : Mod) (side k : Nat) : (Mod.windowExpiry m side k).gal.recs = m.gal.recs := by unfold Mod.windowExpiry; simp
@[simp] theorem Mod.discrepancyFault_recs (m : Mod) (k : Nat) : (Mod.discrepancyFault m k).gal.recs = m.gal.recs := by unfold Mod.discrepancyFault; simp
@[simp] theorem Mod.judgePair_recs (m : Mod) (k : Nat) : (Mod.judgePair m k).gal.recs = m.gal.recs := by unfold Mod.judgePair; simp
@[simp] theorem Mod.cycleIn_recs (m : Mod) (chans : List (Nat × ChanIn)) (k : Nat) : (Mod.cycleIn m chans k).gal.recs = m.gal.recs := by unfold Mod.cycleIn; simp
@[simp] theorem Mod.readOut_recs (m : Mod) (rb : List (Nat × Bool)) (p : Nat) : (Mod.readOut m rb p).gal.recs = m.gal.recs := by unfold Mod.readOut; simp
@[simp] theorem Mod.cycleOut_recs (m : Mod) (rb : List (Nat × Bool)) (p : Nat) : (Mod.cycleOut m rb p).gal.recs = m.gal.recs := by unfold Mod.cycleOut; simp
@[simp] theorem Mod.safeStop_recs (m : Mod) : (Mod.safeStop m).gal.recs = m.gal.recs := by unfold Mod.safeStop; simp
@[simp] theorem Mod.cycleIns_recs (m : Mod) (chans : List (Nat × ChanIn)) : (Mod.cycleIns m chans).gal.recs = m.gal.recs := by
  unfold Mod.cycleIns; exact over_recs _ _ _ (fun m p => by simp)
@[simp] theorem Mod.cycleOuts_recs (m : Mod) (rb : List (Nat × Bool)) : (Mod.cycleOuts m rb).gal.recs = m.gal.recs := by
  unfold Mod.cycleOuts; exact over_recs _ _ _ (fun m p => by simp)
@[simp] theorem Mod.safetyCycle_recs (m0 : Mod) (i : SafetyIn) : (Mod.safetyCycle m0 i).gal.recs = m0.gal.recs := by unfold Mod.safetyCycle; simp
@[simp] theorem Mod.offDelayExpiry_recs (m : Mod) (p : Nat) : (Mod.offDelayExpiry m p).gal.recs = m.gal.recs := by unfold Mod.offDelayExpiry; simp
@[simp] theorem Mod.safetyDebounce_recs (m : Mod) (k ch : Nat) : (Mod.safetyDebounce m k ch).gal.recs = m.gal.recs := by
  (unfold Mod.safetyDebounce; dsimp only []; repeat' (first | with_reducible rfl | assumption | (refine (over_recs _ _ _ (fun _ _ => ?_)).trans ?_) | (refine ite_recs _ _ _ _ ?_ ?_) | split | (simp; done)))
@[simp] theorem Mod.safeDark_recs (m : Mod) (p ch : Nat) (fell : Option Nat) : (Mod.safeDark m p ch fell).gal.recs = m.gal.recs := by
  unfold Mod.safeDark
  extract_lets s cyc pass sw m0 m1 z m2
  have h0 : m0.gal.recs = m.gal.recs := rfl
  have h2 : m2.gal.recs = m.gal.recs := by simp only [m2]; simp [m1]
  clear_value m2 m0
  (repeat' split) <;> simp [h2, h0]
@[simp] theorem Mod.logicLoss_recs (m : Mod) : (Mod.logicLoss m).gal.recs = m.gal.recs := by unfold Mod.logicLoss; simp
@[simp] theorem Mod.restartPair_recs (m : Mod) (p : Nat) : (Mod.restartPair m p).gal.recs = m.gal.recs := by unfold Mod.restartPair; simp
@[simp] theorem Mod.faultResetDo_recs (m : Mod) (side k : Nat) : (Mod.faultResetDo m side k).gal.recs = m.gal.recs := by unfold Mod.faultResetDo; simp
@[simp] theorem Mod.arm_recs (m : Mod) (a : Nat) : (Mod.arm m a).gal.recs = m.gal.recs := by unfold Mod.arm; simp
@[simp] theorem Mod.disarm_recs (m : Mod) : (Mod.disarm m).gal.recs = m.gal.recs := by unfold Mod.disarm; simp
@[simp] theorem Mod.safetyReset_recs (m : Mod) : (Mod.safetyReset m).gal.recs = m.gal.recs := by unfold Mod.safetyReset; simp
@[simp] theorem Mod.domainRuns_recs (m : Mod) : (Mod.domainRuns m).gal.recs = m.gal.recs := by unfold Mod.domainRuns; simp
@[simp] theorem Mod.armTimeout_recs (m : Mod) : (Mod.armTimeout m).gal.recs = m.gal.recs := by
  (unfold Mod.armTimeout; repeat' split) <;> (first | with_reducible rfl | simp)
@[simp] theorem Mod.storePending_recs (m : Mod) : (Mod.storePending m).gal.recs = m.gal.recs := by unfold Mod.storePending; simp
@[simp] theorem Mod.powerSafety_recs (m : Mod) (activeOk pendingOk : Bool) : (Mod.powerSafety m activeOk pendingOk).gal.recs = m.gal.recs := by unfold Mod.powerSafety; simp
@[simp] theorem Mod.setJournal_recs (m : Mod) (j : JournalSt) : (Mod.setJournal m j).gal.recs = m.gal.recs := by unfold Mod.setJournal; simp
@[simp] theorem Mod.setReset_recs (m : Mod) (r : ResetSt) : (Mod.setReset m r).gal.recs = m.gal.recs := by unfold Mod.setReset; simp
@[simp] theorem Mod.endFlight_recs (m : Mod) (asStands : Mod) : (Mod.endFlight m asStands).gal.recs = m.gal.recs := by unfold Mod.endFlight; simp
@[simp] theorem Mod.startCheckpoint_recs (m : Mod) (f : Nat) (requested : Bool) : (Mod.startCheckpoint m f requested).gal.recs = m.gal.recs := by
  (unfold Mod.startCheckpoint; dsimp only []; repeat' (first | with_reducible rfl | assumption | (refine (over_recs _ _ _ (fun _ _ => ?_)).trans ?_) | (refine ite_recs _ _ _ _ ?_ ?_) | split | (simp; done)))
@[simp] theorem Mod.completeCheckpoint_recs (m : Mod) : (Mod.completeCheckpoint m).gal.recs = m.gal.recs := by
  (unfold Mod.completeCheckpoint; dsimp only []; repeat' (first | with_reducible rfl | assumption | (refine (over_recs _ _ _ (fun _ _ => ?_)).trans ?_) | (refine ite_recs _ _ _ _ ?_ ?_) | split | (simp; done)))
@[simp] theorem Mod.enterDelta_recs (m : Mod) (k v : Nat) : (Mod.enterDelta m k v).gal.recs = m.gal.recs := by unfold Mod.enterDelta; simp
@[simp] theorem Mod.writeCopy_recs (m : Mod) : (Mod.writeCopy m).gal.recs = m.gal.recs := by unfold Mod.writeCopy; simp
@[simp] theorem Mod.restorePool_recs (m : Mod) : (Mod.restorePool m).gal.recs = m.gal.recs := by
  (unfold Mod.restorePool; dsimp only []; repeat' (first | with_reducible rfl | assumption | (refine (over_recs _ _ _ (fun _ _ => ?_)).trans ?_) | (refine ite_recs _ _ _ _ ?_ ?_) | split | (simp; done)))
@[simp] theorem Mod.freeTokens_recs (m : Mod) : (Mod.freeTokens m).gal.recs = m.gal.recs := by unfold Mod.freeTokens; simp
@[simp] theorem Mod.cutLoads_recs (m : Mod) : (Mod.cutLoads m).gal.recs = m.gal.recs := by unfold Mod.cutLoads; simp
@[simp] theorem Mod.dropLogic_recs (m : Mod) : (Mod.dropLogic m).gal.recs = m.gal.recs := by
  unfold Mod.dropLogic
  extract_lets a1 a2 a3
  have h1 : a1.gal.recs = m.gal.recs := by simp [a1]
  have h2 : a2.gal.recs = m.gal.recs := (over_recs _ _ _ (fun m s => by split <;> simp)).trans h1
  have h3 : a3.gal.recs = m.gal.recs := by simp [a3, h2]
  clear_value a3
  exact h3
@[simp] theorem Mod.endStandby_recs (m : Mod) : (Mod.endStandby m).gal.recs = m.gal.recs := by unfold Mod.endStandby; simp
@[simp] theorem Mod.pfailFall_recs (m : Mod) (us : Nat) : (Mod.pfailFall m us).gal.recs = m.gal.recs := by unfold Mod.pfailFall; simp
@[simp] theorem Mod.pfailRise_recs (m : Mod) (us : Nat) : (Mod.pfailRise m us).gal.recs = m.gal.recs := by
  (unfold Mod.pfailRise; repeat' split) <;> (first | with_reducible rfl | simp)
@[simp] theorem Mod.countTiles_recs (m : Mod) : (Mod.countTiles m).gal.recs = m.gal.recs := by unfold Mod.countTiles; simp
@[simp] theorem Mod.tileMaps_recs (m : Mod) (tile : Nat) (t : Tread) : (Mod.tileMaps m tile t).gal.recs = m.gal.recs := by unfold Mod.tileMaps; simp
@[simp] theorem Mod.linkMap_recs (m : Mod) (tile : Nat) (t : Tread) : (Mod.linkMap m tile t).gal.recs = m.gal.recs := by unfold Mod.linkMap; simp
@[simp] theorem Mod.sleepTile_recs (m : Mod) (t : Nat) : (Mod.sleepTile m t).gal.recs = m.gal.recs := by unfold Mod.sleepTile; simp
@[simp] theorem Mod.gateTiles_recs (m : Mod) (mask : Nat) : (Mod.gateTiles m mask).gal.recs = m.gal.recs := by unfold Mod.gateTiles; simp
@[simp] theorem Mod.gateEarly_recs (m : Mod) : (Mod.gateEarly m).gal.recs = m.gal.recs := by unfold Mod.gateEarly; simp
@[simp] theorem Mod.gateLinks_recs (m : Mod) : (Mod.gateLinks m).gal.recs = m.gal.recs := by unfold Mod.gateLinks; simp
@[simp] theorem Mod.wakePass_recs (m : Mod) : (Mod.wakePass m).gal.recs = m.gal.recs := by unfold Mod.wakePass; simp
@[simp] theorem Mod.wakeTile_recs (m : Mod) (t : Nat) : (Mod.wakeTile m t).gal.recs = m.gal.recs := by unfold Mod.wakeTile; simp
@[simp] theorem Mod.powerPass_recs (m : Mod) : (Mod.powerPass m).gal.recs = m.gal.recs := by unfold Mod.powerPass; simp
@[simp] theorem Mod.portsDown_recs (m : Mod) : (Mod.portsDown m).gal.recs = m.gal.recs := by unfold Mod.portsDown; simp
@[simp] theorem Mod.repeatImage_recs (m : Mod) : (Mod.repeatImage m).gal.recs = m.gal.recs := by unfold Mod.repeatImage; simp
@[simp] theorem Mod.renewHall_recs (m : Mod) (n : Tread) : (Mod.renewHall m n).gal.recs = m.gal.recs := by unfold Mod.renewHall; simp
@[simp] theorem Mod.setRoOf_recs (m : Mod) (a idx sub v : Nat) : (Mod.setRoOf m a idx sub v).gal.recs = m.gal.recs := by unfold Mod.setRoOf; simp
@[simp] theorem Mod.grant_recs (m : Mod) (a mask code : Nat) : (Mod.grant m a mask code).gal.recs = m.gal.recs := by
  unfold Mod.grant; generalize List.find? _ _ = o; cases o <;> simp
@[simp] theorem Mod.endGrant_recs (m : Mod) (slot : Nat) : (Mod.endGrant m slot).gal.recs = m.gal.recs := by unfold Mod.endGrant; simp
@[simp] theorem Mod.freeLost_recs (m : Mod) : (Mod.freeLost m).gal.recs = m.gal.recs := by unfold Mod.freeLost; simp
@[simp] theorem Mod.holderLeaves_recs (m : Mod) (a : Nat) : (Mod.holderLeaves m a).gal.recs = m.gal.recs := by unfold Mod.holderLeaves; simp
@[simp] theorem Mod.galleryClear_recs (m : Mod) (a role : Nat) : (Mod.galleryClear m a role).gal.recs = m.gal.recs := by unfold Mod.galleryClear; simp
@[simp] theorem Mod.validationEnd_recs (m : Mod) : (Mod.validationEnd m).gal.recs = m.gal.recs := by unfold Mod.validationEnd; simp
@[simp] theorem Mod.startPulse_recs (m : Mod) (o us : Nat) : (Mod.startPulse m o us).gal.recs = m.gal.recs := by unfold Mod.startPulse; simp
@[simp] theorem Mod.endPulse_recs (m : Mod) (before after : Nat) : (Mod.endPulse m before after).gal.recs = m.gal.recs := by
  (unfold Mod.endPulse; repeat' split) <;> (first | with_reducible rfl | simp)
@[simp] theorem Mod.setFw_recs (m : Mod) (f : FirmwareSt) : (Mod.setFw m f).gal.recs = m.gal.recs := by unfold Mod.setFw; simp
@[simp] theorem Mod.fwBegin_recs (m : Mod) : (Mod.fwBegin m).gal.recs = m.gal.recs := by unfold Mod.fwBegin; simp
@[simp] theorem Mod.fwChunk_recs (m : Mod) (len data : Nat) : (Mod.fwChunk m len data).gal.recs = m.gal.recs := by unfold Mod.fwChunk; simp
@[simp] theorem Mod.fwCancel_recs (m : Mod) : (Mod.fwCancel m).gal.recs = m.gal.recs := by unfold Mod.fwCancel; simp
@[simp] theorem Mod.fwVerified_recs (m : Mod) (orderOk formatOk : Bool) (version : Nat) : (Mod.fwVerified m orderOk formatOk version).gal.recs = m.gal.recs := by unfold Mod.fwVerified; simp
@[simp] theorem Mod.fwRecord_recs (m : Mod) : (Mod.fwRecord m).gal.recs = m.gal.recs := by unfold Mod.fwRecord; simp
@[simp] theorem Mod.activate_recs (m : Mod) : (Mod.activate m).gal.recs = m.gal.recs := by unfold Mod.activate; simp
@[simp] theorem Mod.runSlot_recs (m : Mod) (slot : Nat) : (Mod.runSlot m slot).gal.recs = m.gal.recs := by unfold Mod.runSlot; simp
@[simp] theorem Mod.hkStart_recs (m : Mod) : (Mod.hkStart m).gal.recs = m.gal.recs := by unfold Mod.hkStart; simp
@[simp] theorem Mod.confirmFw_recs (m : Mod) : (Mod.confirmFw m).gal.recs = m.gal.recs := by unfold Mod.confirmFw; simp
@[simp] theorem Mod.trialTimeout_recs (m : Mod) (failed : Bool) : (Mod.trialTimeout m failed).gal.recs = m.gal.recs := by
  (unfold Mod.trialTimeout; repeat' split) <;> (first | with_reducible rfl | simp)
@[simp] theorem Mod.enterBlock_recs (m : Mod) (b : Nat) : (Mod.enterBlock m b).gal.recs = m.gal.recs := by unfold Mod.enterBlock; simp
@[simp] theorem Mod.blockReset_recs (m : Mod) (mask : Nat) : (Mod.blockReset m mask).gal.recs = m.gal.recs := by unfold Mod.blockReset; simp
@[simp] theorem Mod.leaveBlock_recs (m : Mod) (b : Nat) : (Mod.leaveBlock m b).gal.recs = m.gal.recs := by unfold Mod.leaveBlock; simp
@[simp] theorem Mod.setPartner_recs (m : Mod) (a : Nat) (p : Partner) : (Mod.setPartner m a p).gal.recs = m.gal.recs := by unfold Mod.setPartner; simp
@[simp] theorem Mod.fillSnaps_recs (m : Mod) : (Mod.fillSnaps m).gal.recs = m.gal.recs := by unfold Mod.fillSnaps; simp
@[simp] theorem Mod.overlay_recs (m : Mod) (a : Nat) (e : Entry) : (Mod.overlay m a e).gal.recs = m.gal.recs := by unfold Mod.overlay; simp
@[simp] theorem Mod.overlayIn_recs (m : Mod) (a : Nat) (e : Entry) (dead : Bool) (later : List Entry) : (Mod.overlayIn m a e dead later).gal.recs = m.gal.recs := by unfold Mod.overlayIn; simp
@[simp] theorem Mod.depart_recs (m : Mod) (a why : Nat) (sealed_ : Tread) : (Mod.depart m a why sealed_).gal.recs = m.gal.recs := by
  (unfold Mod.depart; repeat' split) <;> (first | with_reducible rfl | simp)
@[simp] theorem Mod.send_recs (m : Mod) (r : Reply) : (Mod.send m r).gal.recs = m.gal.recs := by
  (unfold Mod.send; repeat' split) <;> (first | with_reducible rfl | simp)
@[simp] theorem Mod.finalReply_recs (m : Mod) (r : Reply) (journalled : Bool) : (Mod.finalReply m r journalled).gal.recs = m.gal.recs := by unfold Mod.finalReply; simp
@[simp] theorem Mod.releaseHeld_recs (n : Nat) (m : Mod) : (Mod.releaseHeld n m).gal.recs = m.gal.recs := by
  induction n generalizing m with
  | zero => rfl
  | succ n ih =>
    unfold Mod.releaseHeld
    split
    · rw [ih]; simp
    · rfl
@[simp] theorem Mod.flush_recs (m : Mod) : (Mod.flush m).gal.recs = m.gal.recs := by
  unfold Mod.flush; exact Mod.releaseHeld_recs _ _
@[simp] theorem Mod.imageFailed_recs (m : Mod) (a map status pos : Nat) : (Mod.imageFailed m a map status pos).gal.recs = m.gal.recs := by
  (unfold Mod.imageFailed; dsimp only []; repeat' (first | with_reducible rfl | assumption | (refine (over_recs _ _ _ (fun _ _ => ?_)).trans ?_) | (refine ite_recs _ _ _ _ ?_ ?_) | split | (simp; done)))
@[simp] theorem Mod.refuseIsolated_recs (m : Mod) (sealed_ : Tread) : (Mod.refuseIsolated m sealed_).gal.recs = m.gal.recs := by
  unfold Mod.refuseIsolated
  extract_lets w r m1 m2
  have h2 : m2.gal.recs = m.gal.recs := by
    refine (over_recs _ _ _ (fun m s => ?_)).trans rfl
    extract_lets pos
    split <;> simp
  rw [Mod.flush_recs]
  exact (over_recs _ _ _ (fun m s => by simp)).trans h2
@[simp] theorem Mod.loseSatellites_recs (m : Mod) (a : Nat) : (Mod.loseSatellites m a).gal.recs = m.gal.recs := by unfold Mod.loseSatellites; simp
@[simp] theorem Mod.leaveHall_recs (m : Mod) (a : Nat) : (Mod.leaveHall m a).gal.recs = m.gal.recs := by unfold Mod.leaveHall; simp
@[simp] theorem Mod.canJoin_recs (m : Mod) (p : Nat) : (Mod.canJoin m p).gal.recs = m.gal.recs := by
  (unfold Mod.canJoin; repeat' split) <;> (first | with_reducible rfl | simp)
@[simp] theorem Mod.canLeave_recs (m : Mod) (p : Nat) : (Mod.canLeave m p).gal.recs = m.gal.recs := by unfold Mod.canLeave; simp
@[simp] theorem Mod.canService_recs (m : Mod) (p v : Nat) : (Mod.canService m p v).gal.recs = m.gal.recs := by
  (unfold Mod.canService; dsimp only []; repeat' (first | with_reducible rfl | assumption | (refine (over_recs _ _ _ (fun _ _ => ?_)).trans ?_) | (refine ite_recs _ _ _ _ ?_ ?_) | split | (simp; done)))
@[simp] theorem Mod.store_recs (m : Mod) (who a : Nat) (e : Entry) : (Mod.store m who a e).gal.recs = m.gal.recs := by unfold Mod.store; simp
@[simp] theorem Mod.warnHold_recs (m : Mod) : (Mod.warnHold m).gal.recs = m.gal.recs := by unfold Mod.warnHold; simp
@[simp] theorem Mod.writeTable_recs (m : Mod) (who j data : Nat) : (Mod.writeTable m who j data).gal.recs = m.gal.recs := by unfold Mod.writeTable; simp
@[simp] theorem Mod.actLoop_recs (m : Mod) (who a : Nat) (e : Entry) (p : Place) (later : List Entry) : (Mod.actLoop m who a e p later).gal.recs = m.gal.recs := by
  (unfold Mod.actLoop; repeat' split) <;> (first | with_reducible rfl | simp)
@[simp] theorem Mod.actField_recs (m : Mod) (who a : Nat) (e : Entry) (p : Place) : (Mod.actField m who a e p).gal.recs = m.gal.recs := by
  (unfold Mod.actField; repeat' split) <;> (first | with_reducible rfl | simp)
@[simp] theorem Mod.actSafety_recs (m : Mod) (who a : Nat) (e : Entry) (p : Place) : (Mod.actSafety m who a e p).gal.recs = m.gal.recs := by
  (unfold Mod.actSafety; repeat' split) <;> (first | with_reducible rfl | simp)
@[simp] theorem Mod.actCan_recs (m : Mod) (who a : Nat) (e : Entry) (p : Place) : (Mod.actCan m who a e p).gal.recs = m.gal.recs := by
  (unfold Mod.actCan; repeat' split) <;> (first | with_reducible rfl | simp)
@[simp] theorem Mod.actRecord_recs (m : Mod) (who a : Nat) (e : Entry) (p : Place) : (Mod.actRecord m who a e p).gal.recs = m.gal.recs := by
  (unfold Mod.actRecord; repeat' split) <;> (first | with_reducible rfl | simp)
@[simp] theorem Mod.swapNow_recs (m : Mod) : (Mod.swapNow m).gal.recs = m.gal.recs := by unfold Mod.swapNow; simp
@[simp] theorem Mod.actStair_recs (m : Mod) (who a : Nat) (e : Entry) (p : Place) (all later : List Entry) : (Mod.actStair m who a e p all later).gal.recs = m.gal.recs := by
  (unfold Mod.actStair; repeat' split) <;> (first | with_reducible rfl | simp)
@[simp] theorem Mod.actService_recs (m : Mod) (who a : Nat) (e : Entry) (p : Place) : (Mod.actService m who a e p).gal.recs = m.gal.recs := by
  unfold Mod.actService
  extract_lets v m1
  have h : m1.gal.recs = m.gal.recs := by simp [m1]
  clear_value m1 v
  cases p.fam <;> simp only <;> (repeat' split) <;> simp [h]
@[simp] theorem Mod.actHouse_recs (m : Mod) (who a : Nat) (e : Entry) (p : Place) : (Mod.actHouse m who a e p).gal.recs = m.gal.recs := by
  (unfold Mod.actHouse; repeat' split) <;> (first | with_reducible rfl | simp)
@[simp] theorem Mod.commitEntry_recs (m : Mod) (who a : Nat) (e : Entry) (all later : List Entry) : (Mod.commitEntry m who a e all later).gal.recs = m.gal.recs := by
  unfold Mod.commitEntry
  split
  · rfl
  · rename_i p _
    cases p.fam <;> simp
@[simp] theorem Mod.applyEntries_recs (m : Mod) (who a : Nat) (all pend l : List Entry) :
    (m.applyEntries who a all pend l).gal.recs = m.gal.recs := by
  induction l generalizing m with
  | nil => rfl
  | cons e l ih => unfold Mod.applyEntries; rw [ih]; simp
@[simp] theorem Chk.noteRefusal_recs (c : Chk) (status : Nat) (m : Mod) : (Chk.noteRefusal c status m).gal.recs = m.gal.recs := by
  (unfold Chk.noteRefusal; repeat' split) <;> (first | with_reducible rfl | simp)
@[simp] theorem Mod.commitCommand_recs (m : Mod) (who : Nat) (s : Staged) (e : Entry) (dead : Bool) : (Mod.commitCommand m who s e dead).1.gal.recs = m.gal.recs := by
  unfold Mod.commitCommand
  extract_lets t code st m1
  have h : m1.gal.recs = m.gal.recs := by simp [m1]
  clear_value m1 st
  split
  · rfl
  · split; (· exact h); split <;> simp [h]
@[simp] theorem Mod.commitEntries_recs (m : Mod) (who a : Nat) (all : List Entry) (dead : Nat → Bool) (ks : List Nat) :
    (m.commitEntries who a all dead ks).gal.recs = m.gal.recs := by
  unfold Mod.commitEntries; extract_lets live m1; split <;> simp [m1]
@[simp] theorem Mod.commitTxn_recs (m : Mod) (who : Nat) (s : Staged) (dead : Nat → Bool) (remote : Bool) : (Mod.commitTxn m who s dead remote).1.gal.recs = m.gal.recs := by
  unfold Mod.commitTxn
  split
  · rfl
  · extract_lets bad ks
    split
    · rfl
    · split
      · rfl
      · clear_value bad
        cases bad with
        | some x => simp
        | none =>
          dsimp only []
          split <;> simp
@[simp] theorem Mod.commitFrom_recs (m : Mod) (barred : List (Nat × Nat)) (failed : List Nat) (i : Nat) (l : List Staged) :
    (m.commitFrom barred failed i l).1.gal.recs = m.gal.recs := by
  induction l generalizing m i with
  | nil => rfl
  | cons s l ih => unfold Mod.commitFrom; extract_lets after remote r; rw [ih]; simp only [r]; split <;> simp
theorem Mod.settle_recs (m : Mod) (after : Mod → Mod) (h : ∀ m, (after m).gal.recs = m.gal.recs) (set : List Staged) (n : Nat)
    (barred : List (Nat × Nat)) (failed : List Nat) : (m.settle after set n barred failed).1.gal.recs = m.gal.recs := by
  induction n generalizing barred failed with
  | zero => unfold Mod.settle; simp [h]
  | succ n ih =>
    unfold Mod.settle
    extract_lets r now e
    split
    · split
      · exact ih _ _
      · simp [e, r, h]
    · exact ih _ _
theorem Mod.commitSealed_recs (m : Mod) (after : Mod → Mod) (h : ∀ m, (after m).gal.recs = m.gal.recs) :
    (m.commitSealed after).1.gal.recs = m.gal.recs := by
  unfold Mod.commitSealed; exact Mod.settle_recs _ _ h _ _ _ _
@[simp] theorem Mod.answer_recs (m : Mod) (keysOf : List Nat) (x : Staged × Nat × Nat × Nat) : (Mod.answer m keysOf x).gal.recs = m.gal.recs := by
  (unfold Mod.answer; dsimp only []; repeat' (first | with_reducible rfl | assumption | (refine (over_recs _ _ _ (fun _ _ => ?_)).trans ?_) | (refine ite_recs _ _ _ _ ?_ ?_) | split | (simp; done)))
@[simp] theorem Mod.answerAll_recs (m : Mod) (l : List (Staged × Nat × Nat × Nat)) : (Mod.answerAll m l).gal.recs = m.gal.recs := by unfold Mod.answerAll; simp
@[simp] theorem Mod.refuse_recs (m : Mod) (x : Txn) (status pos : Nat) : (Mod.refuse m x status pos).gal.recs = m.gal.recs := by
  (unfold Mod.refuse; repeat' split) <;> (first | with_reducible rfl | simp)
@[simp] theorem Mod.stage_recs (m : Mod) (x : Txn) (due : Tread) : (Mod.stage m x due).gal.recs = m.gal.recs := by unfold Mod.stage; simp
@[simp] theorem Mod.arriveWrite_recs (m : Mod) (x : Txn) (off : Offset) : (Mod.arriveWrite m x off).gal.recs = m.gal.recs := by
  (unfold Mod.arriveWrite; dsimp only []; repeat' (first | with_reducible rfl | assumption | (refine (over_recs _ _ _ (fun _ _ => ?_)).trans ?_) | (refine ite_recs _ _ _ _ ?_ ?_) | split | (simp; done)))
@[simp] theorem Mod.arriveRead_recs (m : Mod) (x : Txn) (off : Offset) : (Mod.arriveRead m x off).gal.recs = m.gal.recs := by
  (unfold Mod.arriveRead; repeat' split) <;> (first | with_reducible rfl | simp)
@[simp] theorem Mod.arrive_recs (m : Mod) (x : Txn) (authOk versionOk : Bool) (off : Offset) : (Mod.arrive m x authOk versionOk off).gal.recs = m.gal.recs := by unfold Mod.arrive; simp
@[simp] theorem Mod.takeValues_recs (m : Mod) (a : Nat) (l : List Entry) : (Mod.takeValues m a l).1.gal.recs = m.gal.recs := by
  unfold Mod.takeValues
  exact foldl_recs _ _ _ (fun r e => by
    split
    · extract_lets q; simp [q]
    · rfl)
@[simp] theorem Mod.beginRead_recs (m : Mod) (r : ReadSt) : (Mod.beginRead m r).gal.recs = m.gal.recs := by
  (unfold Mod.beginRead; dsimp only []; repeat' (first | with_reducible rfl | assumption | (refine (over_recs _ _ _ (fun _ _ => ?_)).trans ?_) | (refine ite_recs _ _ _ _ ?_ ?_) | split | (simp; done)))
@[simp] theorem Mod.readService_recs (m : Mod) (a seq : Nat) : (Mod.readService m a seq).gal.recs = m.gal.recs := by
  (unfold Mod.readService; repeat' split) <;> (first | with_reducible rfl | simp)
@[simp] theorem Mod.readServiceEnd_recs (m : Mod) (a seq : Nat) (delivered : Bool) : (Mod.readServiceEnd m a seq delivered).gal.recs = m.gal.recs := by
  (unfold Mod.readServiceEnd; dsimp only []; repeat' (first | with_reducible rfl | assumption | (refine (over_recs _ _ _ (fun _ _ => ?_)).trans ?_) | (refine ite_recs _ _ _ _ ?_ ?_) | split | (simp; done)))
@[simp] theorem Mod.journalledReply_recs (m : Mod) (a seq : Nat) : (Mod.journalledReply m a seq).gal.recs = m.gal.recs := by unfold Mod.journalledReply; simp
@[simp] theorem Mod.answerTo_recs (m : Mod) (dest : Src) (kind assoc : Nat) (body : List Nat) : (Mod.answerTo m dest kind assoc body).gal.recs = m.gal.recs := by unfold Mod.answerTo; simp
@[simp] theorem Mod.sendFrame_recs (m : Mod) (dest : Src) (version : Nat × Nat) (kind assoc tag flags : Nat) (body : List Nat) : (Mod.sendFrame m dest version kind assoc tag flags body).gal.recs = m.gal.recs := by unfold Mod.sendFrame; simp
@[simp] theorem Mod.reply__recs (m : Mod) (dest : Src) (version : Nat × Nat) (kind assoc tag : Nat) (body : List Nat) : (Mod.reply_ m dest version kind assoc tag body).gal.recs = m.gal.recs := by unfold Mod.reply_; simp
@[simp] theorem Mod.helloNow_recs (m : Mod) (src : Src) (hd : FrameHead) : (Mod.helloNow m src hd).gal.recs = m.gal.recs := by unfold Mod.helloNow; simp
@[simp] theorem Mod.helloAnnounce_recs (m : Mod) : (Mod.helloAnnounce m).gal.recs = m.gal.recs := by unfold Mod.helloAnnounce; simp
@[simp] theorem Mod.lapse_recs (m : Mod) : (Mod.lapse m).gal.recs = m.gal.recs := by unfold Mod.lapse; simp
@[simp] theorem Mod.lapseOne_recs (m : Mod) (k : Nat) : (Mod.lapseOne m k).gal.recs = m.gal.recs := by
  (unfold Mod.lapseOne; repeat' split) <;> (first | with_reducible rfl | simp)
@[simp] theorem Mod.drawNonce_recs (m : Mod) (auth : Nat) : (Mod.drawNonce m auth).2.gal.recs = m.gal.recs := by
  (unfold Mod.drawNonce; repeat' split) <;> (first | with_reducible rfl | simp)
@[simp] theorem Mod.negotiateNow_recs (m0 : Mod) (src : Src) (r : NegReq) (hd : FrameHead) : (Mod.negotiateNow m0 src r hd).gal.recs = m0.gal.recs := by
  (unfold Mod.negotiateNow; dsimp only []; repeat' (first | with_reducible rfl | assumption | (refine (over_recs _ _ _ (fun _ _ => ?_)).trans ?_) | (refine ite_recs _ _ _ _ ?_ ?_) | split | (simp; done)))
@[simp] theorem Mod.associateNow_recs (m : Mod) (src : Src) (r : AssocReq) (hd : FrameHead) : (Mod.associateNow m src r hd).gal.recs = m.gal.recs := by
  (unfold Mod.associateNow; repeat' split) <;> (first | with_reducible rfl | simp)
@[simp] theorem Mod.dropFrame_recs (m : Mod) : (Mod.dropFrame m).gal.recs = m.gal.recs := by unfold Mod.dropFrame; simp
@[simp] theorem Mod.ask_recs (m : Mod) (x : Ask) : (Mod.ask m x).gal.recs = m.gal.recs := by
  unfold Mod.ask
  split
  · rfl
  · split
    · simp
    · split
      · rfl
      · split
        · simp
        · split <;> simp
        · simp
@[simp] theorem Mod.serveAsks_recs (m : Mod) : (Mod.serveAsks m).gal.recs = m.gal.recs := by unfold Mod.serveAsks; simp
@[simp] theorem Mod.heartbeats_recs (m : Mod) : (Mod.heartbeats m).gal.recs = m.gal.recs := by unfold Mod.heartbeats; simp
@[simp] theorem Mod.declareLost_recs (m : Mod) (a : Nat) (off : Offset) : (Mod.declareLost m a off).gal.recs = m.gal.recs := by
  (unfold Mod.declareLost; repeat' split) <;> (first | with_reducible rfl | simp)
@[simp] theorem Mod.tellLost_recs (m : Mod) (p : Partner) : (Mod.tellLost m p).gal.recs = m.gal.recs := by unfold Mod.tellLost; simp
@[simp] theorem Mod.lossAction_recs (m : Mod) (p : Partner) : (Mod.lossAction m p).gal.recs = m.gal.recs := by unfold Mod.lossAction; simp
@[simp] theorem Mod.enterHall_recs (m : Mod) : (Mod.enterHall m).gal.recs = m.gal.recs := by unfold Mod.enterHall; simp
@[simp] theorem Mod.abortAction_recs (m : Mod) (x : Nat) : (Mod.abortAction m x).gal.recs = m.gal.recs := by unfold Mod.abortAction; simp
theorem Mod.setMapped_recs (m m' : Mod) (who tgt v : Nat) : m.setMapped who tgt v = some m' → m'.gal.recs = m.gal.recs := by
  intro h; revert h; unfold Mod.setMapped
  (repeat' split) <;> intro h <;> (first | (cases h; done) | (cases h; simp; done)  | (simp only [] at h; (repeat' split at h) <;> (first | (cases h; done) | (cases h; simp; done) )))
theorem Mod.startAction_recs (m m' : Mod) (t x entry : Nat) : m.startAction t x entry = some m' → m'.gal.recs = m.gal.recs := by
  intro h; revert h; unfold Mod.startAction
  (repeat' split) <;> intro h <;> (first | (cases h; done) | (cases h; simp; done)  | (simp only [] at h; (repeat' split at h) <;> (first | (cases h; done) | (cases h; simp; done) )))
theorem Mod.stepAction_recs (m m' : Mod) (t step op tgt v : Nat) : m.stepAction t step op tgt v = some m' → m'.gal.recs = m.gal.recs := by
  intro h; revert h; unfold Mod.stepAction
  (repeat' split) <;> intro h <;> (first | (cases h; done) | (cases h; simp; done) | exact Mod.setMapped_recs _ _ _ _ _ h | exact Mod.startAction_recs _ _ _ _ _ h | exact Mod.simpleAction_recs _ _ _ _ _ _ _ _ _ h | (simp only [] at h; (repeat' split at h) <;> (first | (cases h; done) | (cases h; simp; done) | exact Mod.setMapped_recs _ _ _ _ _ h | exact Mod.startAction_recs _ _ _ _ _ h | exact Mod.simpleAction_recs _ _ _ _ _ _ _ _ _ h)))
@[simp] theorem Mod.applyAction_recs (m : Mod) (b : Bank) (t step i : Nat) : (Mod.applyAction m b t step i).gal.recs = m.gal.recs := by
  unfold Mod.applyAction
  extract_lets e
  split
  · rfl
  · split
    · rename_i m1 h
      split at h
      · exact Mod.stepAction_recs _ _ _ _ _ _ _ h
      · cases h
    · simp
@[simp] theorem Mod.clearEvents_recs (m : Mod) (who mask : Nat) : (Mod.clearEvents m who mask).gal.recs = m.gal.recs := by unfold Mod.clearEvents; simp
@[simp] theorem Mod.entryEffects_recs (m : Mod) (b : Bank) (t step clear : Nat) : (Mod.entryEffects m b t step clear).gal.recs = m.gal.recs := by unfold Mod.entryEffects; simp
@[simp] theorem Mod.entryRecord_recs (m : Mod) (t step : Nat) : (Mod.entryRecord m t step).gal.recs = m.gal.recs := by unfold Mod.entryRecord; simp
@[simp] theorem Mod.enterStep_recs (m : Mod) (t step exit : Nat) : (Mod.enterStep m t step exit).gal.recs = m.gal.recs := by unfold Mod.enterStep; simp
@[simp] theorem Mod.transit_recs (m : Mod) (t : Nat) : (Mod.transit m t).gal.recs = m.gal.recs := by
  (unfold Mod.transit; repeat' split) <;> (first | with_reducible rfl | simp)
@[simp] theorem Mod.transitions_recs (m : Mod) : (Mod.transitions m).gal.recs = m.gal.recs := by unfold Mod.transitions; simp
@[simp] theorem Mod.enterAll_recs (m : Mod) (b : Bank) (l : List (Nat × Nat × Nat)) : (Mod.enterAll m b l).gal.recs = m.gal.recs := by unfold Mod.enterAll; simp
@[simp] theorem Mod.delayedUpTo_recs (m : Mod) (t lim : Nat) : (Mod.delayedUpTo m t lim).gal.recs = m.gal.recs := by unfold Mod.delayedUpTo; simp
@[simp] theorem Mod.delayedNow_recs (m : Mod) (t : Nat) : (Mod.delayedNow m t).gal.recs = m.gal.recs := by unfold Mod.delayedNow; simp
@[simp] theorem Mod.delayedAll_recs (m : Mod) (b : Bank) (due : List (Nat × Nat × Nat × List Nat)) : (Mod.delayedAll m b due).gal.recs = m.gal.recs := by unfold Mod.delayedAll; simp
@[simp] theorem Mod.stepEffects_recs (m : Mod) (b : Bank) (entered : List (Nat × Nat × Nat)) (due : List (Nat × Nat × Nat × List Nat)) : (Mod.stepEffects m b entered due).gal.recs = m.gal.recs := by unfold Mod.stepEffects; simp
@[simp] theorem Mod.pulseEnd_recs (m : Mod) (o : Nat) : (Mod.pulseEnd m o).gal.recs = m.gal.recs := by unfold Mod.pulseEnd; simp
@[simp] theorem Mod.pulseEnds_recs (m : Mod) : (Mod.pulseEnds m).gal.recs = m.gal.recs := by unfold Mod.pulseEnds; simp
@[simp] theorem Mod.landAll_recs (m : Mod) (b : Bank) (decided now : List (Nat × Nat × Nat)) : (Mod.landAll m b decided now).gal.recs = m.gal.recs := by unfold Mod.landAll; simp
@[simp] theorem Mod.axisParts_recs (m : Mod) : (Mod.axisParts m).gal.recs = m.gal.recs := by
  unfold Mod.axisParts
  extract_lets m1
  have h : m1.gal.recs = m.gal.recs := over_recs _ _ _ (fun m t => by
    split
    · split
      · extract_lets l; split <;> simp
      · simp
    · split <;> simp
    · rfl)
  clear_value m1
  exact (over_recs _ _ _ (fun m t => by split <;> simp)).trans h
@[simp] theorem Mod.axisRefusals_recs (m : Mod) : (Mod.axisRefusals m).gal.recs = m.gal.recs := by unfold Mod.axisRefusals; simp
@[simp] theorem Mod.trial_recs (m : Mod) (n : Tread) : (Mod.trial m n).gal.recs = m.gal.recs := by unfold Mod.trial; simp
@[simp] theorem Mod.takeFrame_recs (m : Mod) (kind : Nat) (f : Frame) : (Mod.takeFrame m kind f).1.gal.recs = m.gal.recs := by
  unfold Mod.takeFrame
  (repeat' split) <;> simp
@[simp] theorem Mod.takeImage_recs (m : Mod) (a : Nat) (x : Msg) (k : Nat) (data : List Nat) (off : Offset) : (Mod.takeImage m a x k data off).gal.recs = m.gal.recs := by unfold Mod.takeImage; simp
@[simp] theorem Mod.take_recs (m : Mod) (a : Nat) (x : Msg) (off : Offset) : (Mod.take m a x off).gal.recs = m.gal.recs := by
  (unfold Mod.take; repeat' split) <;> (first | with_reducible rfl | simp)
@[simp] theorem Mod.duplicate_recs (m : Mod) (a : Nat) (p : Partner) (seq : Nat) : (Mod.duplicate m a p seq).gal.recs = m.gal.recs := by
  (unfold Mod.duplicate; repeat' split) <;> (first | with_reducible rfl | simp)
@[simp] theorem Mod.drainHeld_recs (m : Mod) (a : Nat) (off : Offset) (n : Nat) : (m.drainHeld a off n).gal.recs = m.gal.recs := by
  induction n generalizing m with
  | zero => rfl
  | succ n ih =>
    unfold Mod.drainHeld
    split
    · rfl
    · split
      · rfl
      · rw [ih]; simp
@[simp] theorem Mod.sequenceGap_recs (m : Mod) (a : Nat) (off : Offset) (n : Nat) : (m.sequenceGap a off n).gal.recs = m.gal.recs := by
  induction n generalizing m with
  | zero => rfl
  | succ n ih =>
    unfold Mod.sequenceGap
    split
    · rfl
    · split
      · rfl
      · split
        · rfl
        · extract_lets m1; rw [ih]; simp [m1]
@[simp] theorem Mod.sequence_recs (m : Mod) (a : Nat) (x : Msg) (now : Bool) (off : Offset) : (Mod.sequence m a x now off).gal.recs = m.gal.recs := by
  unfold Mod.sequence
  split
  · rfl
  · rename_i p _
    extract_lets e p2 d full m1 m2
    have h1 : m1.gal.recs = m.gal.recs := by simp [m1]
    have h2 : m2.gal.recs = m.gal.recs := by simp [m2]
    clear_value m1 m2
    split
    · rw [Mod.drainHeld_recs]
      split <;> simp [h1]
    · split
      · split
        · simp
        · split
          · split <;> simp [h2]
          · simp
      · split <;> simp
@[simp] theorem Mod.received_recs (m : Mod) (a : Nat) (q : Partial) (off : Offset) : (Mod.received m a q off).gal.recs = m.gal.recs := by unfold Mod.received; simp
@[simp] theorem Mod.dropPartial_recs (m : Mod) (a : Nat) (p : Partner) : (Mod.dropPartial m a p).gal.recs = m.gal.recs := by
  (unfold Mod.dropPartial; repeat' split) <;> (first | with_reducible rfl | simp)
@[simp] theorem Mod.segment_recs (m : Mod) (p : Partner) (f : Frame) (authOk : Bool) : (Mod.segment m p f authOk).gal.recs = m.gal.recs := by
  (unfold Mod.segment; dsimp only []; repeat' (first | with_reducible rfl | assumption | (refine (over_recs _ _ _ (fun _ _ => ?_)).trans ?_) | (refine ite_recs _ _ _ _ ?_ ?_) | split | (simp; done)))
@[simp] theorem Mod.transact_recs (m : Mod) (f : Frame) : (Mod.transact m f).gal.recs = m.gal.recs := by
  unfold Mod.transact
  split
  · rename_i m' p b h
    have hm : m'.gal.recs = m.gal.recs := by have := Mod.takeFrame_recs m 4 f; rw [h] at this; exact this
    clear h
    simp [hm]
  · rename_i m' h
    have := Mod.takeFrame_recs m 4 f; rw [h] at this; exact this
@[simp] theorem Mod.segmentDiscard_recs (m : Mod) (a : Nat) : (Mod.segmentDiscard m a).gal.recs = m.gal.recs := by
  (unfold Mod.segmentDiscard; repeat' split) <;> (first | with_reducible rfl | simp)
@[simp] theorem Mod.imageFrame_recs (m : Mod) (f : Frame) : (Mod.imageFrame m f).gal.recs = m.gal.recs := by
  unfold Mod.imageFrame
  split
  · rename_i m' p b h
    have hm : m'.gal.recs = m.gal.recs := by have := Mod.takeFrame_recs m 5 f; rw [h] at this; exact this
    clear h
    extract_lets k data data2
    split
    · simp [hm]
    · rw [Mod.sequence_recs]; exact hm
  · rename_i m' h
    have := Mod.takeFrame_recs m 5 f; rw [h] at this; exact this
@[simp] theorem Mod.heartbeatFrame_recs (m : Mod) (f : Frame) : (Mod.heartbeatFrame m f).gal.recs = m.gal.recs := by unfold Mod.heartbeatFrame; simp
@[simp] theorem Mod.byeFrame_recs (m : Mod) (f : Frame) : (Mod.byeFrame m f).gal.recs = m.gal.recs := by
  unfold Mod.byeFrame
  split
  · rename_i m' b h
    have hm : m'.gal.recs = m.gal.recs := by have := Mod.takeFrame_recs m 8 f; rw [h] at this; exact this
    clear h
    split
    · simp [hm]
    · split <;> simp [hm]
  · rename_i m' h
    have := Mod.takeFrame_recs m 8 f; rw [h] at this; exact this
@[simp] theorem Mod.imageSend_recs (m : Mod) (k : Nat) (late : Bool) : (Mod.imageSend m k late).gal.recs = m.gal.recs := by
  (unfold Mod.imageSend; dsimp only []; repeat' (first | with_reducible rfl | assumption | (refine (over_recs _ _ _ (fun _ _ => ?_)).trans ?_) | (refine ite_recs _ _ _ _ ?_ ?_) | split | (simp; done)))
@[simp] theorem Mod.partner_recs (m : Mod) (h : Hdr) (write : Bool) (l : List Entry) : (Mod.partner m h write l).gal.recs = m.gal.recs := by
  (unfold Mod.partner; repeat' split) <;> (first | with_reducible rfl | simp)
@[simp] theorem Mod.write1_recs (m : Mod) (h : Hdr) (idx sub len val : Nat) : (Mod.write1 m h idx sub len val).gal.recs = m.gal.recs := by unfold Mod.write1; simp
@[simp] theorem Mod.serveNow_recs (m : Mod) (a seq : Nat) : (Mod.serveNow m a seq).gal.recs = m.gal.recs := by
  (unfold Mod.serveNow; repeat' split) <;> (first | with_reducible rfl | simp)
@[simp] theorem Mod.queueRead_recs (m : Mod) (h : Hdr) (p : Nat) : (Mod.queueRead m h p).gal.recs = m.gal.recs := by unfold Mod.queueRead; simp
@[simp] theorem Mod.accessRequest_recs (m : Mod) (p : Nat) (f : CanFrame) (off : Offset) : (Mod.accessRequest m p f off).gal.recs = m.gal.recs := by unfold Mod.accessRequest; simp
@[simp] theorem Mod.setSwitch_recs (m : Mod) (s : SwitchSt) : (Mod.setSwitch m s).gal.recs = m.gal.recs := by unfold Mod.setSwitch; simp
@[simp] theorem Mod.fill_recs (m : Mod) (port : Nat) (high : Bool) (len : Nat) : (Mod.fill m port high len).1.gal.recs = m.gal.recs := by
  (unfold Mod.fill; dsimp only []; repeat' (first | with_reducible rfl | assumption | (refine (over_recs _ _ _ (fun _ _ => ?_)).trans ?_) | (refine ite_recs _ _ _ _ ?_ ?_) | split | (simp; done)))
@[simp] theorem Mod.enqueue_recs (m : Mod) (f : SwFrame) (port : Nat) : (Mod.enqueue m f port).gal.recs = m.gal.recs := by unfold Mod.enqueue; simp
@[simp] theorem Mod.clockFrame_recs (m : Mod) (f : SwFrame) : (Mod.clockFrame m f).1.gal.recs = m.gal.recs := by
  (unfold Mod.clockFrame; repeat' split) <;> (first | with_reducible rfl | simp)
@[simp] theorem Mod.peerDelay_recs (m : Mod) (port d : Nat) : (Mod.peerDelay m port d).gal.recs = m.gal.recs := by unfold Mod.peerDelay; simp
@[simp] theorem Mod.forwardTo_recs (m : Mod) (f : SwFrame) (corrections : List Nat) (p : Nat) : (Mod.forwardTo m f corrections p).gal.recs = m.gal.recs := by unfold Mod.forwardTo; simp
@[simp] theorem Mod.forward_recs (m : Mod) (f : SwFrame) : (Mod.forward m f).gal.recs = m.gal.recs := by unfold Mod.forward; simp
@[simp] theorem Mod.queueOwn_recs (m : Mod) : (Mod.queueOwn m).gal.recs = m.gal.recs := by unfold Mod.queueOwn; simp
@[simp] theorem Mod.switchFrame_recs (m : Mod) (f : SwFrame) : (Mod.switchFrame m f).gal.recs = m.gal.recs := by unfold Mod.switchFrame; simp
@[simp] theorem Mod.ageOut_recs (m : Mod) (mac : Nat) : (Mod.ageOut m mac).gal.recs = m.gal.recs := by unfold Mod.ageOut; simp
@[simp] theorem Mod.drainQueues_recs (m : Mod) : (Mod.drainQueues m).gal.recs = m.gal.recs := by unfold Mod.drainQueues; simp
@[simp] theorem Mod.ringFlight_recs (m : Mod) : (Mod.ringFlight m).gal.recs = m.gal.recs := by unfold Mod.ringFlight; simp
@[simp] theorem Mod.ringOpens_recs (m : Mod) : (Mod.ringOpens m).gal.recs = m.gal.recs := by unfold Mod.ringOpens; simp
@[simp] theorem Mod.ringCloses_recs (m : Mod) : (Mod.ringCloses m).gal.recs = m.gal.recs := by unfold Mod.ringCloses; simp
@[simp] theorem Mod.arp_recs (m : Mod) (port ip mac : Nat) : (Mod.arp m port ip mac).gal.recs = m.gal.recs := by unfold Mod.arp; simp
@[simp] theorem Mod.followUpTimeout_recs (m : Mod) (id_ : Nat) : (Mod.followUpTimeout m id_).gal.recs = m.gal.recs := by
  (unfold Mod.followUpTimeout; repeat' split) <;> (first | with_reducible rfl | simp)
@[simp] theorem Mod.portLink_recs (m : Mod) (port speed : Nat) : (Mod.portLink m port speed).gal.recs = m.gal.recs := by unfold Mod.portLink; simp
@[simp] theorem Mod.shiftControl_recs (m : Mod) (d : Nat) : (Mod.shiftControl m d).gal.recs = m.gal.recs := by unfold Mod.shiftControl; simp
@[simp] theorem Mod.shiftLink_recs (m : Mod) (d : Nat) : (Mod.shiftLink m d).gal.recs = m.gal.recs := by unfold Mod.shiftLink; simp
@[simp] theorem Mod.refuseNamed_recs (m : Mod) : (Mod.refuseNamed m).gal.recs = m.gal.recs := by unfold Mod.refuseNamed; simp
@[simp] theorem Mod.stepTo_recs (m : Mod) (n : Tread) : (Mod.stepTo m n).gal.recs = m.gal.recs := by unfold Mod.stepTo; simp
@[simp] theorem Mod.newConfig_recs (m : Mod) (n : Tread) : (Mod.newConfig m n).gal.recs = m.gal.recs := by unfold Mod.newConfig; simp
@[simp] theorem Mod.recordEdges_recs (m : Mod) : (Mod.recordEdges m).gal.recs = m.gal.recs := by unfold Mod.recordEdges; simp
@[simp] theorem Mod.loseSources_recs (m : Mod) : (Mod.loseSources m).gal.recs = m.gal.recs := by unfold Mod.loseSources; simp
@[simp] theorem Mod.departures_recs (m : Mod) : (Mod.departures m).gal.recs = m.gal.recs := by unfold Mod.departures; simp
@[simp] theorem Mod.clearSent_recs (m : Mod) : (Mod.clearSent m).gal.recs = m.gal.recs := by unfold Mod.clearSent; simp
@[simp] theorem Mod.fieldBoundary_recs (m : Mod) (i : TreadIn) : (Mod.fieldBoundary m i).gal.recs = m.gal.recs := by unfold Mod.fieldBoundary; simp
@[simp] theorem Mod.afterSet_recs (m : Mod) (b : Bank) (entered : List (Nat × Nat × Nat)) (due : List (Nat × Nat × Nat × List Nat)) (decided : List (Nat × Nat × Nat)) : (Mod.afterSet m b entered due decided).gal.recs = m.gal.recs := by unfold Mod.afterSet; simp
@[simp] theorem Mod.commitBoundary_recs (m : Mod) : (Mod.commitBoundary m).1.gal.recs = m.gal.recs := by
  unfold Mod.commitBoundary
  exact (Mod.commitSealed_recs _ _ (fun m => by simp)).trans (by simp)
@[simp] theorem Mod.fixBoundary_recs (m : Mod) (set : List (Staged × Nat × Nat × Nat)) : (Mod.fixBoundary m set).gal.recs = m.gal.recs := by unfold Mod.fixBoundary; simp
@[simp] theorem Mod.tilePass_recs (m : Mod) : (Mod.tilePass m).gal.recs = m.gal.recs := by unfold Mod.tilePass; simp
@[simp] theorem Mod.boundary_recs (m : Mod) (i : TreadIn) (n : Tread) : (Mod.boundary m i n).gal.recs = m.gal.recs := by
  unfold Mod.boundary
  extract_lets m1 m2 r
  have h1 : m1.gal.recs = m.gal.recs := by simp [m1]
  have h2 : m2.gal.recs = m.gal.recs := by simp only [m2]; rw [Mod.fieldBoundary_recs]; split <;> simp [h1]
  have h3 : r.1.gal.recs = m.gal.recs := by simp [r, h2]
  simp [h3]
@[simp] theorem Mod.commitRo_recs (m : Mod) : (Mod.commitRo m).gal.recs = m.gal.recs := by unfold Mod.commitRo; simp
@[simp] theorem Mod.setEach_recs (m : Mod) (idx sub : Nat) (l : List Nat) : (Mod.setEach m idx sub l).gal.recs = m.gal.recs := by unfold Mod.setEach; simp
@[simp] theorem Mod.measure_recs (m : Mod) (i : FlightIn) : (Mod.measure m i).gal.recs = m.gal.recs := by unfold Mod.measure; simp
@[simp] theorem Mod.ringRate_recs (m : Mod) (f : Nat) : (Mod.ringRate m f).gal.recs = m.gal.recs := by unfold Mod.ringRate; simp
@[simp] theorem Mod.flight_recs (m : Mod) (i : FlightIn) : (Mod.flight m i).gal.recs = m.gal.recs := by unfold Mod.flight; simp
@[simp] theorem Mod.restartServo_recs (m : Mod) : (Mod.restartServo m).gal.recs = m.gal.recs := by unfold Mod.restartServo; simp
@[simp] theorem Mod.storedOptions_recs (m : Mod) : (Mod.storedOptions m).gal.recs = m.gal.recs := by
  (unfold Mod.storedOptions; repeat' split) <;> (first | with_reducible rfl | simp)
@[simp] theorem Mod.minimalOptions_recs (m : Mod) (b : BringUp) : (Mod.minimalOptions m b).gal.recs = m.gal.recs := by unfold Mod.minimalOptions; simp
@[simp] theorem Mod.loadOptions_recs (m : Mod) (b : BringUp) : (Mod.loadOptions m b).gal.recs = m.gal.recs := by unfold Mod.loadOptions; simp
@[simp] theorem Mod.blank_recs (m : Mod) : (Mod.blank m).gal.recs = m.gal.recs := by unfold Mod.blank; simp
@[simp] theorem Mod.coldStart_recs (m : Mod) (n : Tread) : (Mod.coldStart m n).gal.recs = m.gal.recs := by unfold Mod.coldStart; simp
@[simp] theorem Mod.endRuns_recs (m : Mod) : (Mod.endRuns m).gal.recs = m.gal.recs := by unfold Mod.endRuns; simp
@[simp] theorem Mod.load__recs (m : Mod) (r : Restore) : (Mod.load_ m r).gal.recs = m.gal.recs := by unfold Mod.load_; simp
@[simp] theorem Mod.setOutputs_recs (m : Mod) (img : Img) : (Mod.setOutputs m img).gal.recs = m.gal.recs := by
  (unfold Mod.setOutputs; dsimp only []; repeat' (first | with_reducible rfl | assumption | (refine (over_recs _ _ _ (fun _ _ => ?_)).trans ?_) | (refine ite_recs _ _ _ _ ?_ ?_) | split | (simp; done)))
@[simp] theorem Mod.allOutputsOff_recs (m : Mod) : (Mod.allOutputsOff m).gal.recs = m.gal.recs := by
  (unfold Mod.allOutputsOff; dsimp only []; repeat' (first | with_reducible rfl | assumption | (refine (over_recs _ _ _ (fun _ _ => ?_)).trans ?_) | (refine ite_recs _ _ _ _ ?_ ?_) | split | (simp; done)))
@[simp] theorem Mod.carryOn_recs (m : Mod) (t : Nat) (n g : Tread) : (Mod.carryOn m t n g).gal.recs = m.gal.recs := by unfold Mod.carryOn; simp
@[simp] theorem Mod.landTracks_recs (m : Mod) (effects : Bool) : (Mod.landTracks m effects).gal.recs = m.gal.recs := by unfold Mod.landTracks; simp
@[simp] theorem Mod.outcomeState_recs (m : Mod) (out : Nat) (off : Bool) (r : Restore) (n : Tread) : (Mod.outcomeState m out off r n).gal.recs = m.gal.recs := by unfold Mod.outcomeState; simp
@[simp] theorem Mod.outcomeObjects_recs (m : Mod) (out why r n g : Nat) (diff : List Nat) : (Mod.outcomeObjects m out why r n g diff).gal.recs = m.gal.recs := by unfold Mod.outcomeObjects; simp
@[simp] theorem Mod.announceReset_recs (m : Mod) : (Mod.announceReset m).gal.recs = m.gal.recs := by
  (unfold Mod.announceReset; dsimp only []; repeat' (first | with_reducible rfl | assumption | (refine (over_recs _ _ _ (fun _ _ => ?_)).trans ?_) | (refine ite_recs _ _ _ _ ?_ ?_) | split | (simp; done)))
@[simp] theorem Mod.recordReset_recs (m : Mod) : (Mod.recordReset m).gal.recs = m.gal.recs := by unfold Mod.recordReset; simp
@[simp] theorem Mod.takePhases_recs (m : Mod) (n : Tread) : (Mod.takePhases m n).gal.recs = m.gal.recs := by
  (unfold Mod.takePhases; repeat' split) <;> (first | with_reducible rfl | simp)
@[simp] theorem Mod.bufferFrom_recs (m : Mod) (n : Tread) : (Mod.bufferFrom m n).gal.recs = m.gal.recs := by unfold Mod.bufferFrom; simp
@[simp] theorem Mod.writeObject_recs (m : Mod) (h : Hdr) (idx sub v : Nat) : (Mod.writeObject m h idx sub v).gal.recs = m.gal.recs := by unfold Mod.writeObject; simp
@[simp] theorem Mod.trackCommand_recs (m : Mod) (h : Hdr) (t code entry : Nat) : (Mod.trackCommand m h t code entry).gal.recs = m.gal.recs := by unfold Mod.trackCommand; simp
@[simp] theorem Mod.dutyStart_recs (m : Mod) (o k : Nat) : (Mod.dutyStart m o k).gal.recs = m.gal.recs := by unfold Mod.dutyStart; simp
end Sys2Proof.Machine
end

