-- ==== Sys2Proof/Laws/Life.lean ====
section
/-! SUPPORT. What leaves alone what the module is doing: every operation but resets, bring-up and the power states. -/
namespace Sys2Proof.Machine
@[simp] theorem over_life {β : Type} (l : List β) (f : Mod → β → Mod) (m : Mod) (h : ∀ m x, (f m x).life = m.life) :
    (overAll l f m).life = m.life := by
  induction l generalizing m with
  | nil => rfl
  | cons a l ih => exact (ih (f m a)).trans (h m a)
theorem foldl_life {β γ : Type} (l : List β) (f : Mod × γ → β → Mod × γ) (x : Mod × γ) (h : ∀ x b, (f x b).1.life = x.1.life) :
    (l.foldl f x).1.life = x.1.life := by
  induction l generalizing x with
  | nil => rfl
  | cons a l ih => exact (ih (f x a)).trans (h x a)
@[simp] theorem apply_ite_life (c : Prop) [Decidable c] (x y : Mod) :
    (if c then x else y).life = if c then x.life else y.life := apply_ite Mod.life c x y
theorem ite_life (c : Prop) [Decidable c] (x y : Mod) (v : Life) (h : x.life = v) (k : y.life = v) : (if c then x else y).life = v := by
  split <;> assumption
@[simp] theorem Mod.setCfg_life (m : Mod) (idx sub v : Nat) : (Mod.setCfg m idx sub v).life = m.life := by unfold Mod.setCfg; simp
@[simp] theorem Mod.setCfgOf_life (m : Mod) (a idx sub v : Nat) : (Mod.setCfgOf m a idx sub v).life = m.life := by unfold Mod.setCfgOf; simp
@[simp] theorem Mod.setRo_life (m : Mod) (idx sub v : Nat) : (Mod.setRo m idx sub v).life = m.life := by unfold Mod.setRo; simp
@[simp] theorem Mod.bumpBy_life (m : Mod) (idx sub n : Nat) : (Mod.bumpBy m idx sub n).life = m.life := by unfold Mod.bumpBy; simp
@[simp] theorem Mod.bump_life (m : Mod) (idx sub : Nat) : (Mod.bump m idx sub).life = m.life := by unfold Mod.bump; simp
@[simp] theorem Mod.setRoBit_life (m : Mod) (idx sub bit : Nat) (b : Bool) : (Mod.setRoBit m idx sub bit b).life = m.life := by unfold Mod.setRoBit; simp
@[simp] theorem Mod.setLoop_life (m : Mod) (j : Nat) (s : LoopSt) : (Mod.setLoop m j s).life = m.life := by unfold Mod.setLoop; simp
@[simp] theorem Mod.setTrack_life (m : Mod) (t : Nat) (s : TrackSt) : (Mod.setTrack m t s).life = m.life := by unfold Mod.setTrack; simp
@[simp] theorem Mod.setInp_life (m : Mod) (x : Nat) (s : InpSt) : (Mod.setInp m x s).life = m.life := by unfold Mod.setInp; simp
@[simp] theorem Mod.setConv_life (m : Mod) (c : Nat) (s : ConvSt) : (Mod.setConv m c s).life = m.life := by unfold Mod.setConv; simp
@[simp] theorem Mod.setFbank_life (m : Mod) (b : Nat) (s : BankSt) : (Mod.setFbank m b s).life = m.life := by unfold Mod.setFbank; simp
@[simp] theorem Mod.setAxis_life (m : Mod) (a : Nat) (s : AxisSt) : (Mod.setAxis m a s).life = m.life := by unfold Mod.setAxis; simp
@[simp] theorem Mod.setLink_life (m : Mod) (k : Nat) (s : AxisLinkSt) : (Mod.setLink m k s).life = m.life := by unfold Mod.setLink; simp
@[simp] theorem Mod.setSafIn_life (m : Mod) (k : Nat) (s : SafInSt) : (Mod.setSafIn m k s).life = m.life := by unfold Mod.setSafIn; simp
@[simp] theorem Mod.setSafOut_life (m : Mod) (p : Nat) (s : SafOutSt) : (Mod.setSafOut m p s).life = m.life := by unfold Mod.setSafOut; simp
@[simp] theorem Mod.setShadow_life (m : Mod) (b : Bank) : (Mod.setShadow m b).life = m.life := by unfold Mod.setShadow; simp
@[simp] theorem Mod.setBank_life (m : Mod) (b : Bank) : (Mod.setBank m b).life = m.life := by
  (unfold Mod.setBank; repeat' split) <;> (first | with_reducible rfl | simp)
@[simp] theorem Mod.setCanObj_life (m : Mod) (k : Nat) (s : CanObjSt) : (Mod.setCanObj m k s).life = m.life := by unfold Mod.setCanObj; simp
@[simp] theorem Mod.draw_life (m : Mod) : (Mod.draw m).2.life = m.life := by unfold Mod.draw; simp
@[simp] theorem Mod.chainPut_life (m : Mod) (stream : Nat) (packet : List Nat) (tail : Nat) : (Mod.chainPut m stream packet tail).life = m.life := by unfold Mod.chainPut; simp
@[simp] theorem Mod.logS4_life (m : Mod) (kind source w1 w2 w3 : Nat) : (Mod.logS4 m kind source w1 w2 w3).life = m.life := by unfold Mod.logS4; simp
@[simp] theorem Mod.setGalCode_life (m : Mod) (c : Nat) (g : GalCode) : (Mod.setGalCode m c g).life = m.life := by unfold Mod.setGalCode; simp
@[simp] theorem Mod.suppress_life (m : Mod) (code : Nat) : (Mod.suppress m code).life = m.life := by unfold Mod.suppress; simp
@[simp] theorem Mod.enqueueDue_life (m : Mod) (d : GalDue) : (Mod.enqueueDue m d).life = m.life := by
  (unfold Mod.enqueueDue; dsimp only []; repeat' (first | with_reducible rfl | assumption | (refine (over_life _ _ _ (fun _ _ => ?_)).trans ?_) | (refine ite_life _ _ _ _ ?_ ?_) | split | (simp; done)))
@[simp] theorem Mod.logRecord_life (m : Mod) (d : GalDue) : (Mod.logRecord m d).life = m.life := by unfold Mod.logRecord; simp
@[simp] theorem Mod.logGal_life (m : Mod) (code source : Nat) (words : List Nat) : (Mod.logGal m code source words).life = m.life := by unfold Mod.logGal; simp
@[simp] theorem Mod.logRecipe_life (m : Mod) (code track step : Nat) : (Mod.logRecipe m code track step).life = m.life := by unfold Mod.logRecipe; simp
@[simp] theorem Mod.timeTo_life (m : Mod) (f : Nat) : (Mod.timeTo m f).life = m.life := by unfold Mod.timeTo; simp
@[simp] theorem Mod.setStream_life (m : Mod) (s : Nat) (v : StreamSt) : (Mod.setStream m s v).life = m.life := by unfold Mod.setStream; simp
@[simp] theorem Mod.recAt_life (m : Mod) (s : Nat) (t : Tread) (kind key : Nat) (words : List Nat) : (Mod.recAt m s t kind key words).life = m.life := by
  (unfold Mod.recAt; dsimp only []; repeat' (first | with_reducible rfl | assumption | (refine (over_life _ _ _ (fun _ _ => ?_)).trans ?_) | (refine ite_life _ _ _ _ ?_ ?_) | split | (simp; done)))
@[simp] theorem Mod.rec__life (m : Mod) (s : Nat) (t : Tread) (kind : Nat) (words : List Nat) : (Mod.rec_ m s t kind words).life = m.life := by unfold Mod.rec_; simp
@[simp] theorem Mod.note_life (m : Mod) (who key : Nat) : (Mod.note m who key).life = m.life := by unfold Mod.note; simp
@[simp] theorem Mod.wr_life (m : Mod) (who idx sub v : Nat) : (Mod.wr m who idx sub v).life = m.life := by unfold Mod.wr; simp
@[simp] theorem Mod.clearLog_life (m : Mod) : (Mod.clearLog m).life = m.life := by unfold Mod.clearLog; simp
@[simp] theorem Mod.setRecord_life (m : Mod) (r : RecSt) : (Mod.setRecord m r).life = m.life := by unfold Mod.setRecord; simp
@[simp] theorem Mod.setTrig_life (m : Mod) (k : Nat) (t : TrigSt) : (Mod.setTrig m k t).life = m.life := by unfold Mod.setTrig; simp
@[simp] theorem Mod.holdOff_life (m : Mod) (k : Nat) (t : Tread) : (Mod.holdOff m k t).life = m.life := by unfold Mod.holdOff; simp
@[simp] theorem Mod.remember_life (m : Mod) (k v : Nat) : (Mod.remember m k v).life = m.life := by unfold Mod.remember; simp
@[simp] theorem Mod.noteRaw_life (m : Mod) (j : Nat) (code : Int) : (Mod.noteRaw m j code).life = m.life := by
  (unfold Mod.noteRaw; dsimp only []; repeat' (first | with_reducible rfl | assumption | (refine (over_life _ _ _ (fun _ _ => ?_)).trans ?_) | (refine ite_life _ _ _ _ ?_ ?_) | split | (simp; done)))
@[simp] theorem Mod.setLevels_life (m : Mod) : (Mod.setLevels m).life = m.life := by unfold Mod.setLevels; simp
@[simp] theorem Mod.abandonDark_life (m : Mod) (b : Nat) : (Mod.abandonDark m b).life = m.life := by
  (unfold Mod.abandonDark; repeat' split) <;> (first | with_reducible rfl | simp)
@[simp] theorem Mod.pulsePass_life (m : Mod) : (Mod.pulsePass m).life = m.life := by
  (unfold Mod.pulsePass; repeat' split) <;> (first | with_reducible rfl | simp)
@[simp] theorem Mod.darkPass_life (m : Mod) : (Mod.darkPass m).life = m.life := by unfold Mod.darkPass; simp
@[simp] theorem Mod.darkStart_life (m : Mod) (b : Nat) : (Mod.darkStart m b).life = m.life := by
  (unfold Mod.darkStart; repeat' split) <;> (first | with_reducible rfl | simp)
@[simp] theorem Mod.darkEnd_life (m : Mod) (b readback : Nat) : (Mod.darkEnd m b readback).life = m.life := by
  (unfold Mod.darkEnd; dsimp only []; repeat' (first | with_reducible rfl | assumption | (refine (over_life _ _ _ (fun _ _ => ?_)).trans ?_) | (refine ite_life _ _ _ _ ?_ ?_) | split | (simp; done)))
@[simp] theorem Mod.compareOne_life (m : Mod) (diff : Nat) (o : Nat) : (Mod.compareOne m diff o).life = m.life := by unfold Mod.compareOne; simp
@[simp] theorem Mod.compareReadback_life (m : Mod) (rb : Nat) : (Mod.compareReadback m rb).life = m.life := by unfold Mod.compareReadback; simp
@[simp] theorem Mod.autoEnable_life (m : Mod) (mask : Nat) : (Mod.autoEnable m mask).life = m.life := by unfold Mod.autoEnable; simp
@[simp] theorem Mod.coolPass_life (m : Mod) : (Mod.coolPass m).life = m.life := by unfold Mod.coolPass; simp
@[simp] theorem Mod.latchImage_life (m : Mod) (img : Img) : (Mod.latchImage m img).life = m.life := by unfold Mod.latchImage; simp
@[simp] theorem Mod.takeCouplers_life (m : Mod) (img : Img) (strobes : Nat) : (Mod.takeCouplers m img strobes).life = m.life := by unfold Mod.takeCouplers; simp
@[simp] theorem Mod.pathChange_life (m : Mod) : (Mod.pathChange m).life = m.life := by unfold Mod.pathChange; simp
@[simp] theorem Mod.outFalls_life (m : Mod) : (Mod.outFalls m).life = m.life := by unfold Mod.outFalls; simp
@[simp] theorem Mod.outReturns_life (m : Mod) : (Mod.outReturns m).life = m.life := by unfold Mod.outReturns; simp
@[simp] theorem Mod.outPath_life (m : Mod) (mainOut : Bool) : (Mod.outPath m mainOut).life = m.life := by unfold Mod.outPath; simp
@[simp] theorem Mod.applyImage_life (m : Mod) (mainOut : Bool) (strobes : Nat) : (Mod.applyImage m mainOut strobes).life = m.life := by
  unfold Mod.applyImage
  extract_lets f
  split
  · rfl
  · split
    · rfl
    · extract_lets a1 a2 a3
      have h1 : a1.life = m.life := by
        simp only [a1]
        (repeat' split) <;> simp +zetaDelta [apply_ite Mod.life]
      have h2 : a2.life = m.life := by simp [a2, h1]
      simp [h2]
@[simp] theorem Mod.takeSnapshot_life (m : Mod) (rb : Nat) : (Mod.takeSnapshot m rb).life = m.life := by unfold Mod.takeSnapshot; simp
@[simp] theorem Mod.forceFaults_life (m : Mod) : (Mod.forceFaults m).life = m.life := by unfold Mod.forceFaults; simp
@[simp] theorem Mod.inFalls_life (m : Mod) : (Mod.inFalls m).life = m.life := by unfold Mod.inFalls; simp
@[simp] theorem Mod.takeRaw_life (m : Mod) (i : TreadIn) : (Mod.takeRaw m i).life = m.life := by unfold Mod.takeRaw; simp
@[simp] theorem Mod.inPath_life (m : Mod) (mainIn : Bool) : (Mod.inPath m mainIn).life = m.life := by unfold Mod.inPath; simp
@[simp] theorem Mod.snapField_life (m : Mod) (i : TreadIn) : (Mod.snapField m i).life = m.life := by unfold Mod.snapField; simp
@[simp] theorem Mod.fallback_life (m : Mod) (side : Nat) : (Mod.fallback m side).life = m.life := by unfold Mod.fallback; simp
@[simp] theorem Mod.mainReturn_life (m : Mod) (side : Nat) : (Mod.mainReturn m side).life = m.life := by unfold Mod.mainReturn; simp
@[simp] theorem Mod.holdExpiry_life (m : Mod) (ms : Nat) : (Mod.holdExpiry m ms).life = m.life := by unfold Mod.holdExpiry; simp
@[simp] theorem Mod.sag_life (m : Mod) (b : Nat) : (Mod.sag m b).life = m.life := by unfold Mod.sag; simp
@[simp] theorem Mod.supplyLow_life (m : Mod) (b : Nat) : (Mod.supplyLow m b).life = m.life := by unfold Mod.supplyLow; simp
@[simp] theorem Mod.supplyBack_life (m : Mod) (b : Nat) : (Mod.supplyBack m b).life = m.life := by unfold Mod.supplyBack; simp
@[simp] theorem Mod.qualified_life (m : Mod) (b : Nat) : (Mod.qualified m b).life = m.life := by unfold Mod.qualified; simp
@[simp] theorem Mod.overTemp_life (m : Mod) (o : Nat) : (Mod.overTemp m o).life = m.life := by unfold Mod.overTemp; simp
@[simp] theorem Mod.cooledDown_life (m : Mod) (o : Nat) : (Mod.cooledDown m o).life = m.life := by unfold Mod.cooledDown; simp
@[simp] theorem Mod.unpowerField_life (m : Mod) : (Mod.unpowerField m).life = m.life := by unfold Mod.unpowerField; simp
@[simp] theorem Mod.freshField_life (m : Mod) : (Mod.freshField m).life = m.life := by unfold Mod.freshField; simp
@[simp] theorem Mod.aoReadback_life (m : Mod) (g v : Nat) : (Mod.aoReadback m g v).life = m.life := by unfold Mod.aoReadback; simp
@[simp] theorem Mod.debounceTo_life (m : Mod) (i level samples : Nat) : (Mod.debounceTo m i level samples).life = m.life := by unfold Mod.debounceTo; simp
@[simp] theorem Mod.regroup_life (m : Mod) : (Mod.regroup m).life = m.life := by unfold Mod.regroup; simp
@[simp] theorem Mod.takeMaps_life (m : Mod) : (Mod.takeMaps m).life = m.life := by unfold Mod.takeMaps; simp
@[simp] theorem Mod.fieldFlight_life (m : Mod) (before : SMap Nat) : (Mod.fieldFlight m before).life = m.life := by unfold Mod.fieldFlight; simp
@[simp] theorem Mod.enterMode_life (m : Mod) (who j mode : Nat) : (Mod.enterMode m who j mode).life = m.life := by unfold Mod.enterMode; simp
@[simp] theorem Mod.modeRecords_life (m : Mod) : (Mod.modeRecords m).life = m.life := by unfold Mod.modeRecords; simp
@[simp] theorem Mod.writeManual_life (m : Mod) (who j v : Nat) : (Mod.writeManual m who j v).life = m.life := by unfold Mod.writeManual; simp
@[simp] theorem Mod.takeManuals_life (m : Mod) : (Mod.takeManuals m).life = m.life := by unfold Mod.takeManuals; simp
@[simp] theorem Mod.selectBank_life (m : Mod) (who j b : Nat) : (Mod.selectBank m who j b).life = m.life := by unfold Mod.selectBank; simp
@[simp] theorem Mod.writeCoef_life (m : Mod) (who bank j sub v : Nat) : (Mod.writeCoef m who bank j sub v).life = m.life := by unfold Mod.writeCoef; simp
@[simp] theorem Mod.loopChanges_life (m : Mod) : (Mod.loopChanges m).life = m.life := by
  (unfold Mod.loopChanges; dsimp only []; repeat' (first | with_reducible rfl | assumption | (refine (over_life _ _ _ (fun _ _ => ?_)).trans ?_) | (refine ite_life _ _ _ _ ?_ ?_) | split | (simp; done)))
@[simp] theorem Mod.jumpTo_life (m : Mod) (who j v : Nat) : (Mod.jumpTo m who j v).life = m.life := by unfold Mod.jumpTo; simp
@[simp] theorem Mod.clearTableOf_life (m : Mod) (j : Nat) : (Mod.clearTableOf m j).life = m.life := by unfold Mod.clearTableOf; simp
@[simp] theorem Mod.restartTable_life (m : Mod) (j : Nat) : (Mod.restartTable m j).life = m.life := by unfold Mod.restartTable; simp
@[simp] theorem Mod.setLocked_life (m : Mod) (j : Nat) (locked : Bool) : (Mod.setLocked m j locked).life = m.life := by unfold Mod.setLocked; simp
@[simp] theorem Mod.indexEdge_life (m : Mod) (j : Nat) : (Mod.indexEdge m j).life = m.life := by
  (unfold Mod.indexEdge; dsimp only []; repeat' (first | with_reducible rfl | assumption | (refine (over_life _ _ _ (fun _ _ => ?_)).trans ?_) | (refine ite_life _ _ _ _ ?_ ?_) | split | (simp; done)))
@[simp] theorem Mod.lockTimeout_life (m : Mod) (j : Nat) : (Mod.lockTimeout m j).life = m.life := by unfold Mod.lockTimeout; simp
@[simp] theorem Mod.restartLock_life (m : Mod) (j : Nat) : (Mod.restartLock m j).life = m.life := by unfold Mod.restartLock; simp
@[simp] theorem Mod.lockPass_life (m : Mod) : (Mod.lockPass m).life = m.life := by
  (unfold Mod.lockPass; dsimp only []; repeat' (first | with_reducible rfl | assumption | (refine (over_life _ _ _ (fun _ _ => ?_)).trans ?_) | (refine ite_life _ _ _ _ ?_ ?_) | split | (simp; done)))
@[simp] theorem Mod.evaluate_life (m : Mod) (poolBad pathBad : List Nat) : (Mod.evaluate m poolBad pathBad).life = m.life := by unfold Mod.evaluate; simp
@[simp] theorem Mod.driveAo_life (m : Mod) (a w : Nat) (u : Dy) : (Mod.driveAo m a w u).life = m.life := by unfold Mod.driveAo; simp
@[simp] theorem Mod.drive_life (m : Mod) (d : Sig) (u : Dy) : (Mod.drive m d u).life = m.life := by
  (unfold Mod.drive; dsimp only []; repeat' (first | with_reducible rfl | assumption | (refine (over_life _ _ _ (fun _ _ => ?_)).trans ?_) | (refine ite_life _ _ _ _ ?_ ?_) | split | (simp; done)))
@[simp] theorem Mod.undrive_life (m : Mod) (a : Nat) : (Mod.undrive m a).life = m.life := by unfold Mod.undrive; simp
@[simp] theorem Mod.undriven_life (m : Mod) : (Mod.undriven m).life = m.life := by unfold Mod.undriven; simp
@[simp] theorem Mod.applyReleased_life (m : Mod) : (Mod.applyReleased m).life = m.life := by
  (unfold Mod.applyReleased; repeat' split) <;> (first | with_reducible rfl | simp)
@[simp] theorem Mod.lostPass_life (m : Mod) : (Mod.lostPass m).life = m.life := by unfold Mod.lostPass; simp
@[simp] theorem Mod.resync_life (m : Mod) (pair : Nat) : (Mod.resync m pair).life = m.life := by unfold Mod.resync; simp
@[simp] theorem Mod.missed_life (m : Mod) (pair : Nat) : (Mod.missed m pair).life = m.life := by unfold Mod.missed; simp
@[simp] theorem Mod.takeover_life (m : Mod) (pair : Nat) : (Mod.takeover m pair).life = m.life := by unfold Mod.takeover; simp
@[simp] theorem Mod.pairs_life (m : Mod) (i : TreadIn) : (Mod.pairs m i).1.life = m.life := by
  unfold Mod.pairs
  extract_lets prim inA inB path missA missB e m2 m3 m4 m5 m6 okA okB m7 m8 sel m9 m10
  have h3 : m3.life = m.life := by simp [m3, m2]
  clear_value m3
  have h4 : m4.life = m.life := by simp only [m4]; split <;> simp [h3]
  clear_value m4
  have h5 : m5.life = m.life := by simp only [m5]; split <;> simp [h4]
  clear_value m5
  have h6 : m6.life = m.life := by simp only [m6]; split <;> simp [h5]
  clear_value m6
  have h7 : m7.life = m.life := by simp only [m7]; split <;> simp [h6]
  clear_value m7
  have h8 : m8.life = m.life := by simp only [m8]; split <;> simp [h7]
  clear_value m8
  have h9 : m9.life = m.life := by simp only [m9]; split <;> simp [h8]
  clear_value m9
  have h10 : m10.life = m.life := by simp only [m10]; split <;> simp [h9]
  clear_value m10
  split <;> simp [h8, h10]
@[simp] theorem Mod.resyncEnd_life (m : Mod) (pair : Nat) (ok : Bool) : (Mod.resyncEnd m pair ok).life = m.life := by unfold Mod.resyncEnd; simp
@[simp] theorem Mod.queueMove_life (m : Mod) (a : Nat) (t : Int) : (Mod.queueMove m a t).life = m.life := by unfold Mod.queueMove; simp
@[simp] theorem Mod.stopAxis_life (m : Mod) (a : Nat) : (Mod.stopAxis m a).life = m.life := by unfold Mod.stopAxis; simp
@[simp] theorem Mod.axisFault_life (m : Mod) (a code : Nat) : (Mod.axisFault m a code).life = m.life := by
  (unfold Mod.axisFault; dsimp only []; repeat' (first | with_reducible rfl | assumption | (refine (over_life _ _ _ (fun _ _ => ?_)).trans ?_) | (refine ite_life _ _ _ _ ?_ ?_) | split | (simp; done)))
@[simp] theorem Mod.safetyStopAxis_life (m : Mod) (a : Nat) : (Mod.safetyStopAxis m a).life = m.life := by unfold Mod.safetyStopAxis; simp
@[simp] theorem Mod.axesSafety_life (m : Mod) : (Mod.axesSafety m).life = m.life := by unfold Mod.axesSafety; simp
@[simp] theorem Mod.frameLink_life (m : Mod) (k : Nat) : (Mod.frameLink m k).life = m.life := by
  unfold Mod.frameLink
  extract_lets mask r n header
  have h : r.1.life = m.life := foldl_life _ _ _ (fun r s => by
    extract_lets a f
    split <;> simp)
  clear_value r
  simp [h]
@[simp] theorem Mod.recordAxes_life (m : Mod) : (Mod.recordAxes m).life = m.life := by unfold Mod.recordAxes; simp
@[simp] theorem Mod.axisFrames_life (m : Mod) : (Mod.axisFrames m).life = m.life := by unfold Mod.axisFrames; simp
@[simp] theorem Mod.planComplete_life (m : Mod) (a : Nat) : (Mod.planComplete m a).life = m.life := by unfold Mod.planComplete; simp
@[simp] theorem Mod.holdDelay_life (m : Mod) (a : Nat) : (Mod.holdDelay m a).life = m.life := by unfold Mod.holdDelay; simp
@[simp] theorem Mod.axisFound_life (m : Mod) (a code : Nat) (new : Bool) : (Mod.axisFound m a code new).life = m.life := by unfold Mod.axisFound; simp
@[simp] theorem Mod.judgeLink_life (m : Mod) (k : Nat) : (Mod.judgeLink m k).life = m.life := by unfold Mod.judgeLink; simp
@[simp] theorem Mod.stageReturn_life (m : Mod) (a : Nat) (ret : Option Nat) : (Mod.stageReturn m a ret).life = m.life := by
  unfold Mod.stageReturn
  extract_lets k mask late s before m1
  split
  · rfl
  · have h1 : m1.life = m.life := by
      simp only [m1]
      split
      · simp
      · repeat' (first | rw [Mod.axisFault_life] | rw [Mod.axisFound_life] | refine ite_life _ _ _ _ ?_ ?_ | (simp; done))
    clear_value m1
    split <;> simp [h1]
@[simp] theorem Mod.axesStatus_life (m : Mod) : (Mod.axesStatus m).life = m.life := by
  (unfold Mod.axesStatus; dsimp only []; repeat' (first | with_reducible rfl | assumption | (refine (over_life _ _ _ (fun _ _ => ?_)).trans ?_) | (refine ite_life _ _ _ _ ?_ ?_) | split | (simp; done)))
@[simp] theorem Mod.enableAxis_life (m : Mod) (a v : Nat) : (Mod.enableAxis m a v).life = m.life := by unfold Mod.enableAxis; simp
@[simp] theorem Mod.clearAxis_life (m : Mod) (a : Nat) : (Mod.clearAxis m a).life = m.life := by unfold Mod.clearAxis; simp
@[simp] theorem Mod.reReference_life (m : Mod) (a : Nat) : (Mod.reReference m a).life = m.life := by unfold Mod.reReference; simp
@[simp] theorem Mod.setPos_life (m : Mod) (a : Nat) (v : Int) : (Mod.setPos m a v).life = m.life := by unfold Mod.setPos; simp
@[simp] theorem Mod.axisWrite_life (m : Mod) (a sub v : Nat) : (Mod.axisWrite m a sub v).life = m.life := by
  (unfold Mod.axisWrite; repeat' split) <;> (first | with_reducible rfl | simp)
@[simp] theorem Mod.emptyShadow_life (m : Mod) : (Mod.emptyShadow m).life = m.life := by unfold Mod.emptyShadow; simp
@[simp] theorem Mod.beginLoad_life (m : Mod) : (Mod.beginLoad m).life = m.life := by unfold Mod.beginLoad; simp
@[simp] theorem Mod.putChunk_life (m : Mod) (len data : Nat) : (Mod.putChunk m len data).life = m.life := by unfold Mod.putChunk; simp
@[simp] theorem Mod.finishLoad_life (m : Mod) : (Mod.finishLoad m).life = m.life := by unfold Mod.finishLoad; simp
@[simp] theorem Mod.endValidation_life (m : Mod) : (Mod.endValidation m).life = m.life := by unfold Mod.endValidation; simp
@[simp] theorem Mod.swapBanks_life (m : Mod) : (Mod.swapBanks m).life = m.life := by unfold Mod.swapBanks; simp
@[simp] theorem Mod.activateBank_life (m : Mod) (was k : Nat) : (Mod.activateBank m was k).life = m.life := by unfold Mod.activateBank; simp
@[simp] theorem Mod.applyPatch_life (m : Mod) (slots : List (Nat × Nat)) : (Mod.applyPatch m slots).life = m.life := by unfold Mod.applyPatch; simp
@[simp] theorem Mod.revert_life (m : Mod) (r : Tread) : (Mod.revert m r).life = m.life := by unfold Mod.revert; simp
@[simp] theorem Mod.judge_life (m : Mod) (x : Nat) : (Mod.judge m x).life = m.life := by unfold Mod.judge; simp
@[simp] theorem Mod.flagInput_life (m : Mod) (x bit : Nat) (b : Bool) : (Mod.flagInput m x bit b).life = m.life := by unfold Mod.flagInput; simp
@[simp] theorem Mod.judgeValue_life (m : Mod) (x v : Nat) : (Mod.judgeValue m x v).life = m.life := by unfold Mod.judgeValue; simp
@[simp] theorem Mod.present_life (m : Mod) (x : Nat) : (Mod.present m x).life = m.life := by
  (unfold Mod.present; repeat' split) <;> (first | with_reducible rfl | simp)
@[simp] theorem Mod.latch_life (m : Mod) : (Mod.latch m).life = m.life := by unfold Mod.latch; simp
@[simp] theorem Mod.closeWindow_life (m : Mod) (x : Nat) (w : Win) : (Mod.closeWindow m x w).life = m.life := by unfold Mod.closeWindow; simp
@[simp] theorem Mod.addCode_life (m : Mod) (x : Nat) (t : Tread) (code : Int) (landed : Bool) : (Mod.addCode m x t code landed).life = m.life := by unfold Mod.addCode; simp
@[simp] theorem Mod.noteSample_life (m : Mod) (x : Nat) (t : Tread) (cycles : Nat) (code : Int) : (Mod.noteSample m x t cycles code).life = m.life := by unfold Mod.noteSample; simp
@[simp] theorem Mod.sample_life (m : Mod) (x : Nat) (t : Tread) (cycles : Nat) (code : Int) : (Mod.sample m x t cycles code).life = m.life := by unfold Mod.sample; simp
@[simp] theorem Mod.missSample_life (m : Mod) (x : Nat) (t : Tread) : (Mod.missSample m x t).life = m.life := by unfold Mod.missSample; simp
@[simp] theorem Mod.restartWindow_life (m : Mod) (x : Nat) (since : Tread) : (Mod.restartWindow m x since).life = m.life := by unfold Mod.restartWindow; simp
@[simp] theorem Mod.closeDue_life (m : Mod) (x : Nat) : (Mod.closeDue m x).life = m.life := by
  (unfold Mod.closeDue; repeat' split) <;> (first | with_reducible rfl | simp)
@[simp] theorem Mod.fireAt_life (m : Mod) (c off : Nat) : (Mod.fireAt m c off).life = m.life := by unfold Mod.fireAt; simp
@[simp] theorem Mod.askFire_life (m : Mod) (c off : Nat) : (Mod.askFire m c off).life = m.life := by unfold Mod.askFire; simp
@[simp] theorem Mod.settleAsked_life (m : Mod) (c off : Nat) : (Mod.settleAsked m c off).life = m.life := by unfold Mod.settleAsked; simp
@[simp] theorem Mod.fire_life (m : Mod) (c off : Nat) : (Mod.fire m c off).life = m.life := by unfold Mod.fire; simp
@[simp] theorem Mod.missSlots_life (m : Mod) (c : Nat) (slots : List Nat) : (Mod.missSlots m c slots).life = m.life := by unfold Mod.missSlots; simp
@[simp] theorem Mod.slotsOver_life (m : Mod) (c : Nat) : (Mod.slotsOver m c).life = m.life := by unfold Mod.slotsOver; simp
@[simp] theorem Mod.slotsEnd_life (m : Mod) : (Mod.slotsEnd m).life = m.life := by unfold Mod.slotsEnd; simp
@[simp] theorem Mod.capture_life (m : Mod) (x : Nat) (t : Tread) (code : Int) (cycles : Nat) : (Mod.capture m x t code cycles).life = m.life := by unfold Mod.capture; simp
@[simp] theorem Mod.slotZero_life (m : Mod) (codes : List (Nat × Int)) : (Mod.slotZero m codes).life = m.life := by unfold Mod.slotZero; simp
@[simp] theorem Mod.injected_life (m : Mod) (x : Nat) (t : Tread) (code : Int) (cycles : Nat) : (Mod.injected m x t code cycles).life = m.life := by unfold Mod.injected; simp
@[simp] theorem Mod.landed_life (m : Mod) (c slot : Nat) (inj : Bool) (code : Int) (cycles : Nat) (t : Tread) : (Mod.landed m c slot inj code cycles t).life = m.life := by unfold Mod.landed; simp
@[simp] theorem Mod.resultLands_life (m : Mod) (c slot : Nat) (inj : Bool) (code : Int) (cycles : Nat) (off : Offset) : (Mod.resultLands m c slot inj code cycles off).life = m.life := by unfold Mod.resultLands; simp
@[simp] theorem Mod.mapChanged_life (m : Mod) (s : Nat) (t : Tread) : (Mod.mapChanged m s t).life = m.life := by unfold Mod.mapChanged; simp
@[simp] theorem Mod.inputMaps_life (m : Mod) (l : List Nat) (t : Tread) : (Mod.inputMaps m l t).life = m.life := by unfold Mod.inputMaps; simp
@[simp] theorem Mod.check_life (m : Mod) (c : Nat) (code : Option Int) : (Mod.check m c code).life = m.life := by
  (unfold Mod.check; repeat' split) <;> (first | with_reducible rfl | simp)
@[simp] theorem Mod.beginCal_life (m : Mod) (c : Nat) : (Mod.beginCal m c).life = m.life := by unfold Mod.beginCal; simp
@[simp] theorem Mod.resumeConv_life (m : Mod) (c : Nat) : (Mod.resumeConv m c).life = m.life := by unfold Mod.resumeConv; simp
@[simp] theorem Mod.endCal_life (m : Mod) (c : Nat) (pass : Bool) (coeffs : List (Nat × Nat × Nat)) : (Mod.endCal m c pass coeffs).life = m.life := by
  (unfold Mod.endCal; repeat' split) <;> (first | with_reducible rfl | simp)
@[simp] theorem Mod.beginSkew_life (m : Mod) : (Mod.beginSkew m).life = m.life := by
  unfold Mod.beginSkew; exact (over_life _ _ _ (fun m p => by simp)).trans (by simp)
@[simp] theorem Mod.endSkew_life (m : Mod) (trims : List (Nat × Nat)) (residuals : List (Nat × Int)) : (Mod.endSkew m trims residuals).life = m.life := by unfold Mod.endSkew; simp
@[simp] theorem Mod.scanStart_life (m : Mod) : (Mod.scanStart m).life = m.life := by
  (unfold Mod.scanStart; grind [over_life])
@[simp] theorem Mod.scan_life (m : Mod) (tile : Nat) (code : Int) : (Mod.scan m tile code).life = m.life := by
  (unfold Mod.scan; repeat' split) <;> (first | with_reducible rfl | simp)
@[simp] theorem Mod.restartTile_life (m : Mod) (tile : Nat) (since : Tread) : (Mod.restartTile m tile since).life = m.life := by
  (unfold Mod.restartTile; dsimp only []; repeat' (first | with_reducible rfl | assumption | (refine (over_life _ _ _ (fun _ _ => ?_)).trans ?_) | (refine ite_life _ _ _ _ ?_ ?_) | split | (simp; done)))
@[simp] theorem Mod.applyInputConfig_life (m : Mod) : (Mod.applyInputConfig m).life = m.life := by unfold Mod.applyInputConfig; simp
@[simp] theorem Mod.setTpo_life (m : Mod) (k : Nat) (s : TpoSt) : (Mod.setTpo m k s).life = m.life := by unfold Mod.setTpo; simp
@[simp] theorem Mod.setTime_life (m : Mod) (t : TimeSt) : (Mod.setTime m t).life = m.life := by unfold Mod.setTime; simp
@[simp] theorem Mod.holdFrequency_life (m : Mod) : (Mod.holdFrequency m).life = m.life := by unfold Mod.holdFrequency; simp
@[simp] theorem Mod.stepTime_life (m : Mod) (ns : Nat) : (Mod.stepTime m ns).life = m.life := by
  unfold Mod.stepTime
  extract_lets t m1 m2
  have h : m2.life = m.life := by simp [m2, m1]
  clear_value m2
  split
  · exact h
  · split <;> simp [h]
@[simp] theorem Mod.holdover_life (m : Mod) : (Mod.holdover m).life = m.life := by unfold Mod.holdover; simp
@[simp] theorem Mod.selectMaster_life (m : Mod) : (Mod.selectMaster m).life = m.life := by
  (unfold Mod.selectMaster; dsimp only []; repeat' (first | with_reducible rfl | assumption | (refine (over_life _ _ _ (fun _ _ => ?_)).trans ?_) | (refine ite_life _ _ _ _ ?_ ?_) | split | (simp; done)))
@[simp] theorem Mod.announce_life (m : Mod) (a : AnnounceIn) : (Mod.announce m a).life = m.life := by unfold Mod.announce; simp
@[simp] theorem Mod.masterLost_life (m : Mod) : (Mod.masterLost m).life = m.life := by
  (unfold Mod.masterLost; repeat' split) <;> (first | with_reducible rfl | simp)
@[simp] theorem Mod.recordBehind_life (m : Mod) : (Mod.recordBehind m).life = m.life := by unfold Mod.recordBehind; simp
@[simp] theorem Mod.masterBehind_life (m : Mod) : (Mod.masterBehind m).life = m.life := by unfold Mod.masterBehind; simp
@[simp] theorem Mod.servo_life (m : Mod) (o : Int) : (Mod.servo m o).life = m.life := by unfold Mod.servo; simp
@[simp] theorem Mod.sync_life (m : Mod) (i : SyncIn) : (Mod.sync m i).life = m.life := by unfold Mod.sync; simp
@[simp] theorem Mod.servoFlight_life (m : Mod) : (Mod.servoFlight m).life = m.life := by unfold Mod.servoFlight; simp
@[simp] theorem Mod.refLoss_life (m : Mod) : (Mod.refLoss m).life = m.life := by unfold Mod.refLoss; simp
@[simp] theorem Mod.refReturn_life (m : Mod) : (Mod.refReturn m).life = m.life := by unfold Mod.refReturn; simp
@[simp] theorem Mod.tpoArm_life (m : Mod) (k : Nat) : (Mod.tpoArm m k).life = m.life := by unfold Mod.tpoArm; simp
@[simp] theorem Mod.tpoDisarm_life (m : Mod) (k : Nat) : (Mod.tpoDisarm m k).life = m.life := by unfold Mod.tpoDisarm; simp
@[simp] theorem Mod.edge_life (m : Mod) (t : Tread) (sig : Sig) (level : Bool) : (Mod.edge m t sig level).life = m.life := by unfold Mod.edge; simp
@[simp] theorem Mod.trgEdge_life (m : Mod) (k : Nat) (falling : Bool) : (Mod.trgEdge m k falling).life = m.life := by unfold Mod.trgEdge; simp
@[simp] theorem Mod.tpoPulse_life (m : Mod) (k : Nat) : (Mod.tpoPulse m k).life = m.life := by
  (unfold Mod.tpoPulse; dsimp only []; repeat' (first | with_reducible rfl | assumption | (refine (over_life _ _ _ (fun _ _ => ?_)).trans ?_) | (refine ite_life _ _ _ _ ?_ ?_) | split | (simp; done)))
@[simp] theorem Mod.tpoEnd_life (m : Mod) (k : Nat) : (Mod.tpoEnd m k).life = m.life := by
  (unfold Mod.tpoEnd; dsimp only []; repeat' (first | with_reducible rfl | assumption | (refine (over_life _ _ _ (fun _ _ => ?_)).trans ?_) | (refine ite_life _ _ _ _ ?_ ?_) | split | (simp; done)))
@[simp] theorem Mod.tpoQuiet_life (m : Mod) : (Mod.tpoQuiet m).life = m.life := by unfold Mod.tpoQuiet; simp
@[simp] theorem Mod.tpoStep_life (m : Mod) (d : Nat) (n : Tread) : (Mod.tpoStep m d n).life = m.life := by
  (unfold Mod.tpoStep; dsimp only []; repeat' (first | with_reducible rfl | assumption | (refine (over_life _ _ _ (fun _ _ => ?_)).trans ?_) | (refine ite_life _ _ _ _ ?_ ?_) | split | (simp; done)))
@[simp] theorem Mod.tpoResume_life (m : Mod) : (Mod.tpoResume m).life = m.life := by
  (unfold Mod.tpoResume; dsimp only []; repeat' (first | with_reducible rfl | assumption | (refine (over_life _ _ _ (fun _ _ => ?_)).trans ?_) | (refine ite_life _ _ _ _ ?_ ?_) | split | (simp; done)))
@[simp] theorem Mod.setCanPort_life (m : Mod) (p : Nat) (s : CanPortSt) : (Mod.setCanPort m p s).life = m.life := by unfold Mod.setCanPort; simp
@[simp] theorem Mod.setCanRo_life (m : Mod) (k sub v : Nat) : (Mod.setCanRo m k sub v).life = m.life := by unfold Mod.setCanRo; simp
@[simp] theorem Mod.canBump_life (m : Mod) (k sub : Nat) : (Mod.canBump m k sub).life = m.life := by unfold Mod.canBump; simp
@[simp] theorem Mod.putMo_life (m : Mod) (k : Nat) (s : CanObjSt) : (Mod.putMo m k s).life = m.life := by unfold Mod.putMo; simp
@[simp] theorem Mod.setErrors_life (m : Mod) (p tec rec_ : Nat) : (Mod.setErrors m p tec rec_).life = m.life := by unfold Mod.setErrors; simp
@[simp] theorem Mod.offEnds_life (m : Mod) (p : Nat) : (Mod.offEnds m p).life = m.life := by unfold Mod.offEnds; simp
@[simp] theorem Mod.canReceive_life (m : Mod) (p : Nat) (f : CanFrame) : (Mod.canReceive m p f).life = m.life := by
  unfold Mod.canReceive
  split
  · rfl
  · extract_lets m0 m1 d l
    have h1 : m1.life = m.life := by simp [m1, m0]
    clear_value m1
    split
    · exact h1
    · split
      · exact h1
      · extract_lets m2 s q
        have h2 : m2.life = m.life := by simp [m2, h1]
        clear_value m2
        split
        · simp only [Mod.putMo_life]
          split <;> simp [h2]
        · split
          · exact h2
          · simp [h2]
@[simp] theorem Mod.canBoundary_life (m : Mod) : (Mod.canBoundary m).life = m.life := by
  (unfold Mod.canBoundary; dsimp only []; repeat' (first | with_reducible rfl | assumption | (refine (over_life _ _ _ (fun _ _ => ?_)).trans ?_) | (refine ite_life _ _ _ _ ?_ ?_) | split | (simp; done)))
@[simp] theorem Mod.goStale_life (m : Mod) (k : Nat) : (Mod.goStale m k).life = m.life := by unfold Mod.goStale; simp
@[simp] theorem Mod.sendMo_life (m : Mod) (k : Nat) : (Mod.sendMo m k).life = m.life := by unfold Mod.sendMo; simp
@[simp] theorem Mod.periodicSend_life (m : Mod) (k : Nat) : (Mod.periodicSend m k).life = m.life := by unfold Mod.periodicSend; simp
@[simp] theorem Mod.noteOffers_life (m : Mod) : (Mod.noteOffers m).life = m.life := by unfold Mod.noteOffers; simp
@[simp] theorem Mod.attemptEnds_life (m : Mod) (p : Nat) : (Mod.attemptEnds m p).life = m.life := by unfold Mod.attemptEnds; simp
@[simp] theorem Mod.sent_life (m : Mod) (p : Nat) (began : Nat) : (Mod.sent m p began).life = m.life := by
  unfold Mod.sent
  split
  · rfl
  · extract_lets x m1 m2 q1 m3 q2
    split
    · rfl
    · have h : m3.life = m.life := by simp [m3, m2, m1]
      clear_value m3
      split
      · exact h
      · simp only [Mod.canBump_life]
        split <;> simp [h]
      · split <;> simp [h]
@[simp] theorem Mod.busOff_life (m : Mod) (p mo : Nat) : (Mod.busOff m p mo).life = m.life := by unfold Mod.busOff; simp
@[simp] theorem Mod.moError_life (m : Mod) (p k : Nat) (off : Bool) : (Mod.moError m p k off).life = m.life := by unfold Mod.moError; simp
@[simp] theorem Mod.respError_life (m : Mod) (p : Nat) (off : Bool) : (Mod.respError m p off).life = m.life := by
  (unfold Mod.respError; dsimp only []; repeat' (first | with_reducible rfl | assumption | (refine (over_life _ _ _ (fun _ _ => ?_)).trans ?_) | (refine ite_life _ _ _ _ ?_ ?_) | split | (simp; done)))
@[simp] theorem Mod.sendError_life (m : Mod) (p : Nat) (arbitration : Bool) (ack : Bool) (began : Nat) :
    (Mod.sendError m p arbitration ack began).life = m.life := by
  unfold Mod.sendError
  split
  · rfl
  · extract_lets x tec off m1 m2
    split
    · rfl
    · have h : m2.life = m.life := by simp [m2, m1]
      clear_value m2
      split
      · simp [h]
      · simp [h]
      · split <;> simp [h]
@[simp] theorem Mod.receiveError_life (m : Mod) (p : Nat) (dominant : Bool) : (Mod.receiveError m p dominant).life = m.life := by unfold Mod.receiveError; simp
@[simp] theorem Mod.recover_life (m : Mod) (p : Nat) : (Mod.recover m p).life = m.life := by unfold Mod.recover; simp
@[simp] theorem Mod.recovered_life (m : Mod) (p sequences : Nat) : (Mod.recovered m p sequences).life = m.life := by unfold Mod.recovered; simp
@[simp] theorem Mod.dropPending_life (m : Mod) (p : Nat) : (Mod.dropPending m p).life = m.life := by unfold Mod.dropPending; simp
@[simp] theorem Mod.emptyQueue_life (m : Mod) (p : Nat) : (Mod.emptyQueue m p).life = m.life := by unfold Mod.emptyQueue; simp
@[simp] theorem Mod.portOn_life (m : Mod) (p : Nat) : (Mod.portOn m p).life = m.life := by unfold Mod.portOn; simp
@[simp] theorem Mod.portOff_life (m : Mod) (p : Nat) : (Mod.portOff m p).life = m.life := by unfold Mod.portOff; simp
@[simp] theorem Mod.integrated_life (m : Mod) (p : Nat) : (Mod.integrated m p).life = m.life := by unfold Mod.integrated; simp
@[simp] theorem Mod.resetPort_life (m : Mod) (p : Nat) : (Mod.resetPort m p).life = m.life := by unfold Mod.resetPort; simp
@[simp] theorem Mod.canAfresh_life (m : Mod) : (Mod.canAfresh m).life = m.life := by unfold Mod.canAfresh; simp
@[simp] theorem Mod.claim_life (m : Mod) (p a : Nat) : (Mod.claim m p a).1.life = m.life := by
  (unfold Mod.claim; dsimp only []; repeat' (first | with_reducible rfl | assumption | (refine (over_life _ _ _ (fun _ _ => ?_)).trans ?_) | (refine ite_life _ _ _ _ ?_ ?_) | split | (simp; done)))
@[simp] theorem Mod.acknowledge_life (m : Mod) (p a seq : Nat) : (Mod.acknowledge m p a seq).life = m.life := by unfold Mod.acknowledge; simp
@[simp] theorem Mod.unclaimOne_life (m : Mod) (p seq : Nat) : (Mod.unclaimOne m p seq).life = m.life := by unfold Mod.unclaimOne; simp
@[simp] theorem Mod.unclaim_life (m : Mod) (a : Nat) : (Mod.unclaim m a).life = m.life := by unfold Mod.unclaim; simp
@[simp] theorem Mod.decideLand_life (m : Mod) (t cause : Nat) : (Mod.decideLand m t cause).life = m.life := by unfold Mod.decideLand; simp
@[simp] theorem Mod.decideEnter_life (m : Mod) (t step exit clear : Nat) : (Mod.decideEnter m t step exit clear).life = m.life := by unfold Mod.decideEnter; simp
@[simp] theorem Mod.runTimers_life (m : Mod) : (Mod.runTimers m).life = m.life := by unfold Mod.runTimers; simp
@[simp] theorem Mod.takeTimeout_life (m : Mod) (t : Nat) : (Mod.takeTimeout m t).life = m.life := by unfold Mod.takeTimeout; simp
@[simp] theorem Mod.takeGroup_life (m : Mod) (t g : Nat) : (Mod.takeGroup m t g).life = m.life := by unfold Mod.takeGroup; simp
@[simp] theorem Mod.takeDuration_life (m : Mod) (t : Nat) : (Mod.takeDuration m t).life = m.life := by unfold Mod.takeDuration; simp
@[simp] theorem Mod.chooseExit_life (m : Mod) (t : Nat) (fault qa qb : Bool) : (Mod.chooseExit m t fault qa qb).life = m.life := by unfold Mod.chooseExit; simp
@[simp] theorem Mod.evalGroups_life (m w : Mod) (t : Nat) (fault : Bool) : (Mod.evalGroups m w t fault).life = m.life := by unfold Mod.evalGroups; simp
@[simp] theorem Mod.enterFirst_life (m : Mod) (t : Nat) : (Mod.enterFirst m t).life = m.life := by unfold Mod.enterFirst; simp
@[simp] theorem Mod.evalTrack_life (m w : Mod) (t : Nat) : (Mod.evalTrack m w t).life = m.life := by
  (unfold Mod.evalTrack; dsimp only []; repeat' (first | with_reducible rfl | assumption | (refine (over_life _ _ _ (fun _ _ => ?_)).trans ?_) | (refine ite_life _ _ _ _ ?_ ?_) | split | (simp; done)))
@[simp] theorem Mod.evalTracks_life (m : Mod) : (Mod.evalTracks m).life = m.life := by
  (unfold Mod.evalTracks; dsimp only []; repeat' (first | with_reducible rfl | assumption | (refine (over_life _ _ _ (fun _ _ => ?_)).trans ?_) | (refine ite_life _ _ _ _ ?_ ?_) | split | (simp; done)))
@[simp] theorem Mod.evalNow_life (m : Mod) (t : Nat) : (Mod.evalNow m t).life = m.life := by unfold Mod.evalNow; simp
@[simp] theorem Mod.durationExit_life (m : Mod) (t : Nat) : (Mod.durationExit m t).life = m.life := by unfold Mod.durationExit; simp
@[simp] theorem Mod.timeoutExit_life (m : Mod) (t : Nat) : (Mod.timeoutExit m t).life = m.life := by unfold Mod.timeoutExit; simp
@[simp] theorem Mod.dwellEnd_life (m : Mod) (t : Nat) : (Mod.dwellEnd m t).life = m.life := by
  (unfold Mod.dwellEnd; dsimp only []; repeat' (first | with_reducible rfl | assumption | (refine (over_life _ _ _ (fun _ _ => ?_)).trans ?_) | (refine ite_life _ _ _ _ ?_ ?_) | split | (simp; done)))
@[simp] theorem Mod.settleExit_life (m : Mod) (t : Nat) : (Mod.settleExit m t).life = m.life := by unfold Mod.settleExit; simp
@[simp] theorem Mod.lateWake_life (m : Mod) (t : Nat) : (Mod.lateWake m t).life = m.life := by
  (unfold Mod.lateWake; dsimp only []; repeat' (first | with_reducible rfl | assumption | (refine (over_life _ _ _ (fun _ _ => ?_)).trans ?_) | (refine ite_life _ _ _ _ ?_ ?_) | split | (simp; done)))
@[simp] theorem Mod.wokenEntry_life (m : Mod) (t : Nat) : (Mod.wokenEntry m t).life = m.life := by
  (unfold Mod.wokenEntry; dsimp only []; repeat' (first | with_reducible rfl | assumption | (refine (over_life _ _ _ (fun _ _ => ?_)).trans ?_) | (refine ite_life _ _ _ _ ?_ ?_) | split | (simp; done)))
@[simp] theorem Mod.wakeCheck_life (m : Mod) : (Mod.wakeCheck m).life = m.life := by unfold Mod.wakeCheck; simp
@[simp] theorem Mod.setDo_life (m : Mod) (who o v : Nat) : (Mod.setDo m who o v).life = m.life := by unfold Mod.setDo; simp
@[simp] theorem Mod.applyPattern_life (m : Mod) (b : Bank) (who pat : Nat) : (Mod.applyPattern m b who pat).life = m.life := by unfold Mod.applyPattern; simp
@[simp] theorem Mod.refuseAction_life (m : Mod) (t step idx op : Nat) : (Mod.refuseAction m t step idx op).life = m.life := by unfold Mod.refuseAction; simp
@[simp] theorem Mod.applySet_life (m : Mod) (b : Bank) (who t step set : Nat) : (Mod.applySet m b who t step set).life = m.life := by
  (unfold Mod.applySet; dsimp only []; repeat' (first | with_reducible rfl | assumption | (refine (over_life _ _ _ (fun _ _ => ?_)).trans ?_) | (refine ite_life _ _ _ _ ?_ ?_) | split | (simp; done)))
@[simp] theorem Mod.request_life (m : Mod) (t p : Nat) (on : Bool) : (Mod.request m t p on).life = m.life := by unfold Mod.request; simp
theorem Mod.outAction_life (m m' : Mod) (who op tgt v : Nat) : m.outAction who op tgt v = some m' → m'.life = m.life := by
  intro h; revert h; unfold Mod.outAction
  (repeat' split) <;> intro h <;> (first | (cases h; done) | (cases h; simp; done)  | (simp only [] at h; (repeat' split at h) <;> (first | (cases h; done) | (cases h; simp; done) )))
theorem Mod.loopAction_life (m m' : Mod) (who op tgt v : Nat) : m.loopAction who op tgt v = some m' → m'.life = m.life := by
  intro h; revert h; unfold Mod.loopAction
  (repeat' split) <;> intro h <;> (first | (cases h; done) | (cases h; simp; done)  | (simp only [] at h; (repeat' split at h) <;> (first | (cases h; done) | (cases h; simp; done) )))
theorem Mod.tpoAction_life (m m' : Mod) (k treads : Nat) (e : Tread) : m.tpoAction k treads e = some m' → m'.life = m.life := by
  intro h; revert h; unfold Mod.tpoAction
  (repeat' split) <;> intro h <;> (first | (cases h; done) | (cases h; simp; done)  | (simp only [] at h; (repeat' split at h) <;> (first | (cases h; done) | (cases h; simp; done) )))
theorem Mod.plainAction_life (m m' : Mod) (who t step op tgt v : Nat) (e : Tread) : m.plainAction who t step op tgt v e = some m' → m'.life = m.life := by
  intro h; revert h; unfold Mod.plainAction
  (repeat' split) <;> intro h <;> (first | (cases h; done) | (cases h; simp; done) | exact Mod.tpoAction_life _ _ _ _ _ h | (simp only [] at h; (repeat' split at h) <;> (first | (cases h; done) | (cases h; simp; done) | exact Mod.tpoAction_life _ _ _ _ _ h)))
theorem Mod.simpleAction_life (m m' : Mod) (who t step op tgt v : Nat) (e : Tread) : m.simpleAction who t step op tgt v e = some m' → m'.life = m.life := by
  intro h; revert h; unfold Mod.simpleAction
  (repeat' split) <;> intro h <;> (first | (cases h; done) | (cases h; simp; done) | exact Mod.outAction_life _ _ _ _ _ _ h | exact Mod.loopAction_life _ _ _ _ _ _ h | exact Mod.plainAction_life _ _ _ _ _ _ _ _ _ h | (simp only [] at h; (repeat' split at h) <;> (first | (cases h; done) | (cases h; simp; done) | exact Mod.outAction_life _ _ _ _ _ _ h | exact Mod.loopAction_life _ _ _ _ _ _ h | exact Mod.plainAction_life _ _ _ _ _ _ _ _ _ h)))
theorem Mod.axisAction_life (m m' : Mod) (op tgt v : Nat) : m.axisAction op tgt v = some m' → m'.life = m.life := by
  intro h; revert h; unfold Mod.axisAction
  (repeat' split) <;> intro h <;> (first | (cases h; done) | (cases h; simp; done)  | (simp only [] at h; (repeat' split at h) <;> (first | (cases h; done) | (cases h; simp; done) )))
@[simp] theorem Mod.axisActions_life (m : Mod) (t : Nat) (idxs : List Nat) : (Mod.axisActions m t idxs).life = m.life := by
  unfold Mod.axisActions
  refine over_life _ _ _ (fun m i => ?_)
  extract_lets e
  split
  · rfl
  · split
    · rename_i m1 h
      split at h
      · exact Mod.axisAction_life _ _ _ _ _ h
      · cases h
    · rfl
@[simp] theorem Mod.landingStops_life (m : Mod) (b : Bank) (l : Nat) : (Mod.landingStops m b l).life = m.life := by unfold Mod.landingStops; simp
@[simp] theorem Mod.landingEffects_life (m : Mod) (b : Bank) (t step l : Nat) (axes : Bool) : (Mod.landingEffects m b t step l axes).life = m.life := by
  unfold Mod.landingEffects
  extract_lets e who m1 m2 m3 m4
  have h2 : m2.life = m.life := by simp [m2, m1]
  have h3 : m3.life = m.life := by
    refine (over_life _ _ _ (fun m i => ?_)).trans h2
    extract_lets a op r
    split
    · rfl
    · have h : ∀ m', r = some m' → m'.life = m.life := by
        intro m' h
        simp only [r] at h
        split at h
        · cases h
        · split at h
          · exact Mod.axisAction_life _ _ _ _ _ h
          · exact Mod.simpleAction_life _ _ _ _ _ _ _ _ _ h
      clear_value r
      cases r with
      | none => simp
      | some m' => exact h m' rfl
  have h4 : m4.life = m.life := by simp only [m4]; split <;> simp [h3]
  simp [h4]
@[simp] theorem Mod.setTrackState_life (m : Mod) (t new cmd : Nat) : (Mod.setTrackState m t new cmd).life = m.life := by unfold Mod.setTrackState; simp
@[simp] theorem Mod.notify_life (m : Mod) (a code : Nat) (data : List Nat) : (Mod.notify m a code data).life = m.life := by unfold Mod.notify; simp
@[simp] theorem Mod.becomeLanded_life (m : Mod) (t l cause cmd : Nat) (ok : Bool) : (Mod.becomeLanded m t l cause cmd ok).life = m.life := by unfold Mod.becomeLanded; simp
@[simp] theorem Mod.landLater_life (m : Mod) (t l : Nat) : (Mod.landLater m t l).life = m.life := by unfold Mod.landLater; simp
@[simp] theorem Mod.landNow_life (m : Mod) (t cause cmd : Nat) : (Mod.landNow m t cause cmd).life = m.life := by unfold Mod.landNow; simp
@[simp] theorem Mod.startTrack_life (m : Mod) (t entry owner cmd : Nat) : (Mod.startTrack m t entry owner cmd).life = m.life := by unfold Mod.startTrack; simp
@[simp] theorem Mod.clearTrack_life (m : Mod) (t : Nat) : (Mod.clearTrack m t).life = m.life := by unfold Mod.clearTrack; simp
@[simp] theorem Mod.command_life (m : Mod) (t code entry a : Nat) : (Mod.command m t code entry a).life = m.life := by
  (unfold Mod.command; repeat' split) <;> (first | with_reducible rfl | simp)
@[simp] theorem Mod.countBlock_life (m : Mod) (s : Nat) (z : StreamSt) (base : Nat) : (Mod.countBlock m s z base).life = m.life := by
  unfold Mod.countBlock; simp
@[simp] theorem Mod.drainBlock_life (m : Mod) (s : Nat) (v : StreamSt) (b : Block) (used : Bool) : (Mod.drainBlock m s v b used).life = m.life := by
  (unfold Mod.drainBlock; split) <;> simp
@[simp] theorem Mod.closeBlock_life (m : Mod) (s : Nat) (last : Tread) (capLast : Bool) : (Mod.closeBlock m s last capLast).life = m.life := by
  unfold Mod.closeBlock
  extract_lets
  split
  · rfl
  · extract_lets
    split
    · rfl
    · exact (Mod.drainBlock_life _ _ _ _ _).trans (Mod.countBlock_life _ _ _ _)
@[simp] theorem Mod.blockClose_life (m : Mod) (s : Nat) : (Mod.blockClose m s).life = m.life := by
  (unfold Mod.blockClose; repeat' split) <;> (first | with_reducible rfl | simp)
@[simp] theorem Mod.noteRing_life (m : Mod) (s : Nat) (v : StreamSt) (b : Block) (n : Nat) : (Mod.noteRing m s v b n).life = m.life := by
  unfold Mod.noteRing; simp
@[simp] theorem Mod.noteGap_life (m : Mod) (b : Block) : (Mod.noteGap m b).life = m.life := by
  (unfold Mod.noteGap; split) <;> simp
@[simp] theorem Mod.writeDrain_life (m : Mod) (s : Nat) : (Mod.writeDrain m s).life = m.life := by
  unfold Mod.writeDrain
  extract_lets
  split
  · rfl
  · exact ((Mod.noteGap_life _ _).trans (Mod.noteRing_life _ _ _ _ _)).trans (Mod.setRecord_life _ _)
@[simp] theorem Mod.ringWrite_life (m : Mod) (s : Nat) : (Mod.ringWrite m s).life = m.life := by
  (unfold Mod.ringWrite; repeat' split) <;> (first | with_reducible rfl | simp)
@[simp] theorem Mod.closeDown_life (m : Mod) (s : Nat) (last : Tread) (capLast : Bool) (n : Nat) :
    (m.closeDown s last capLast n).life = m.life := by
  induction n generalizing m with
  | zero => rfl
  | succ n ih =>
    unfold Mod.closeDown
    extract_lets m1
    split
    · simp [m1]
    · split
      · simp [m1]
      · rw [ih]; simp [m1]
@[simp] theorem Mod.endStream_life (m : Mod) (s : Nat) (last : Tread) (capLast : Bool) : (Mod.endStream m s last capLast).life = m.life := by
  unfold Mod.endStream; extract_lets m1; simp [m1]
@[simp] theorem Mod.disableStream_life (m : Mod) (s : Nat) : (Mod.disableStream m s).life = m.life := by unfold Mod.disableStream; simp
@[simp] theorem Mod.drainPackets_life (m : Mod) (s kind : Nat) (l : List (List Nat × Option Tread)) : (Mod.drainPackets m s kind l).life = m.life := by
  unfold Mod.drainPackets
  refine over_life _ _ _ (fun m p => ?_)
  split
  · split
    · rfl
    · extract_lets m1 r1 m2
      have h1 : m1.life = m.life := by simp [m1]
      have h2 : m2.life = m.life := by simp only [m2]; split <;> simp [h1]
      simp [h2]
  · split
    · split
      · exact over_life _ _ _ (fun m w => by simp)
      · simp
    · rfl
@[simp] theorem Mod.drainChains_life (m : Mod) : (Mod.drainChains m).life = m.life := by unfold Mod.drainChains; simp
@[simp] theorem Mod.keepMap_life (m : Mod) (s : Nat) (first : Tread) : (Mod.keepMap m s first).life = m.life := by unfold Mod.keepMap; simp
@[simp] theorem Mod.remap_life (m : Mod) (k id : Nat) : (Mod.remap m k id).life = m.life := by
  unfold Mod.remap
  extract_lets old m1
  have h1 : m1.life = m.life := by simp only [m1]; split <;> simp
  simp [h1]
@[simp] theorem Mod.mapPass_life (m : Mod) : (Mod.mapPass m).life = m.life := by
  unfold Mod.mapPass
  refine over_life _ _ _ (fun m s => ?_)
  split
  · rfl
  · split
    · rfl
    · extract_lets z m1 m2 m3
      have h1 : m1.life = m.life := by simp [m1]
      have h2 : m2.life = m.life := by simp [m2, h1]
      have h3 : m3.life = m.life := by simp only [m3]; split <;> simp [h2]
      simp [h3]
@[simp] theorem Mod.firstMap_life (m : Mod) (s : Nat) (t : Tread) : (Mod.firstMap m s t).life = m.life := by unfold Mod.firstMap; simp
@[simp] theorem Mod.newMaps_life (m : Mod) (t : Tread) : (Mod.newMaps m t).life = m.life := by
  (unfold Mod.newMaps; dsimp only []; repeat' (first | with_reducible rfl | assumption | (refine (over_life _ _ _ (fun _ _ => ?_)).trans ?_) | (refine ite_life _ _ _ _ ?_ ?_) | split | (simp; done)))
@[simp] theorem Mod.openBlock_life (m : Mod) (s : Nat) (t : Tread) : (Mod.openBlock m s t).life = m.life := by unfold Mod.openBlock; simp
@[simp] theorem Mod.openStreams_life (m : Mod) (t : Tread) : (Mod.openStreams m t).life = m.life := by unfold Mod.openStreams; simp
@[simp] theorem Mod.haltStreams_life (m : Mod) (last : Tread) (cause : Nat) : (Mod.haltStreams m last cause).life = m.life := by unfold Mod.haltStreams; simp
@[simp] theorem Mod.loseStreams_life (m : Mod) : (Mod.loseStreams m).life = m.life := by unfold Mod.loseStreams; simp
@[simp] theorem Mod.dpFrame_life (m : Mod) (kind segment seq : Nat) (body : List Nat) : (Mod.dpFrame m kind segment seq body).life = m.life := by unfold Mod.dpFrame; simp
@[simp] theorem Mod.sendBlock_life (m : Mod) (n bytes : Nat) : (Mod.sendBlock m n bytes).life = m.life := by
  (unfold Mod.sendBlock; repeat' split) <;> (first | with_reducible rfl | simp)
@[simp] theorem Mod.dpSend_life (m : Mod) : (Mod.dpSend m).life = m.life := by
  unfold Mod.dpSend
  split
  · rfl
  extract_lets a1 a2 a3 a4 a5 a6 a7 a8
  have h : a7.life = m.life := by
    simp only [a7]
    split
    · simp [a5]
    · rfl
  clear_value a7
  split <;> simp [h]
@[simp] theorem Mod.dpStatus_life (m : Mod) : (Mod.dpStatus m).life = m.life := by unfold Mod.dpStatus; simp
@[simp] theorem Mod.pauseFrame_life (m : Mod) (quanta : Nat) : (Mod.pauseFrame m quanta).life = m.life := by unfold Mod.pauseFrame; simp
@[simp] theorem Mod.dpStart_life (m : Mod) : (Mod.dpStart m).life = m.life := by unfold Mod.dpStart; simp
@[simp] theorem Mod.openCapture_life (m : Mod) (k off : Nat) : (Mod.openCapture m k off).life = m.life := by unfold Mod.openCapture; simp
@[simp] theorem Mod.trigNext_life (m : Mod) (k : Nat) : (Mod.trigNext m k).life = m.life := by
  (unfold Mod.trigNext; repeat' split) <;> (first | with_reducible rfl | simp)
@[simp] theorem Mod.fireConverters_life (m : Mod) (k off : Nat) : (Mod.fireConverters m k off).life = m.life := by unfold Mod.fireConverters; simp
@[simp] theorem Mod.openFire_life (m : Mod) (k place : Nat) : (Mod.openFire m k place).life = m.life := by unfold Mod.openFire; simp
@[simp] theorem Mod.openFires_life (m : Mod) : (Mod.openFires m).life = m.life := by unfold Mod.openFires; simp
@[simp] theorem Mod.fireTrigger_life (m : Mod) (k off : Nat) (raw : Bool) : (Mod.fireTrigger m k off raw).life = m.life := by unfold Mod.fireTrigger; simp
@[simp] theorem Mod.triggerFire_life (m : Mod) (k off : Nat) (raw : Option Int) (falling : Bool) : (Mod.triggerFire m k off raw falling).life = m.life := by unfold Mod.triggerFire; simp
@[simp] theorem Mod.triggerArm_life (m : Mod) (k v : Nat) : (Mod.triggerArm m k v).life = m.life := by unfold Mod.triggerArm; simp
@[simp] theorem Mod.holdOffEnd_life (m : Mod) (k : Nat) : (Mod.holdOffEnd m k).life = m.life := by unfold Mod.holdOffEnd; simp
@[simp] theorem Mod.windowClose_life (m : Mod) (k : Nat) : (Mod.windowClose m k).life = m.life := by
  (unfold Mod.windowClose; repeat' split) <;> (first | with_reducible rfl | simp)
@[simp] theorem Mod.trigPass_life (m : Mod) : (Mod.trigPass m).life = m.life := by unfold Mod.trigPass; simp
@[simp] theorem Mod.recordLoops_life (m : Mod) : (Mod.recordLoops m).life = m.life := by
  unfold Mod.recordLoops
  refine over_life _ _ _ (fun m p => ?_)
  split
  · split <;> simp
  · rfl
@[simp] theorem Mod.pairEvent_life (m : Mod) (side k code event : Nat) : (Mod.pairEvent m side k code event).life = m.life := by unfold Mod.pairEvent; simp
@[simp] theorem Mod.cutPass_life (m : Mod) : (Mod.cutPass m).life = m.life := by unfold Mod.cutPass; simp
@[simp] theorem Mod.allOff_life (m : Mod) : (Mod.allOff m).life = m.life := by
  unfold Mod.allOff; exact over_life _ _ _ (fun m p => by split <;> simp)
@[simp] theorem Mod.inputFault_life (m : Mod) (k ch code : Nat) : (Mod.inputFault m k ch code).life = m.life := by unfold Mod.inputFault; simp
@[simp] theorem Mod.latchOut_life (m : Mod) (p code event : Nat) : (Mod.latchOut m p code event).life = m.life := by unfold Mod.latchOut; simp
@[simp] theorem Mod.failsOn_life (m : Mod) (p ch : Nat) : (Mod.failsOn m p ch).life = m.life := by unfold Mod.failsOn; simp
@[simp] theorem Mod.failsOff_life (m : Mod) (p ch : Nat) : (Mod.failsOff m p ch).life = m.life := by unfold Mod.failsOff; simp
@[simp] theorem Mod.windowExpiry_life (m : Mod) (side k : Nat) : (Mod.windowExpiry m side k).life = m.life := by unfold Mod.windowExpiry; simp
@[simp] theorem Mod.discrepancyFault_life (m : Mod) (k : Nat) : (Mod.discrepancyFault m k).life = m.life := by unfold Mod.discrepancyFault; simp
@[simp] theorem Mod.judgePair_life (m : Mod) (k : Nat) : (Mod.judgePair m k).life = m.life := by unfold Mod.judgePair; simp
@[simp] theorem Mod.cycleIn_life (m : Mod) (chans : List (Nat × ChanIn)) (k : Nat) : (Mod.cycleIn m chans k).life = m.life := by unfold Mod.cycleIn; simp
@[simp] theorem Mod.readOut_life (m : Mod) (rb : List (Nat × Bool)) (p : Nat) : (Mod.readOut m rb p).life = m.life := by unfold Mod.readOut; simp
@[simp] theorem Mod.cycleOut_life (m : Mod) (rb : List (Nat × Bool)) (p : Nat) : (Mod.cycleOut m rb p).life = m.life := by unfold Mod.cycleOut; simp
@[simp] theorem Mod.safeStop_life (m : Mod) : (Mod.safeStop m).life = m.life := by unfold Mod.safeStop; simp
@[simp] theorem Mod.cycleIns_life (m : Mod) (chans : List (Nat × ChanIn)) : (Mod.cycleIns m chans).life = m.life := by
  unfold Mod.cycleIns; exact over_life _ _ _ (fun m p => by simp)
@[simp] theorem Mod.cycleOuts_life (m : Mod) (rb : List (Nat × Bool)) : (Mod.cycleOuts m rb).life = m.life := by
  unfold Mod.cycleOuts; exact over_life _ _ _ (fun m p => by simp)
@[simp] theorem Mod.safetyCycle_life (m0 : Mod) (i : SafetyIn) : (Mod.safetyCycle m0 i).life = m0.life := by unfold Mod.safetyCycle; simp
@[simp] theorem Mod.offDelayExpiry_life (m : Mod) (p : Nat) : (Mod.offDelayExpiry m p).life = m.life := by unfold Mod.offDelayExpiry; simp
@[simp] theorem Mod.safetyDebounce_life (m : Mod) (k ch : Nat) : (Mod.safetyDebounce m k ch).life = m.life := by
  (unfold Mod.safetyDebounce; dsimp only []; repeat' (first | with_reducible rfl | assumption | (refine (over_life _ _ _ (fun _ _ => ?_)).trans ?_) | (refine ite_life _ _ _ _ ?_ ?_) | split | (simp; done)))
@[simp] theorem Mod.safeDark_life (m : Mod) (p ch : Nat) (fell : Option Nat) : (Mod.safeDark m p ch fell).life = m.life := by
  unfold Mod.safeDark
  extract_lets s cyc pass sw m0 m1 z m2
  have h0 : m0.life = m.life := rfl
  have h2 : m2.life = m.life := by simp only [m2]; simp [m1]
  clear_value m2 m0
  (repeat' split) <;> simp [h2, h0]
@[simp] theorem Mod.logicLoss_life (m : Mod) : (Mod.logicLoss m).life = m.life := by unfold Mod.logicLoss; simp
@[simp] theorem Mod.restartPair_life (m : Mod) (p : Nat) : (Mod.restartPair m p).life = m.life := by unfold Mod.restartPair; simp
@[simp] theorem Mod.faultResetDo_life (m : Mod) (side k : Nat) : (Mod.faultResetDo m side k).life = m.life := by unfold Mod.faultResetDo; simp
@[simp] theorem Mod.arm_life (m : Mod) (a : Nat) : (Mod.arm m a).life = m.life := by unfold Mod.arm; simp
@[simp] theorem Mod.disarm_life (m : Mod) : (Mod.disarm m).life = m.life := by unfold Mod.disarm; simp
@[simp] theorem Mod.safetyReset_life (m : Mod) : (Mod.safetyReset m).life = m.life := by unfold Mod.safetyReset; simp
@[simp] theorem Mod.domainRuns_life (m : Mod) : (Mod.domainRuns m).life = m.life := by unfold Mod.domainRuns; simp
@[simp] theorem Mod.armTimeout_life (m : Mod) : (Mod.armTimeout m).life = m.life := by
  (unfold Mod.armTimeout; repeat' split) <;> (first | with_reducible rfl | simp)
@[simp] theorem Mod.storePending_life (m : Mod) : (Mod.storePending m).life = m.life := by unfold Mod.storePending; simp
@[simp] theorem Mod.powerSafety_life (m : Mod) (activeOk pendingOk : Bool) : (Mod.powerSafety m activeOk pendingOk).life = m.life := by unfold Mod.powerSafety; simp
@[simp] theorem Mod.setJournal_life (m : Mod) (j : JournalSt) : (Mod.setJournal m j).life = m.life := by unfold Mod.setJournal; simp
@[simp] theorem Mod.setReset_life (m : Mod) (r : ResetSt) : (Mod.setReset m r).life = m.life := by unfold Mod.setReset; simp
@[simp] theorem Mod.endFlight_life (m : Mod) (asStands : Mod) : (Mod.endFlight m asStands).life = m.life := by unfold Mod.endFlight; simp
@[simp] theorem Mod.startCheckpoint_life (m : Mod) (f : Nat) (requested : Bool) : (Mod.startCheckpoint m f requested).life = m.life := by
  (unfold Mod.startCheckpoint; dsimp only []; repeat' (first | with_reducible rfl | assumption | (refine (over_life _ _ _ (fun _ _ => ?_)).trans ?_) | (refine ite_life _ _ _ _ ?_ ?_) | split | (simp; done)))
@[simp] theorem Mod.completeCheckpoint_life (m : Mod) : (Mod.completeCheckpoint m).life = m.life := by
  (unfold Mod.completeCheckpoint; dsimp only []; repeat' (first | with_reducible rfl | assumption | (refine (over_life _ _ _ (fun _ _ => ?_)).trans ?_) | (refine ite_life _ _ _ _ ?_ ?_) | split | (simp; done)))
@[simp] theorem Mod.enterDelta_life (m : Mod) (k v : Nat) : (Mod.enterDelta m k v).life = m.life := by unfold Mod.enterDelta; simp
@[simp] theorem Mod.writeCopy_life (m : Mod) : (Mod.writeCopy m).life = m.life := by unfold Mod.writeCopy; simp
@[simp] theorem Mod.restorePool_life (m : Mod) : (Mod.restorePool m).life = m.life := by
  (unfold Mod.restorePool; dsimp only []; repeat' (first | with_reducible rfl | assumption | (refine (over_life _ _ _ (fun _ _ => ?_)).trans ?_) | (refine ite_life _ _ _ _ ?_ ?_) | split | (simp; done)))
@[simp] theorem Mod.freeTokens_life (m : Mod) : (Mod.freeTokens m).life = m.life := by unfold Mod.freeTokens; simp
@[simp] theorem Mod.cutLoads_life (m : Mod) : (Mod.cutLoads m).life = m.life := by unfold Mod.cutLoads; simp
@[simp] theorem Mod.dropLogic_life (m : Mod) : (Mod.dropLogic m).life = m.life := by
  unfold Mod.dropLogic
  extract_lets a1 a2 a3
  have h1 : a1.life = m.life := by simp [a1]
  have h2 : a2.life = m.life := (over_life _ _ _ (fun m s => by split <;> simp)).trans h1
  have h3 : a3.life = m.life := by simp [a3, h2]
  clear_value a3
  exact h3
@[simp] theorem Mod.endStandby_life (m : Mod) : (Mod.endStandby m).life = m.life := by unfold Mod.endStandby; simp
@[simp] theorem Mod.pfailFall_life (m : Mod) (us : Nat) : (Mod.pfailFall m us).life = m.life := by unfold Mod.pfailFall; simp
@[simp] theorem Mod.pfailRise_life (m : Mod) (us : Nat) : (Mod.pfailRise m us).life = m.life := by
  (unfold Mod.pfailRise; repeat' split) <;> (first | with_reducible rfl | simp)
@[simp] theorem Mod.countTiles_life (m : Mod) : (Mod.countTiles m).life = m.life := by unfold Mod.countTiles; simp
@[simp] theorem Mod.tileMaps_life (m : Mod) (tile : Nat) (t : Tread) : (Mod.tileMaps m tile t).life = m.life := by unfold Mod.tileMaps; simp
@[simp] theorem Mod.linkMap_life (m : Mod) (tile : Nat) (t : Tread) : (Mod.linkMap m tile t).life = m.life := by unfold Mod.linkMap; simp
@[simp] theorem Mod.sleepTile_life (m : Mod) (t : Nat) : (Mod.sleepTile m t).life = m.life := by unfold Mod.sleepTile; simp
@[simp] theorem Mod.gateTiles_life (m : Mod) (mask : Nat) : (Mod.gateTiles m mask).life = m.life := by unfold Mod.gateTiles; simp
@[simp] theorem Mod.gateEarly_life (m : Mod) : (Mod.gateEarly m).life = m.life := by unfold Mod.gateEarly; simp
@[simp] theorem Mod.gateLinks_life (m : Mod) : (Mod.gateLinks m).life = m.life := by unfold Mod.gateLinks; simp
@[simp] theorem Mod.wakePass_life (m : Mod) : (Mod.wakePass m).life = m.life := by unfold Mod.wakePass; simp
@[simp] theorem Mod.wakeTile_life (m : Mod) (t : Nat) : (Mod.wakeTile m t).life = m.life := by unfold Mod.wakeTile; simp
@[simp] theorem Mod.powerPass_life (m : Mod) : (Mod.powerPass m).life = m.life := by unfold Mod.powerPass; simp
@[simp] theorem Mod.portsDown_life (m : Mod) : (Mod.portsDown m).life = m.life := by unfold Mod.portsDown; simp
@[simp] theorem Mod.repeatImage_life (m : Mod) : (Mod.repeatImage m).life = m.life := by unfold Mod.repeatImage; simp
@[simp] theorem Mod.renewHall_life (m : Mod) (n : Tread) : (Mod.renewHall m n).life = m.life := by unfold Mod.renewHall; simp
@[simp] theorem Mod.wakeServices_life (m : Mod) : (Mod.wakeServices m).life = m.life := by unfold Mod.wakeServices; simp
@[simp] theorem Mod.writeRecord_life (m : Mod) (d : GalDue) : (Mod.writeRecord m d).life = m.life := by unfold Mod.writeRecord; simp
@[simp] theorem Mod.writeCounted_life (m : Mod) (d : GalDue) : (Mod.writeCounted m d).life = m.life := by unfold Mod.writeCounted; simp
@[simp] theorem Mod.galleryRecord_life (m : Mod) : (Mod.galleryRecord m).life = m.life := by
  (unfold Mod.galleryRecord; repeat' split) <;> (first | with_reducible rfl | simp)
@[simp] theorem Mod.setRoOf_life (m : Mod) (a idx sub v : Nat) : (Mod.setRoOf m a idx sub v).life = m.life := by unfold Mod.setRoOf; simp
@[simp] theorem Mod.grant_life (m : Mod) (a mask code : Nat) : (Mod.grant m a mask code).life = m.life := by
  unfold Mod.grant; generalize List.find? _ _ = o; cases o <;> simp
@[simp] theorem Mod.endGrant_life (m : Mod) (slot : Nat) : (Mod.endGrant m slot).life = m.life := by unfold Mod.endGrant; simp
@[simp] theorem Mod.freeLost_life (m : Mod) : (Mod.freeLost m).life = m.life := by unfold Mod.freeLost; simp
@[simp] theorem Mod.holderLeaves_life (m : Mod) (a : Nat) : (Mod.holderLeaves m a).life = m.life := by unfold Mod.holderLeaves; simp
@[simp] theorem Mod.galleryClear_life (m : Mod) (a role : Nat) : (Mod.galleryClear m a role).life = m.life := by unfold Mod.galleryClear; simp
@[simp] theorem Mod.galleryClearEnd_life (m : Mod) (snap : List Nat) : (Mod.galleryClearEnd m snap).life = m.life := by unfold Mod.galleryClearEnd; simp
@[simp] theorem Mod.validationEnd_life (m : Mod) : (Mod.validationEnd m).life = m.life := by unfold Mod.validationEnd; simp
@[simp] theorem Mod.startPulse_life (m : Mod) (o us : Nat) : (Mod.startPulse m o us).life = m.life := by unfold Mod.startPulse; simp
@[simp] theorem Mod.endPulse_life (m : Mod) (before after : Nat) : (Mod.endPulse m before after).life = m.life := by
  (unfold Mod.endPulse; repeat' split) <;> (first | with_reducible rfl | simp)
@[simp] theorem Mod.setFw_life (m : Mod) (f : FirmwareSt) : (Mod.setFw m f).life = m.life := by unfold Mod.setFw; simp
@[simp] theorem Mod.fwBegin_life (m : Mod) : (Mod.fwBegin m).life = m.life := by unfold Mod.fwBegin; simp
@[simp] theorem Mod.fwChunk_life (m : Mod) (len data : Nat) : (Mod.fwChunk m len data).life = m.life := by unfold Mod.fwChunk; simp
@[simp] theorem Mod.fwCancel_life (m : Mod) : (Mod.fwCancel m).life = m.life := by unfold Mod.fwCancel; simp
@[simp] theorem Mod.fwVerified_life (m : Mod) (orderOk formatOk : Bool) (version : Nat) : (Mod.fwVerified m orderOk formatOk version).life = m.life := by unfold Mod.fwVerified; simp
@[simp] theorem Mod.fwRecord_life (m : Mod) : (Mod.fwRecord m).life = m.life := by unfold Mod.fwRecord; simp
@[simp] theorem Mod.activate_life (m : Mod) : (Mod.activate m).life = m.life := by unfold Mod.activate; simp
@[simp] theorem Mod.runSlot_life (m : Mod) (slot : Nat) : (Mod.runSlot m slot).life = m.life := by unfold Mod.runSlot; simp
@[simp] theorem Mod.hkStart_life (m : Mod) : (Mod.hkStart m).life = m.life := by unfold Mod.hkStart; simp
@[simp] theorem Mod.confirmFw_life (m : Mod) : (Mod.confirmFw m).life = m.life := by unfold Mod.confirmFw; simp
@[simp] theorem Mod.trialTimeout_life (m : Mod) (failed : Bool) : (Mod.trialTimeout m failed).life = m.life := by
  (unfold Mod.trialTimeout; repeat' split) <;> (first | with_reducible rfl | simp)
@[simp] theorem Mod.enterBlock_life (m : Mod) (b : Nat) : (Mod.enterBlock m b).life = m.life := by unfold Mod.enterBlock; simp
@[simp] theorem Mod.blockReset_life (m : Mod) (mask : Nat) : (Mod.blockReset m mask).life = m.life := by unfold Mod.blockReset; simp
@[simp] theorem Mod.leaveBlock_life (m : Mod) (b : Nat) : (Mod.leaveBlock m b).life = m.life := by unfold Mod.leaveBlock; simp
@[simp] theorem Mod.setPartner_life (m : Mod) (a : Nat) (p : Partner) : (Mod.setPartner m a p).life = m.life := by unfold Mod.setPartner; simp
@[simp] theorem Mod.fillSnaps_life (m : Mod) : (Mod.fillSnaps m).life = m.life := by unfold Mod.fillSnaps; simp
@[simp] theorem Mod.overlay_life (m : Mod) (a : Nat) (e : Entry) : (Mod.overlay m a e).life = m.life := by unfold Mod.overlay; simp
@[simp] theorem Mod.overlayIn_life (m : Mod) (a : Nat) (e : Entry) (dead : Bool) (later : List Entry) : (Mod.overlayIn m a e dead later).life = m.life := by unfold Mod.overlayIn; simp
@[simp] theorem Mod.depart_life (m : Mod) (a why : Nat) (sealed_ : Tread) : (Mod.depart m a why sealed_).life = m.life := by
  (unfold Mod.depart; repeat' split) <;> (first | with_reducible rfl | simp)
@[simp] theorem Mod.send_life (m : Mod) (r : Reply) : (Mod.send m r).life = m.life := by
  (unfold Mod.send; repeat' split) <;> (first | with_reducible rfl | simp)
@[simp] theorem Mod.finalReply_life (m : Mod) (r : Reply) (journalled : Bool) : (Mod.finalReply m r journalled).life = m.life := by unfold Mod.finalReply; simp
@[simp] theorem Mod.releaseHeld_life (n : Nat) (m : Mod) : (Mod.releaseHeld n m).life = m.life := by
  induction n generalizing m with
  | zero => rfl
  | succ n ih =>
    unfold Mod.releaseHeld
    split
    · rw [ih]; simp
    · rfl
@[simp] theorem Mod.flush_life (m : Mod) : (Mod.flush m).life = m.life := by
  unfold Mod.flush; exact Mod.releaseHeld_life _ _
@[simp] theorem Mod.imageFailed_life (m : Mod) (a map status pos : Nat) : (Mod.imageFailed m a map status pos).life = m.life := by
  (unfold Mod.imageFailed; dsimp only []; repeat' (first | with_reducible rfl | assumption | (refine (over_life _ _ _ (fun _ _ => ?_)).trans ?_) | (refine ite_life _ _ _ _ ?_ ?_) | split | (simp; done)))
@[simp] theorem Mod.refuseIsolated_life (m : Mod) (sealed_ : Tread) : (Mod.refuseIsolated m sealed_).life = m.life := by
  unfold Mod.refuseIsolated
  extract_lets w r m1 m2
  have h2 : m2.life = m.life := by
    refine (over_life _ _ _ (fun m s => ?_)).trans rfl
    extract_lets pos
    split <;> simp
  rw [Mod.flush_life]
  exact (over_life _ _ _ (fun m s => by simp)).trans h2
@[simp] theorem Mod.loseSatellites_life (m : Mod) (a : Nat) : (Mod.loseSatellites m a).life = m.life := by unfold Mod.loseSatellites; simp
@[simp] theorem Mod.leaveHall_life (m : Mod) (a : Nat) : (Mod.leaveHall m a).life = m.life := by unfold Mod.leaveHall; simp
@[simp] theorem Mod.canJoin_life (m : Mod) (p : Nat) : (Mod.canJoin m p).life = m.life := by
  (unfold Mod.canJoin; repeat' split) <;> (first | with_reducible rfl | simp)
@[simp] theorem Mod.canLeave_life (m : Mod) (p : Nat) : (Mod.canLeave m p).life = m.life := by unfold Mod.canLeave; simp
@[simp] theorem Mod.canService_life (m : Mod) (p v : Nat) : (Mod.canService m p v).life = m.life := by
  (unfold Mod.canService; dsimp only []; repeat' (first | with_reducible rfl | assumption | (refine (over_life _ _ _ (fun _ _ => ?_)).trans ?_) | (refine ite_life _ _ _ _ ?_ ?_) | split | (simp; done)))
@[simp] theorem Mod.store_life (m : Mod) (who a : Nat) (e : Entry) : (Mod.store m who a e).life = m.life := by unfold Mod.store; simp
@[simp] theorem Mod.warnHold_life (m : Mod) : (Mod.warnHold m).life = m.life := by unfold Mod.warnHold; simp
@[simp] theorem Mod.writeTable_life (m : Mod) (who j data : Nat) : (Mod.writeTable m who j data).life = m.life := by unfold Mod.writeTable; simp
@[simp] theorem Mod.actLoop_life (m : Mod) (who a : Nat) (e : Entry) (p : Place) (later : List Entry) : (Mod.actLoop m who a e p later).life = m.life := by
  (unfold Mod.actLoop; repeat' split) <;> (first | with_reducible rfl | simp)
@[simp] theorem Mod.actField_life (m : Mod) (who a : Nat) (e : Entry) (p : Place) : (Mod.actField m who a e p).life = m.life := by
  (unfold Mod.actField; repeat' split) <;> (first | with_reducible rfl | simp)
@[simp] theorem Mod.actSafety_life (m : Mod) (who a : Nat) (e : Entry) (p : Place) : (Mod.actSafety m who a e p).life = m.life := by
  (unfold Mod.actSafety; repeat' split) <;> (first | with_reducible rfl | simp)
@[simp] theorem Mod.actCan_life (m : Mod) (who a : Nat) (e : Entry) (p : Place) : (Mod.actCan m who a e p).life = m.life := by
  (unfold Mod.actCan; repeat' split) <;> (first | with_reducible rfl | simp)
@[simp] theorem Mod.actRecord_life (m : Mod) (who a : Nat) (e : Entry) (p : Place) : (Mod.actRecord m who a e p).life = m.life := by
  (unfold Mod.actRecord; repeat' split) <;> (first | with_reducible rfl | simp)
@[simp] theorem Mod.swapNow_life (m : Mod) : (Mod.swapNow m).life = m.life := by unfold Mod.swapNow; simp
@[simp] theorem Mod.actStair_life (m : Mod) (who a : Nat) (e : Entry) (p : Place) (all later : List Entry) : (Mod.actStair m who a e p all later).life = m.life := by
  (unfold Mod.actStair; repeat' split) <;> (first | with_reducible rfl | simp)
@[simp] theorem Mod.actService_life (m : Mod) (who a : Nat) (e : Entry) (p : Place) : (Mod.actService m who a e p).life = m.life := by
  unfold Mod.actService
  extract_lets v m1
  have h : m1.life = m.life := by simp [m1]
  clear_value m1 v
  cases p.fam <;> simp only <;> (repeat' split) <;> simp [h]
@[simp] theorem Mod.actHouse_life (m : Mod) (who a : Nat) (e : Entry) (p : Place) : (Mod.actHouse m who a e p).life = m.life := by
  (unfold Mod.actHouse; repeat' split) <;> (first | with_reducible rfl | simp)
@[simp] theorem Mod.commitEntry_life (m : Mod) (who a : Nat) (e : Entry) (all later : List Entry) : (Mod.commitEntry m who a e all later).life = m.life := by
  unfold Mod.commitEntry
  split
  · rfl
  · rename_i p _
    cases p.fam <;> simp
@[simp] theorem Mod.applyEntries_life (m : Mod) (who a : Nat) (all pend l : List Entry) :
    (m.applyEntries who a all pend l).life = m.life := by
  induction l generalizing m with
  | nil => rfl
  | cons e l ih => unfold Mod.applyEntries; rw [ih]; simp
@[simp] theorem Chk.noteRefusal_life (c : Chk) (status : Nat) (m : Mod) : (Chk.noteRefusal c status m).life = m.life := by
  (unfold Chk.noteRefusal; repeat' split) <;> (first | with_reducible rfl | simp)
@[simp] theorem Mod.commitCommand_life (m : Mod) (who : Nat) (s : Staged) (e : Entry) (dead : Bool) : (Mod.commitCommand m who s e dead).1.life = m.life := by
  unfold Mod.commitCommand
  extract_lets t code st m1
  have h : m1.life = m.life := by simp [m1]
  clear_value m1 st
  split
  · rfl
  · split; (· exact h); split <;> simp [h]
@[simp] theorem Mod.commitEntries_life (m : Mod) (who a : Nat) (all : List Entry) (dead : Nat → Bool) (ks : List Nat) :
    (m.commitEntries who a all dead ks).life = m.life := by
  unfold Mod.commitEntries; extract_lets live m1; split <;> simp [m1]
@[simp] theorem Mod.commitTxn_life (m : Mod) (who : Nat) (s : Staged) (dead : Nat → Bool) (remote : Bool) : (Mod.commitTxn m who s dead remote).1.life = m.life := by
  unfold Mod.commitTxn
  split
  · rfl
  · extract_lets bad ks
    split
    · rfl
    · split
      · rfl
      · clear_value bad
        cases bad with
        | some x => simp
        | none =>
          dsimp only []
          split <;> simp
@[simp] theorem Mod.commitFrom_life (m : Mod) (barred : List (Nat × Nat)) (failed : List Nat) (i : Nat) (l : List Staged) :
    (m.commitFrom barred failed i l).1.life = m.life := by
  induction l generalizing m i with
  | nil => rfl
  | cons s l ih => unfold Mod.commitFrom; extract_lets after remote r; rw [ih]; simp only [r]; split <;> simp
theorem Mod.settle_life (m : Mod) (after : Mod → Mod) (h : ∀ m, (after m).life = m.life) (set : List Staged) (n : Nat)
    (barred : List (Nat × Nat)) (failed : List Nat) : (m.settle after set n barred failed).1.life = m.life := by
  induction n generalizing barred failed with
  | zero => unfold Mod.settle; simp [h]
  | succ n ih =>
    unfold Mod.settle
    extract_lets r now e
    split
    · split
      · exact ih _ _
      · simp [e, r, h]
    · exact ih _ _
theorem Mod.commitSealed_life (m : Mod) (after : Mod → Mod) (h : ∀ m, (after m).life = m.life) :
    (m.commitSealed after).1.life = m.life := by
  unfold Mod.commitSealed; exact Mod.settle_life _ _ h _ _ _ _
@[simp] theorem Mod.answer_life (m : Mod) (keysOf : List Nat) (x : Staged × Nat × Nat × Nat) : (Mod.answer m keysOf x).life = m.life := by
  (unfold Mod.answer; dsimp only []; repeat' (first | with_reducible rfl | assumption | (refine (over_life _ _ _ (fun _ _ => ?_)).trans ?_) | (refine ite_life _ _ _ _ ?_ ?_) | split | (simp; done)))
@[simp] theorem Mod.answerAll_life (m : Mod) (l : List (Staged × Nat × Nat × Nat)) : (Mod.answerAll m l).life = m.life := by unfold Mod.answerAll; simp
@[simp] theorem Mod.refuse_life (m : Mod) (x : Txn) (status pos : Nat) : (Mod.refuse m x status pos).life = m.life := by
  (unfold Mod.refuse; repeat' split) <;> (first | with_reducible rfl | simp)
@[simp] theorem Mod.stage_life (m : Mod) (x : Txn) (due : Tread) : (Mod.stage m x due).life = m.life := by unfold Mod.stage; simp
@[simp] theorem Mod.arriveWrite_life (m : Mod) (x : Txn) (off : Offset) : (Mod.arriveWrite m x off).life = m.life := by
  (unfold Mod.arriveWrite; dsimp only []; repeat' (first | with_reducible rfl | assumption | (refine (over_life _ _ _ (fun _ _ => ?_)).trans ?_) | (refine ite_life _ _ _ _ ?_ ?_) | split | (simp; done)))
@[simp] theorem Mod.arriveRead_life (m : Mod) (x : Txn) (off : Offset) : (Mod.arriveRead m x off).life = m.life := by
  (unfold Mod.arriveRead; repeat' split) <;> (first | with_reducible rfl | simp)
@[simp] theorem Mod.arrive_life (m : Mod) (x : Txn) (authOk versionOk : Bool) (off : Offset) : (Mod.arrive m x authOk versionOk off).life = m.life := by unfold Mod.arrive; simp
@[simp] theorem Mod.takeValues_life (m : Mod) (a : Nat) (l : List Entry) : (Mod.takeValues m a l).1.life = m.life := by
  unfold Mod.takeValues
  exact foldl_life _ _ _ (fun r e => by
    split
    · extract_lets q; simp [q]
    · rfl)
@[simp] theorem Mod.beginRead_life (m : Mod) (r : ReadSt) : (Mod.beginRead m r).life = m.life := by
  (unfold Mod.beginRead; dsimp only []; repeat' (first | with_reducible rfl | assumption | (refine (over_life _ _ _ (fun _ _ => ?_)).trans ?_) | (refine ite_life _ _ _ _ ?_ ?_) | split | (simp; done)))
@[simp] theorem Mod.readService_life (m : Mod) (a seq : Nat) : (Mod.readService m a seq).life = m.life := by
  (unfold Mod.readService; repeat' split) <;> (first | with_reducible rfl | simp)
@[simp] theorem Mod.readServiceEnd_life (m : Mod) (a seq : Nat) (delivered : Bool) : (Mod.readServiceEnd m a seq delivered).life = m.life := by
  (unfold Mod.readServiceEnd; dsimp only []; repeat' (first | with_reducible rfl | assumption | (refine (over_life _ _ _ (fun _ _ => ?_)).trans ?_) | (refine ite_life _ _ _ _ ?_ ?_) | split | (simp; done)))
@[simp] theorem Mod.journalledReply_life (m : Mod) (a seq : Nat) : (Mod.journalledReply m a seq).life = m.life := by unfold Mod.journalledReply; simp
@[simp] theorem Mod.answerTo_life (m : Mod) (dest : Src) (kind assoc : Nat) (body : List Nat) : (Mod.answerTo m dest kind assoc body).life = m.life := by unfold Mod.answerTo; simp
@[simp] theorem Mod.sendFrame_life (m : Mod) (dest : Src) (version : Nat × Nat) (kind assoc tag flags : Nat) (body : List Nat) : (Mod.sendFrame m dest version kind assoc tag flags body).life = m.life := by unfold Mod.sendFrame; simp
@[simp] theorem Mod.reply__life (m : Mod) (dest : Src) (version : Nat × Nat) (kind assoc tag : Nat) (body : List Nat) : (Mod.reply_ m dest version kind assoc tag body).life = m.life := by unfold Mod.reply_; simp
@[simp] theorem Mod.helloNow_life (m : Mod) (src : Src) (hd : FrameHead) : (Mod.helloNow m src hd).life = m.life := by unfold Mod.helloNow; simp
@[simp] theorem Mod.helloAnnounce_life (m : Mod) : (Mod.helloAnnounce m).life = m.life := by unfold Mod.helloAnnounce; simp
@[simp] theorem Mod.lapse_life (m : Mod) : (Mod.lapse m).life = m.life := by unfold Mod.lapse; simp
@[simp] theorem Mod.lapseOne_life (m : Mod) (k : Nat) : (Mod.lapseOne m k).life = m.life := by
  (unfold Mod.lapseOne; repeat' split) <;> (first | with_reducible rfl | simp)
@[simp] theorem Mod.drawNonce_life (m : Mod) (auth : Nat) : (Mod.drawNonce m auth).2.life = m.life := by
  (unfold Mod.drawNonce; repeat' split) <;> (first | with_reducible rfl | simp)
@[simp] theorem Mod.negotiateNow_life (m0 : Mod) (src : Src) (r : NegReq) (hd : FrameHead) : (Mod.negotiateNow m0 src r hd).life = m0.life := by
  (unfold Mod.negotiateNow; dsimp only []; repeat' (first | with_reducible rfl | assumption | (refine (over_life _ _ _ (fun _ _ => ?_)).trans ?_) | (refine ite_life _ _ _ _ ?_ ?_) | split | (simp; done)))
@[simp] theorem Mod.associateNow_life (m : Mod) (src : Src) (r : AssocReq) (hd : FrameHead) : (Mod.associateNow m src r hd).life = m.life := by
  (unfold Mod.associateNow; repeat' split) <;> (first | with_reducible rfl | simp)
@[simp] theorem Mod.dropFrame_life (m : Mod) : (Mod.dropFrame m).life = m.life := by unfold Mod.dropFrame; simp
@[simp] theorem Mod.ask_life (m : Mod) (x : Ask) : (Mod.ask m x).life = m.life := by
  unfold Mod.ask
  split
  · rfl
  · split
    · simp
    · split
      · rfl
      · split
        · simp
        · split <;> simp
        · simp
@[simp] theorem Mod.serveAsks_life (m : Mod) : (Mod.serveAsks m).life = m.life := by unfold Mod.serveAsks; simp
@[simp] theorem Mod.heartbeats_life (m : Mod) : (Mod.heartbeats m).life = m.life := by unfold Mod.heartbeats; simp
@[simp] theorem Mod.declareLost_life (m : Mod) (a : Nat) (off : Offset) : (Mod.declareLost m a off).life = m.life := by
  (unfold Mod.declareLost; repeat' split) <;> (first | with_reducible rfl | simp)
@[simp] theorem Mod.tellLost_life (m : Mod) (p : Partner) : (Mod.tellLost m p).life = m.life := by unfold Mod.tellLost; simp
@[simp] theorem Mod.lossAction_life (m : Mod) (p : Partner) : (Mod.lossAction m p).life = m.life := by unfold Mod.lossAction; simp
@[simp] theorem Mod.enterHall_life (m : Mod) : (Mod.enterHall m).life = m.life := by unfold Mod.enterHall; simp
@[simp] theorem Mod.abortAction_life (m : Mod) (x : Nat) : (Mod.abortAction m x).life = m.life := by unfold Mod.abortAction; simp
theorem Mod.setMapped_life (m m' : Mod) (who tgt v : Nat) : m.setMapped who tgt v = some m' → m'.life = m.life := by
  intro h; revert h; unfold Mod.setMapped
  (repeat' split) <;> intro h <;> (first | (cases h; done) | (cases h; simp; done)  | (simp only [] at h; (repeat' split at h) <;> (first | (cases h; done) | (cases h; simp; done) )))
theorem Mod.startAction_life (m m' : Mod) (t x entry : Nat) : m.startAction t x entry = some m' → m'.life = m.life := by
  intro h; revert h; unfold Mod.startAction
  (repeat' split) <;> intro h <;> (first | (cases h; done) | (cases h; simp; done)  | (simp only [] at h; (repeat' split at h) <;> (first | (cases h; done) | (cases h; simp; done) )))
theorem Mod.stepAction_life (m m' : Mod) (t step op tgt v : Nat) : m.stepAction t step op tgt v = some m' → m'.life = m.life := by
  intro h; revert h; unfold Mod.stepAction
  (repeat' split) <;> intro h <;> (first | (cases h; done) | (cases h; simp; done) | exact Mod.setMapped_life _ _ _ _ _ h | exact Mod.startAction_life _ _ _ _ _ h | exact Mod.simpleAction_life _ _ _ _ _ _ _ _ _ h | (simp only [] at h; (repeat' split at h) <;> (first | (cases h; done) | (cases h; simp; done) | exact Mod.setMapped_life _ _ _ _ _ h | exact Mod.startAction_life _ _ _ _ _ h | exact Mod.simpleAction_life _ _ _ _ _ _ _ _ _ h)))
@[simp] theorem Mod.applyAction_life (m : Mod) (b : Bank) (t step i : Nat) : (Mod.applyAction m b t step i).life = m.life := by
  unfold Mod.applyAction
  extract_lets e
  split
  · rfl
  · split
    · rename_i m1 h
      split at h
      · exact Mod.stepAction_life _ _ _ _ _ _ _ h
      · cases h
    · simp
@[simp] theorem Mod.clearEvents_life (m : Mod) (who mask : Nat) : (Mod.clearEvents m who mask).life = m.life := by unfold Mod.clearEvents; simp
@[simp] theorem Mod.entryEffects_life (m : Mod) (b : Bank) (t step clear : Nat) : (Mod.entryEffects m b t step clear).life = m.life := by unfold Mod.entryEffects; simp
@[simp] theorem Mod.entryRecord_life (m : Mod) (t step : Nat) : (Mod.entryRecord m t step).life = m.life := by unfold Mod.entryRecord; simp
@[simp] theorem Mod.enterStep_life (m : Mod) (t step exit : Nat) : (Mod.enterStep m t step exit).life = m.life := by unfold Mod.enterStep; simp
@[simp] theorem Mod.transit_life (m : Mod) (t : Nat) : (Mod.transit m t).life = m.life := by
  (unfold Mod.transit; repeat' split) <;> (first | with_reducible rfl | simp)
@[simp] theorem Mod.transitions_life (m : Mod) : (Mod.transitions m).life = m.life := by unfold Mod.transitions; simp
@[simp] theorem Mod.enterAll_life (m : Mod) (b : Bank) (l : List (Nat × Nat × Nat)) : (Mod.enterAll m b l).life = m.life := by unfold Mod.enterAll; simp
@[simp] theorem Mod.delayedUpTo_life (m : Mod) (t lim : Nat) : (Mod.delayedUpTo m t lim).life = m.life := by unfold Mod.delayedUpTo; simp
@[simp] theorem Mod.delayedNow_life (m : Mod) (t : Nat) : (Mod.delayedNow m t).life = m.life := by unfold Mod.delayedNow; simp
@[simp] theorem Mod.delayedAll_life (m : Mod) (b : Bank) (due : List (Nat × Nat × Nat × List Nat)) : (Mod.delayedAll m b due).life = m.life := by unfold Mod.delayedAll; simp
@[simp] theorem Mod.stepEffects_life (m : Mod) (b : Bank) (entered : List (Nat × Nat × Nat)) (due : List (Nat × Nat × Nat × List Nat)) : (Mod.stepEffects m b entered due).life = m.life := by unfold Mod.stepEffects; simp
@[simp] theorem Mod.pulseEnd_life (m : Mod) (o : Nat) : (Mod.pulseEnd m o).life = m.life := by unfold Mod.pulseEnd; simp
@[simp] theorem Mod.pulseEnds_life (m : Mod) : (Mod.pulseEnds m).life = m.life := by unfold Mod.pulseEnds; simp
@[simp] theorem Mod.landAll_life (m : Mod) (b : Bank) (decided now : List (Nat × Nat × Nat)) : (Mod.landAll m b decided now).life = m.life := by unfold Mod.landAll; simp
@[simp] theorem Mod.axisParts_life (m : Mod) : (Mod.axisParts m).life = m.life := by
  unfold Mod.axisParts
  extract_lets m1
  have h : m1.life = m.life := over_life _ _ _ (fun m t => by
    split
    · split
      · extract_lets l; split <;> simp
      · simp
    · split <;> simp
    · rfl)
  clear_value m1
  exact (over_life _ _ _ (fun m t => by split <;> simp)).trans h
@[simp] theorem Mod.axisRefusals_life (m : Mod) : (Mod.axisRefusals m).life = m.life := by unfold Mod.axisRefusals; simp
@[simp] theorem Mod.trial_life (m : Mod) (n : Tread) : (Mod.trial m n).life = m.life := by unfold Mod.trial; simp
@[simp] theorem Mod.takeFrame_life (m : Mod) (kind : Nat) (f : Frame) : (Mod.takeFrame m kind f).1.life = m.life := by
  unfold Mod.takeFrame
  (repeat' split) <;> simp
@[simp] theorem Mod.takeImage_life (m : Mod) (a : Nat) (x : Msg) (k : Nat) (data : List Nat) (off : Offset) : (Mod.takeImage m a x k data off).life = m.life := by unfold Mod.takeImage; simp
@[simp] theorem Mod.take_life (m : Mod) (a : Nat) (x : Msg) (off : Offset) : (Mod.take m a x off).life = m.life := by
  (unfold Mod.take; repeat' split) <;> (first | with_reducible rfl | simp)
@[simp] theorem Mod.duplicate_life (m : Mod) (a : Nat) (p : Partner) (seq : Nat) : (Mod.duplicate m a p seq).life = m.life := by
  (unfold Mod.duplicate; repeat' split) <;> (first | with_reducible rfl | simp)
@[simp] theorem Mod.drainHeld_life (m : Mod) (a : Nat) (off : Offset) (n : Nat) : (m.drainHeld a off n).life = m.life := by
  induction n generalizing m with
  | zero => rfl
  | succ n ih =>
    unfold Mod.drainHeld
    split
    · rfl
    · split
      · rfl
      · rw [ih]; simp
@[simp] theorem Mod.sequenceGap_life (m : Mod) (a : Nat) (off : Offset) (n : Nat) : (m.sequenceGap a off n).life = m.life := by
  induction n generalizing m with
  | zero => rfl
  | succ n ih =>
    unfold Mod.sequenceGap
    split
    · rfl
    · split
      · rfl
      · split
        · rfl
        · extract_lets m1; rw [ih]; simp [m1]
@[simp] theorem Mod.sequence_life (m : Mod) (a : Nat) (x : Msg) (now : Bool) (off : Offset) : (Mod.sequence m a x now off).life = m.life := by
  unfold Mod.sequence
  split
  · rfl
  · rename_i p _
    extract_lets e p2 d full m1 m2
    have h1 : m1.life = m.life := by simp [m1]
    have h2 : m2.life = m.life := by simp [m2]
    clear_value m1 m2
    split
    · rw [Mod.drainHeld_life]
      split <;> simp [h1]
    · split
      · split
        · simp
        · split
          · split <;> simp [h2]
          · simp
      · split <;> simp
@[simp] theorem Mod.received_life (m : Mod) (a : Nat) (q : Partial) (off : Offset) : (Mod.received m a q off).life = m.life := by unfold Mod.received; simp
@[simp] theorem Mod.dropPartial_life (m : Mod) (a : Nat) (p : Partner) : (Mod.dropPartial m a p).life = m.life := by
  (unfold Mod.dropPartial; repeat' split) <;> (first | with_reducible rfl | simp)
@[simp] theorem Mod.segment_life (m : Mod) (p : Partner) (f : Frame) (authOk : Bool) : (Mod.segment m p f authOk).life = m.life := by
  (unfold Mod.segment; dsimp only []; repeat' (first | with_reducible rfl | assumption | (refine (over_life _ _ _ (fun _ _ => ?_)).trans ?_) | (refine ite_life _ _ _ _ ?_ ?_) | split | (simp; done)))
@[simp] theorem Mod.transact_life (m : Mod) (f : Frame) : (Mod.transact m f).life = m.life := by
  unfold Mod.transact
  split
  · rename_i m' p b h
    have hm : m'.life = m.life := by have := Mod.takeFrame_life m 4 f; rw [h] at this; exact this
    clear h
    simp [hm]
  · rename_i m' h
    have := Mod.takeFrame_life m 4 f; rw [h] at this; exact this
@[simp] theorem Mod.segmentDiscard_life (m : Mod) (a : Nat) : (Mod.segmentDiscard m a).life = m.life := by
  (unfold Mod.segmentDiscard; repeat' split) <;> (first | with_reducible rfl | simp)
@[simp] theorem Mod.imageFrame_life (m : Mod) (f : Frame) : (Mod.imageFrame m f).life = m.life := by
  unfold Mod.imageFrame
  split
  · rename_i m' p b h
    have hm : m'.life = m.life := by have := Mod.takeFrame_life m 5 f; rw [h] at this; exact this
    clear h
    extract_lets k data data2
    split
    · simp [hm]
    · rw [Mod.sequence_life]; exact hm
  · rename_i m' h
    have := Mod.takeFrame_life m 5 f; rw [h] at this; exact this
@[simp] theorem Mod.heartbeatFrame_life (m : Mod) (f : Frame) : (Mod.heartbeatFrame m f).life = m.life := by unfold Mod.heartbeatFrame; simp
@[simp] theorem Mod.byeFrame_life (m : Mod) (f : Frame) : (Mod.byeFrame m f).life = m.life := by
  unfold Mod.byeFrame
  split
  · rename_i m' b h
    have hm : m'.life = m.life := by have := Mod.takeFrame_life m 8 f; rw [h] at this; exact this
    clear h
    split
    · simp [hm]
    · split <;> simp [hm]
  · rename_i m' h
    have := Mod.takeFrame_life m 8 f; rw [h] at this; exact this
@[simp] theorem Mod.imageSend_life (m : Mod) (k : Nat) (late : Bool) : (Mod.imageSend m k late).life = m.life := by
  (unfold Mod.imageSend; dsimp only []; repeat' (first | with_reducible rfl | assumption | (refine (over_life _ _ _ (fun _ _ => ?_)).trans ?_) | (refine ite_life _ _ _ _ ?_ ?_) | split | (simp; done)))
@[simp] theorem Mod.partner_life (m : Mod) (h : Hdr) (write : Bool) (l : List Entry) : (Mod.partner m h write l).life = m.life := by
  (unfold Mod.partner; repeat' split) <;> (first | with_reducible rfl | simp)
@[simp] theorem Mod.write1_life (m : Mod) (h : Hdr) (idx sub len val : Nat) : (Mod.write1 m h idx sub len val).life = m.life := by unfold Mod.write1; simp
@[simp] theorem Mod.serveNow_life (m : Mod) (a seq : Nat) : (Mod.serveNow m a seq).life = m.life := by
  (unfold Mod.serveNow; repeat' split) <;> (first | with_reducible rfl | simp)
@[simp] theorem Mod.queueRead_life (m : Mod) (h : Hdr) (p : Nat) : (Mod.queueRead m h p).life = m.life := by unfold Mod.queueRead; simp
@[simp] theorem Mod.accessRequest_life (m : Mod) (p : Nat) (f : CanFrame) (off : Offset) : (Mod.accessRequest m p f off).life = m.life := by unfold Mod.accessRequest; simp
@[simp] theorem Mod.setSwitch_life (m : Mod) (s : SwitchSt) : (Mod.setSwitch m s).life = m.life := by unfold Mod.setSwitch; simp
@[simp] theorem Mod.fill_life (m : Mod) (port : Nat) (high : Bool) (len : Nat) : (Mod.fill m port high len).1.life = m.life := by
  (unfold Mod.fill; dsimp only []; repeat' (first | with_reducible rfl | assumption | (refine (over_life _ _ _ (fun _ _ => ?_)).trans ?_) | (refine ite_life _ _ _ _ ?_ ?_) | split | (simp; done)))
@[simp] theorem Mod.enqueue_life (m : Mod) (f : SwFrame) (port : Nat) : (Mod.enqueue m f port).life = m.life := by unfold Mod.enqueue; simp
@[simp] theorem Mod.clockFrame_life (m : Mod) (f : SwFrame) : (Mod.clockFrame m f).1.life = m.life := by
  (unfold Mod.clockFrame; repeat' split) <;> (first | with_reducible rfl | simp)
@[simp] theorem Mod.peerDelay_life (m : Mod) (port d : Nat) : (Mod.peerDelay m port d).life = m.life := by unfold Mod.peerDelay; simp
@[simp] theorem Mod.forwardTo_life (m : Mod) (f : SwFrame) (corrections : List Nat) (p : Nat) : (Mod.forwardTo m f corrections p).life = m.life := by unfold Mod.forwardTo; simp
@[simp] theorem Mod.forward_life (m : Mod) (f : SwFrame) : (Mod.forward m f).life = m.life := by unfold Mod.forward; simp
@[simp] theorem Mod.queueOwn_life (m : Mod) : (Mod.queueOwn m).life = m.life := by unfold Mod.queueOwn; simp
@[simp] theorem Mod.switchFrame_life (m : Mod) (f : SwFrame) : (Mod.switchFrame m f).life = m.life := by unfold Mod.switchFrame; simp
@[simp] theorem Mod.ageOut_life (m : Mod) (mac : Nat) : (Mod.ageOut m mac).life = m.life := by unfold Mod.ageOut; simp
@[simp] theorem Mod.drainQueues_life (m : Mod) : (Mod.drainQueues m).life = m.life := by unfold Mod.drainQueues; simp
@[simp] theorem Mod.ringFlight_life (m : Mod) : (Mod.ringFlight m).life = m.life := by unfold Mod.ringFlight; simp
@[simp] theorem Mod.ringOpens_life (m : Mod) : (Mod.ringOpens m).life = m.life := by unfold Mod.ringOpens; simp
@[simp] theorem Mod.ringCloses_life (m : Mod) : (Mod.ringCloses m).life = m.life := by unfold Mod.ringCloses; simp
@[simp] theorem Mod.arp_life (m : Mod) (port ip mac : Nat) : (Mod.arp m port ip mac).life = m.life := by unfold Mod.arp; simp
@[simp] theorem Mod.followUpTimeout_life (m : Mod) (id_ : Nat) : (Mod.followUpTimeout m id_).life = m.life := by
  (unfold Mod.followUpTimeout; repeat' split) <;> (first | with_reducible rfl | simp)
@[simp] theorem Mod.portLink_life (m : Mod) (port speed : Nat) : (Mod.portLink m port speed).life = m.life := by unfold Mod.portLink; simp
@[simp] theorem Mod.shiftControl_life (m : Mod) (d : Nat) : (Mod.shiftControl m d).life = m.life := by unfold Mod.shiftControl; simp
@[simp] theorem Mod.shiftLink_life (m : Mod) (d : Nat) : (Mod.shiftLink m d).life = m.life := by unfold Mod.shiftLink; simp
@[simp] theorem Mod.refuseNamed_life (m : Mod) : (Mod.refuseNamed m).life = m.life := by unfold Mod.refuseNamed; simp
@[simp] theorem Mod.stepTo_life (m : Mod) (n : Tread) : (Mod.stepTo m n).life = m.life := by unfold Mod.stepTo; simp
@[simp] theorem Mod.newConfig_life (m : Mod) (n : Tread) : (Mod.newConfig m n).life = m.life := by unfold Mod.newConfig; simp
@[simp] theorem Mod.closeTread_life (m : Mod) : (Mod.closeTread m).life = m.life := by unfold Mod.closeTread; simp
@[simp] theorem Mod.recordEdges_life (m : Mod) : (Mod.recordEdges m).life = m.life := by unfold Mod.recordEdges; simp
@[simp] theorem Mod.loseSources_life (m : Mod) : (Mod.loseSources m).life = m.life := by unfold Mod.loseSources; simp
@[simp] theorem Mod.departures_life (m : Mod) : (Mod.departures m).life = m.life := by unfold Mod.departures; simp
@[simp] theorem Mod.clearSent_life (m : Mod) : (Mod.clearSent m).life = m.life := by unfold Mod.clearSent; simp
@[simp] theorem Mod.fieldBoundary_life (m : Mod) (i : TreadIn) : (Mod.fieldBoundary m i).life = m.life := by unfold Mod.fieldBoundary; simp
@[simp] theorem Mod.afterSet_life (m : Mod) (b : Bank) (entered : List (Nat × Nat × Nat)) (due : List (Nat × Nat × Nat × List Nat)) (decided : List (Nat × Nat × Nat)) : (Mod.afterSet m b entered due decided).life = m.life := by unfold Mod.afterSet; simp
@[simp] theorem Mod.commitBoundary_life (m : Mod) : (Mod.commitBoundary m).1.life = m.life := by
  unfold Mod.commitBoundary
  exact (Mod.commitSealed_life _ _ (fun m => by simp)).trans (by simp)
@[simp] theorem Mod.fixBoundary_life (m : Mod) (set : List (Staged × Nat × Nat × Nat)) : (Mod.fixBoundary m set).life = m.life := by unfold Mod.fixBoundary; simp
@[simp] theorem Mod.tilePass_life (m : Mod) : (Mod.tilePass m).life = m.life := by unfold Mod.tilePass; simp
@[simp] theorem Mod.boundary_life (m : Mod) (i : TreadIn) (n : Tread) : (Mod.boundary m i n).life = m.life := by
  unfold Mod.boundary
  extract_lets m1 m2 r
  have h1 : m1.life = m.life := by simp [m1]
  have h2 : m2.life = m.life := by simp only [m2]; rw [Mod.fieldBoundary_life]; split <;> simp [h1]
  have h3 : r.1.life = m.life := by simp [r, h2]
  simp [h3]
@[simp] theorem Mod.commitRo_life (m : Mod) : (Mod.commitRo m).life = m.life := by unfold Mod.commitRo; simp
@[simp] theorem Mod.setEach_life (m : Mod) (idx sub : Nat) (l : List Nat) : (Mod.setEach m idx sub l).life = m.life := by unfold Mod.setEach; simp
@[simp] theorem Mod.measure_life (m : Mod) (i : FlightIn) : (Mod.measure m i).life = m.life := by unfold Mod.measure; simp
@[simp] theorem Mod.ringRate_life (m : Mod) (f : Nat) : (Mod.ringRate m f).life = m.life := by unfold Mod.ringRate; simp
@[simp] theorem Mod.flight_life (m : Mod) (i : FlightIn) : (Mod.flight m i).life = m.life := by unfold Mod.flight; simp
@[simp] theorem Mod.restartServo_life (m : Mod) : (Mod.restartServo m).life = m.life := by unfold Mod.restartServo; simp
@[simp] theorem Mod.storedOptions_life (m : Mod) : (Mod.storedOptions m).life = m.life := by
  (unfold Mod.storedOptions; repeat' split) <;> (first | with_reducible rfl | simp)
@[simp] theorem Mod.minimalOptions_life (m : Mod) (b : BringUp) : (Mod.minimalOptions m b).life = m.life := by unfold Mod.minimalOptions; simp
@[simp] theorem Mod.loadOptions_life (m : Mod) (b : BringUp) : (Mod.loadOptions m b).life = m.life := by unfold Mod.loadOptions; simp
@[simp] theorem Mod.blank_life (m : Mod) : (Mod.blank m).life = m.life := by unfold Mod.blank; simp
@[simp] theorem Mod.coldStart_life (m : Mod) (n : Tread) : (Mod.coldStart m n).life = m.life := by unfold Mod.coldStart; simp
@[simp] theorem Mod.endRuns_life (m : Mod) : (Mod.endRuns m).life = m.life := by unfold Mod.endRuns; simp
@[simp] theorem Mod.load__life (m : Mod) (r : Restore) : (Mod.load_ m r).life = m.life := by unfold Mod.load_; simp
@[simp] theorem Mod.rejoin_life (m : Mod) (n : Tread) : (Mod.rejoin m n).life = m.life := by unfold Mod.rejoin; simp
@[simp] theorem Mod.setOutputs_life (m : Mod) (img : Img) : (Mod.setOutputs m img).life = m.life := by
  (unfold Mod.setOutputs; dsimp only []; repeat' (first | with_reducible rfl | assumption | (refine (over_life _ _ _ (fun _ _ => ?_)).trans ?_) | (refine ite_life _ _ _ _ ?_ ?_) | split | (simp; done)))
@[simp] theorem Mod.allOutputsOff_life (m : Mod) : (Mod.allOutputsOff m).life = m.life := by
  (unfold Mod.allOutputsOff; dsimp only []; repeat' (first | with_reducible rfl | assumption | (refine (over_life _ _ _ (fun _ _ => ?_)).trans ?_) | (refine ite_life _ _ _ _ ?_ ?_) | split | (simp; done)))
@[simp] theorem Mod.carryOn_life (m : Mod) (t : Nat) (n g : Tread) : (Mod.carryOn m t n g).life = m.life := by unfold Mod.carryOn; simp
@[simp] theorem Mod.landTracks_life (m : Mod) (effects : Bool) : (Mod.landTracks m effects).life = m.life := by unfold Mod.landTracks; simp
@[simp] theorem Mod.outcomeState_life (m : Mod) (out : Nat) (off : Bool) (r : Restore) (n : Tread) : (Mod.outcomeState m out off r n).life = m.life := by unfold Mod.outcomeState; simp
@[simp] theorem Mod.outcomeObjects_life (m : Mod) (out why r n g : Nat) (diff : List Nat) : (Mod.outcomeObjects m out why r n g diff).life = m.life := by unfold Mod.outcomeObjects; simp
@[simp] theorem Mod.announceReset_life (m : Mod) : (Mod.announceReset m).life = m.life := by
  (unfold Mod.announceReset; dsimp only []; repeat' (first | with_reducible rfl | assumption | (refine (over_life _ _ _ (fun _ _ => ?_)).trans ?_) | (refine ite_life _ _ _ _ ?_ ?_) | split | (simp; done)))
@[simp] theorem Mod.recordReset_life (m : Mod) : (Mod.recordReset m).life = m.life := by unfold Mod.recordReset; simp
@[simp] theorem Mod.takePhases_life (m : Mod) (n : Tread) : (Mod.takePhases m n).life = m.life := by
  (unfold Mod.takePhases; repeat' split) <;> (first | with_reducible rfl | simp)
@[simp] theorem Mod.bufferFrom_life (m : Mod) (n : Tread) : (Mod.bufferFrom m n).life = m.life := by unfold Mod.bufferFrom; simp
@[simp] theorem Mod.writeObject_life (m : Mod) (h : Hdr) (idx sub v : Nat) : (Mod.writeObject m h idx sub v).life = m.life := by unfold Mod.writeObject; simp
@[simp] theorem Mod.trackCommand_life (m : Mod) (h : Hdr) (t code entry : Nat) : (Mod.trackCommand m h t code entry).life = m.life := by unfold Mod.trackCommand; simp
@[simp] theorem Mod.dutyStart_life (m : Mod) (o k : Nat) : (Mod.dutyStart m o k).life = m.life := by unfold Mod.dutyStart; simp
end Sys2Proof.Machine
end

