-- ==== Sys2Proof/Laws/Store.lean ====
section
/-! SUPPORT. The laws of the sparse tables and the object stores: a value put reads back, every other key reads as before,
and the canonical form is kept. -/

namespace Sys2Proof.Machine

variable {α : Type}

/-! ### Tables -/

@[simp] theorem look_put (l : SMap α) (k : Nat) (v : α) : look (put l k v) k = some v := by
  induction l with
  | nil => simp [put, look]
  | cons x l ih =>
    obtain ⟨a, w⟩ := x
    unfold put
    split
    · simp [look]
    · split <;> simp_all [look]

theorem look_put_ne (l : SMap α) (k j : Nat) (v : α) (h : k ≠ j) : look (put l k v) j = look l j := by
  induction l with
  | nil => simp [put, look, h]
  | cons x l ih =>
    obtain ⟨a, w⟩ := x
    unfold put
    split
    · simp [look, h]
    · split <;> simp_all [look]

@[simp] theorem put_put (l : SMap α) (k : Nat) (v w : α) : put (put l k v) k w = put l k w := by
  induction l with
  | nil => simp [put]
  | cons x l ih =>
    obtain ⟨a, u⟩ := x
    by_cases h1 : k < a
    · simp [put, h1]
    · by_cases h2 : a = k <;> simp [put, h1, h2, ih]

@[simp] theorem look_drop (l : SMap α) (k : Nat) : look (drop l k) k = none := by
  induction l with
  | nil => rfl
  | cons x l ih =>
    obtain ⟨a, w⟩ := x
    unfold drop
    split <;> simp_all [look]

theorem look_drop_ne (l : SMap α) (k j : Nat) (h : k ≠ j) : look (drop l k) j = look l j := by
  induction l with
  | nil => rfl
  | cons x l ih =>
    obtain ⟨a, w⟩ := x
    unfold drop
    split <;> simp_all [look]

@[simp] theorem lookD_put (l : SMap α) (k : Nat) (v d : α) : lookD (put l k v) k d = v := by simp [lookD]

theorem lookD_put_ne (l : SMap α) (k j : Nat) (v d : α) (h : k ≠ j) : lookD (put l k v) j d = lookD l j d := by
  simp [lookD, look_put_ne l k j v h]

theorem rising_le (l : SMap α) (a b : Nat) (h : b ≤ a) (hr : rising a l = true) : rising b l = true := by
  cases l with
  | nil => rfl
  | cons x l => simp only [rising, Bool.and_eq_true, decide_eq_true_eq] at hr ⊢; exact ⟨by omega, hr.2⟩

theorem rising_put (l : SMap α) (n k : Nat) (v : α) (h : rising n l = true) (hk : n ≤ k) :
    rising n (put l k v) = true := by
  induction l generalizing n with
  | nil => simp [put, rising, hk]
  | cons x l ih =>
    obtain ⟨a, w⟩ := x
    simp only [rising, Bool.and_eq_true, decide_eq_true_eq] at h
    unfold put
    split
    · simp only [rising, Bool.and_eq_true, decide_eq_true_eq]; exact ⟨hk, by omega, h.2⟩
    · split
      · subst_vars; simp [rising, h.2, hk]
      · simp only [rising, Bool.and_eq_true, decide_eq_true_eq]; exact ⟨h.1, ih _ h.2 (by omega)⟩

theorem rising_drop (l : SMap α) (n k : Nat) (h : rising n l = true) : rising n (drop l k) = true := by
  induction l generalizing n with
  | nil => rfl
  | cons x l ih =>
    obtain ⟨a, w⟩ := x
    simp only [rising, Bool.and_eq_true, decide_eq_true_eq] at h
    unfold drop
    split
    · exact ih _ (rising_le _ _ _ (by omega) h.2)
    · simp only [rising, Bool.and_eq_true, decide_eq_true_eq]; exact ⟨h.1, ih _ h.2⟩

theorem all_put (f : Nat × α → Bool) (l : SMap α) (k : Nat) (v : α) (h : l.all f = true) (hv : f (k, v) = true) :
    (put l k v).all f = true := by
  induction l with
  | nil => simp [put, hv]
  | cons x l ih =>
    obtain ⟨a, w⟩ := x
    unfold put
    split
    · simp_all
    · split <;> simp_all

theorem all_drop (f : Nat × α → Bool) (l : SMap α) (k : Nat) (h : l.all f = true) : (drop l k).all f = true := by
  induction l with
  | nil => rfl
  | cons x l ih =>
    obtain ⟨a, w⟩ := x
    unfold drop
    split <;> simp_all

/-! ### Stores -/

@[simp] theorem stGet_stPut (l : SMap Nat) (k v : Nat) : stGet (stPut l k v) k = v := by
  unfold stGet stPut putD
  split <;> simp_all

theorem stGet_stPut_ne (l : SMap Nat) (k j v : Nat) (h : k ≠ j) : stGet (stPut l k v) j = stGet l j := by
  unfold stGet stPut putD
  split
  · rw [look_drop_ne _ _ _ h]
  · rw [look_put_ne _ _ _ _ h]

theorem stPut_wf (l : SMap Nat) (k v : Nat) (h : SMap.wf keyDefault l = true) : SMap.wf keyDefault (stPut l k v) = true := by
  simp only [SMap.wf, Bool.and_eq_true] at h ⊢
  unfold stPut putD
  split
  · exact ⟨rising_drop _ _ _ h.1, all_drop _ _ _ h.2⟩
  · exact ⟨rising_put _ _ _ _ h.1 (by omega), all_put _ _ _ _ h.2 (by simpa)⟩

theorem okey_eq (a i r b j t : Nat) :
    (okey a i r = okey b j t) = (a * 2 ^ 24 + i * 256 + r % 256 = b * 2 ^ 24 + j * 256 + t % 256) := rfl

@[simp] theorem cfg_setCfg (m : Mod) (i r v : Nat) : (m.setCfg i r v).cfg i r = v := by simp [Mod.cfg, Mod.setCfg]
@[simp] theorem rov_setRo (m : Mod) (i r v : Nat) : (m.setRo i r v).rov i r = v := by simp [Mod.rov, Mod.setRo]

theorem cfg_setCfg_ne (m : Mod) (i r v j t : Nat) (h : okey 0 i r ≠ okey 0 j t) : (m.setCfg i r v).cfg j t = m.cfg j t := by
  simp [Mod.cfg, Mod.setCfg, stGet_stPut_ne _ _ _ _ h]
theorem rov_setRo_ne (m : Mod) (i r v j t : Nat) (h : okey 0 i r ≠ okey 0 j t) : (m.setRo i r v).rov j t = m.rov j t := by
  simp [Mod.rov, Mod.setRo, stGet_stPut_ne _ _ _ _ h]

@[simp] theorem rov_bumpBy (m : Mod) (i r n : Nat) :
    (m.bumpBy i r n).rov i r = (m.rov i r + n) % 2 ^ counterBits i r := by simp [Mod.bumpBy]
theorem rov_bumpBy_ne (m : Mod) (i r n j t : Nat) (h : okey 0 i r ≠ okey 0 j t) : (m.bumpBy i r n).rov j t = m.rov j t := by
  simp [Mod.bumpBy, rov_setRo_ne _ _ _ _ _ _ h]

/-! ### Members of families -/

@[simp] theorem loop_setLoop (m : Mod) (k : Nat) (v : LoopSt) : (m.setLoop k v).loop k = v := by simp [Mod.loop, Mod.setLoop]
@[simp] theorem track_setTrack (m : Mod) (k : Nat) (v : TrackSt) : (m.setTrack k v).track k = v := by
  simp [Mod.track, Mod.setTrack]
@[simp] theorem inp_setInp (m : Mod) (k : Nat) (v : InpSt) : (m.setInp k v).inp k = v := by simp [Mod.inp, Mod.setInp]
@[simp] theorem conv_setConv (m : Mod) (k : Nat) (v : ConvSt) : (m.setConv k v).conv k = v := by simp [Mod.conv, Mod.setConv]
@[simp] theorem fbank_setFbank (m : Mod) (k : Nat) (v : BankSt) : (m.setFbank k v).fbank k = v := by
  simp [Mod.fbank, Mod.setFbank]
@[simp] theorem axis_setAxis (m : Mod) (k : Nat) (v : AxisSt) : (m.setAxis k v).axis k = v := by simp [Mod.axis, Mod.setAxis]
@[simp] theorem link_setLink (m : Mod) (k : Nat) (v : AxisLinkSt) : (m.setLink k v).link k = v := by
  simp [Mod.link, Mod.setLink]
@[simp] theorem safIn_setSafIn (m : Mod) (k : Nat) (v : SafInSt) : (m.setSafIn k v).safIn k = v := by
  simp [Mod.safIn, Mod.setSafIn]
@[simp] theorem safOut_setSafOut (m : Mod) (k : Nat) (v : SafOutSt) : (m.setSafOut k v).safOut k = v := by
  simp [Mod.safOut, Mod.setSafOut]

theorem track_setTrack_ne (m : Mod) (k j : Nat) (v : TrackSt) (h : k ≠ j) : (m.setTrack k v).track j = m.track j := by
  simp [Mod.track, Mod.setTrack, lookD_put_ne _ _ _ _ _ h]
theorem fbank_setFbank_ne (m : Mod) (k j : Nat) (v : BankSt) (h : k ≠ j) : (m.setFbank k v).fbank j = m.fbank j := by
  simp [Mod.fbank, Mod.setFbank, lookD_put_ne _ _ _ _ _ h]
theorem axis_setAxis_ne (m : Mod) (k j : Nat) (v : AxisSt) (h : k ≠ j) : (m.setAxis k v).axis j = m.axis j := by
  simp [Mod.axis, Mod.setAxis, lookD_put_ne _ _ _ _ _ h]

end Sys2Proof.Machine
end

