-- ==== Sys2Proof/Laws/Link.lean ====
section
/-! SUPPORT. The link's shared operations: the hall, the admission of frames, and what a partner's write comes to that
is taken in its turn and passes validation. -/

namespace Sys2Proof.Machine

/-- A partner in the hall stands in its table, in state 1. -/
theorem inHall_some {m : Mod} {a : Nat} {p : Partner} (h : m.inHall a = some p) : look m.hall a = some p ∧ p.state = 1 := by
  unfold Mod.inHall at h
  split at h
  · split at h
    · cases h; exact ⟨by assumption, by assumption⟩
    · cases h
  · cases h

/-- A frame that counts as valid renews its partner's life sign and is admitted (R338). -/
theorem takeFrame_valid (m : Mod) (kind : Nat) (f : Frame) (p : Partner) (h : m.validFrom kind f p = true) :
    m.takeFrame kind f = (m.seen f.assoc p, some ({ p with last := m.tread }, true)) := by
  simp only [Mod.validFrom, Bool.and_eq_true, decide_eq_true_eq] at h
  obtain ⟨⟨⟨⟨⟨⟨⟨⟨h1, h0⟩, h7⟩, h8⟩, h2⟩, h3⟩, h4⟩, h5⟩, h6⟩ := h
  rw [Option.isNone_iff_eq_none] at h8
  simp [Mod.takeFrame, h0, h1, h2, h3, h4, h5, h6, h7, h8, Mod.seen]

@[simp] theorem inHall_setPartner (m : Mod) (a : Nat) (p : Partner) (h : p.state = 1) : (m.setPartner a p).inHall a = some p := by
  simp [Mod.inHall, Mod.setPartner, h]

theorem inHall_setPartner_ne (m : Mod) (a b : Nat) (p : Partner) (h : a ≠ b) : (m.setPartner a p).inHall b = m.inHall b := by
  simp [Mod.inHall, Mod.setPartner, look_put_ne _ _ _ _ h]

/-- What a message of one frame leaves of its partner: nothing incomplete (R318). -/
theorem cleared_inHall (m : Mod) (a : Nat) (p : Partner) (h : p.state = 1) :
    (m.cleared a p).inHall a = some { p with last := m.tread, part := none } := by
  unfold Mod.cleared Mod.dropPartial
  dsimp only []
  split
  · rename_i hp; simp [Mod.inHall, Mod.seen, Mod.setPartner, h, ← hp]
  · split <;> simp [Mod.inHall, Mod.seen, Mod.setPartner, Mod.dropFrame, Mod.bump, Mod.bumpBy, Mod.setRo, h]

/-- It changes neither the moment nor the boundary at which a write commits. -/
theorem cleared_due (m : Mod) (a : Nat) (p : Partner) (named : Option Tread) (off : Offset) :
    (m.cleared a p).dueOfWrite named off = m.dueOfWrite named off ∧ (m.cleared a p).now = m.now := by
  unfold Mod.cleared Mod.dropPartial
  dsimp only []
  split
  · exact ⟨rfl, rfl⟩
  · split <;> exact ⟨rfl, rfl⟩

/-- A write that is taken in its turn and passes validation is staged for its boundary (R31 to R33). -/
theorem partner_staged (m : Mod) (h : Hdr) (p : Partner) (l : List Entry) (hin : m.inTurn h p l)
    (hv : (m.turned h.assoc p h.seq).validateFrom h.assoc (m.now + h.off) (m.dueOfWrite h.named h.off).2 l 0 l = none)
    (hd : (m.dueOfWrite h.named h.off).1 = 0)
    (hf : (m.turned h.assoc p h.seq).deltaFull h.assoc (m.dueOfWrite h.named h.off).2 l = false) :
    m.partner h true l = (m.turned h.assoc p h.seq).stage (txnOf h l) (m.dueOfWrite h.named h.off).2 := by
  simp only [Mod.inTurn, Bool.and_eq_true, decide_eq_true_eq, Bool.not_eq_true', Bool.or_eq_true] at hin
  obtain ⟨⟨⟨⟨⟨⟨⟨⟨⟨h1, h2⟩, h3, h4⟩, h5⟩, h6⟩, h7⟩, h8⟩, h9⟩, h10⟩, h11⟩ := hin
  unfold Mod.partner
  rw [if_neg (by simp [h1]), h2]
  dsimp only []
  rw [if_neg (by omega), if_neg (by simp [h3, h4])]
  change (m.cleared h.assoc p).sequence h.assoc _ _ _ = _
  have hi := cleared_inHall m h.assoc p h3
  have hc := cleared_due m h.assoc p h.named h.off
  have hturn : m.turned h.assoc p h.seq = (m.cleared h.assoc p).setPartner h.assoc
      { p with last := m.tread, part := none, expect := (h.seq + 1) % 2 ^ 32, resync := false } := rfl
  unfold Mod.sequence
  rw [hi]
  dsimp only []
  have he : (if p.resync = true then h.seq else p.expect) = h.seq := by
    rcases h6 with h6 | h6 <;> simp [h6]
  rw [he]
  have hz : (h.seq + 2 ^ 32 - h.seq) % 2 ^ 32 = 0 := by
    have : h.seq + 2 ^ 32 - h.seq = 2 ^ 32 := by omega
    rw [this, Nat.mod_self]
  rw [if_pos hz]
  rw [h7]
  have hr : reqOf true h.named h.early h.journalled l = .txn true h.named h.early h.journalled l := by
    unfold reqOf
    rw [if_neg (by simp [h8]), if_neg (by simp; omega)]
  rw [hr, if_neg (by simp)]
  rw [← hturn]
  have ht : (m.turned h.assoc p h.seq).take h.assoc { seq := h.seq, tag := h.tag, req := .txn true h.named h.early h.journalled l } h.off =
      (m.turned h.assoc p h.seq).stage (txnOf h l) (m.dueOfWrite h.named h.off).2 := by
    unfold Mod.take
    dsimp only [Msg.txn]
    unfold Mod.arrive
    rw [if_neg (by simp), if_neg (by
      have := h11
      simp [txnOf] at this ⊢
      exact this), if_pos rfl]
    unfold Mod.arriveWrite
    have e1 : (m.turned h.assoc p h.seq).dueOfWrite h.named h.off = m.dueOfWrite h.named h.off := hc.1
    have e2 : (m.turned h.assoc p h.seq).now = m.now := hc.2
    simp only [e1, e2, hv, hd, hf]
    rfl
  rw [ht]
  have hk : ((m.turned h.assoc p h.seq).stage (txnOf h l) (m.dueOfWrite h.named h.off).2).inHall h.assoc =
      some { p with last := m.tread, part := none, expect := (h.seq + 1) % 2 ^ 32, resync := false } := by
    unfold Mod.stage
    dsimp only []
    split <;> simp [Mod.inHall, Mod.turned, Mod.setPartner, h3]
  unfold Mod.drainHeld
  rw [hk]
  simp at h5
  simp [h5]
/-- A write of one object is its sender's transaction of one entry (R31). -/
theorem State.writes_eq (s : State) (ok : Bool) (h : Hdr) (idx sub v : Nat) (hk : ok = true) :
    s.writes ok h idx sub v = .next (s.withMod (s.m.partner h true (objectWrite idx sub v))) := by
  subst hk; rfl

theorem State.track_eq (s : State) (h : Hdr) (t code entry : Nat) (ht : t < 16) :
    s.on (fun m => m.trackCommand h t code entry) =
      .next (s.withMod (s.m.partner h true (objectWrite (0x4000 + t) 1 (code + 256 * entry)))) := by
  simp only [State.on, Mod.trackCommand, ht, if_true]
  rfl

theorem of_guard {α : Type} {c : Prop} [Decidable c] {a b : α} (h : (if c then some a else none) = some b) : c ∧ a = b := by
  split at h
  · exact ⟨‹c›, Option.some.inj h⟩
  · cases h

/-- Every command that writes is its sender's transaction with the entries that the command stands for. -/
theorem exec_written (c : Instr) (s : State) (h : Hdr) (l : List Entry) (hw : written c = some (h, l)) :
    exec c s = .next (s.withMod (s.m.partner h true l)) := by
  cases c
  case faultReset g side k =>
    change (if side = 0 ∧ k < 16 then some (g, objectWrite (0x3510 + k) 9 1)
      else if side = 1 ∧ k < 8 then some (g, objectWrite (0x3530 + k) 0xD 1) else none) = _ at hw
    change (if side = 0 then _ else _) = _
    split at hw
    · cases hw
      rw [if_pos (by omega)]
      exact State.writes_eq _ _ _ _ _ _ (by simp [*])
    · obtain ⟨hc, e⟩ := of_guard hw
      cases e
      rw [if_neg (by omega)]
      exact State.writes_eq _ _ _ _ _ _ (by simp [*])
  case start | abort | forceAbort | pause | continueTrack | clear =>
    obtain ⟨hc, e⟩ := of_guard hw
    cases e
    exact State.track_eq _ _ _ _ _ hc
  case mapEnable | loopModeWrite | scheduleWrite | destinationWrite | coefficientWrite | bankInUseWrite | jump |
      repetitiveEnable | clearTable | tableWindowWrite | calibrate | bankEnable | faultAcknowledge | restart |
      hostRequest | axisMove | axisStop | axisEnable | faultClear | reReference | setPosition | triggerArm |
      tpoArm | tpoDisarm | canEnable | canDisable | canSend | recover | queueAcknowledge | accessServiceEnable =>
    obtain ⟨hc, e⟩ := of_guard hw
    cases e
    exact State.writes_eq _ _ _ _ _ _ (by simpa using hc)
  case evict | returnToService | skewCalibration | resetArm | resetConfirm | softwareFullReset | remoteReset |
      blockReset | setTime | galleryClear | powerRequestRun | powerRequestIdle | powerRequestStandby |
      tokenRequest | tokenRelease | pulseTest | stairwellBegin | stairwellFinish | stairwellCancel | loadOffset
      | swap | firmwareBegin | firmwareFinish | firmwareCancel | activate | confirm | firmwareOffset =>
    cases Option.some.inj hw
    exact State.writes_eq _ _ _ _ _ _ rfl
  case loadData | patch | firmwareData | registerWrite =>
    cases Option.some.inj hw
    rfl
  case safetyConfigWrite =>
    obtain ⟨hc, e⟩ := of_guard hw
    cases e
    simp only [exec, execSafetyConfigWrite, State.on, hc, if_true]
    rfl
  all_goals exact nomatch (show none = some (h, l) from hw)

end Sys2Proof.Machine
end

