-- ==== Sys2Proof/Laws/State.lean ====
section
/-! SUPPORT. What each update of the state leaves alone, field by field, and what the ways in which a command acts on the
block come to. -/

namespace Sys2Proof.Machine

/-! ### The block -/

@[simp] theorem State.withMod_m (s : State) (m : Mod) : (s.withMod m).m = m := rfl
@[simp] theorem State.withMod_pending (s : State) (m : Mod) : (s.withMod m).pending = s.pending := rfl
@[simp] theorem State.withMod_self (s : State) : s.withMod s.m = s := rfl
@[simp] theorem State.withMod_withMod (s : State) (m n : Mod) : (s.withMod m).withMod n = s.withMod n := rfl

/-- A command that acts on the module answers the block with the module changed. -/
theorem State.on_eq (s : State) (f : Mod → Mod) : s.on f = .next (s.withMod (f s.m)) := rfl
theorem State.on_next (s t : State) (f : Mod → Mod) : s.on f = .next t ↔ t = s.withMod (f s.m) := by
  rw [State.on_eq, Host.Outcome.next.injEq, eq_comm]
theorem State.inService_run (s : State) (f : Mod → Mod) (h : s.m.life = .run) : s.inService f = .next (s.withMod (f s.m)) := by
  simp [State.inService, State.on_eq, Mod.serving, h]
theorem State.inService_out (s : State) (f : Mod → Mod) (h : s.m.life ≠ .run) : s.inService f = .next s := by
  simp [State.inService, State.on_eq, Mod.serving, h]
theorem State.supplied_on (s : State) (f : Mod → Mod) (h : s.m.life ≠ .off) : s.supplied f = .next (s.withMod (f s.m)) := by
  simp [State.supplied, State.on_eq, h]
theorem State.supplied_off (s : State) (f : Mod → Mod) (h : s.m.life = .off) : s.supplied f = .next s := by
  simp [State.supplied, State.on_eq, h]
theorem State.fielded_on (s : State) (f : Mod → Mod) (h : s.m.field.powered = true) :
    s.fielded f = .next (s.withMod (f s.m)) := by
  simp [State.fielded, State.on_eq, h]
theorem State.fielded_off (s : State) (f : Mod → Mod) (h : s.m.field.powered = false) : s.fielded f = .next s := by
  simp [State.fielded, State.on_eq, h]

/-! ### The updates of the module -/

@[simp] theorem Mod.setCfg_frame (m : Mod) (idx sub v : Nat) :
    (m.setCfg idx sub v).ro = m.ro ∧ (m.setCfg idx sub v).com = m.com ∧ (m.setCfg idx sub v).life = m.life ∧
    (m.setCfg idx sub v).tread = m.tread ∧ (m.setCfg idx sub v).fresh = m.fresh ∧
    (m.setCfg idx sub v).flown = m.flown ∧ (m.setCfg idx sub v).staged = m.staged ∧
    (m.setCfg idx sub v).reads = m.reads ∧ (m.setCfg idx sub v).replies = m.replies ∧
    (m.setCfg idx sub v).waiting = m.waiting ∧ (m.setCfg idx sub v).arrivals = m.arrivals ∧
    (m.setCfg idx sub v).out = m.out ∧ (m.setCfg idx sub v).hall = m.hall ∧
    (m.setCfg idx sub v).hallCom = m.hallCom ∧ (m.setCfg idx sub v).reserved = m.reserved ∧
    (m.setCfg idx sub v).barred = m.barred ∧ (m.setCfg idx sub v).switch = m.switch ∧
    (m.setCfg idx sub v).asks = m.asks ∧ (m.setCfg idx sub v).tracks = m.tracks ∧
    (m.setCfg idx sub v).pulses = m.pulses ∧ (m.setCfg idx sub v).landings = m.landings ∧
    (m.setCfg idx sub v).axRefused = m.axRefused ∧ (m.setCfg idx sub v).bankA = m.bankA ∧
    (m.setCfg idx sub v).bankB = m.bankB ∧ (m.setCfg idx sub v).load = m.load ∧
    (m.setCfg idx sub v).selector = m.selector ∧ (m.setCfg idx sub v).undo = m.undo ∧
    (m.setCfg idx sub v).loops = m.loops ∧ (m.setCfg idx sub v).released = m.released ∧
    (m.setCfg idx sub v).poolDue = m.poolDue ∧ (m.setCfg idx sub v).pool = m.pool ∧
    (m.setCfg idx sub v).engine = m.engine ∧ (m.setCfg idx sub v).inputs = m.inputs ∧
    (m.setCfg idx sub v).convs = m.convs ∧ (m.setCfg idx sub v).eff = m.eff ∧ (m.setCfg idx sub v).scans = m.scans ∧
    (m.setCfg idx sub v).cal = m.cal ∧ (m.setCfg idx sub v).calDue = m.calDue ∧
    (m.setCfg idx sub v).field = m.field ∧ (m.setCfg idx sub v).fbanks = m.fbanks ∧
    (m.setCfg idx sub v).safety = m.safety ∧ (m.setCfg idx sub v).snapSafety = m.snapSafety ∧
    (m.setCfg idx sub v).snapPairs = m.snapPairs ∧ (m.setCfg idx sub v).snapFault = m.snapFault ∧
    (m.setCfg idx sub v).snapBanks = m.snapBanks ∧ (m.setCfg idx sub v).snapIn = m.snapIn ∧
    (m.setCfg idx sub v).snapOut = m.snapOut ∧ (m.setCfg idx sub v).snapDom = m.snapDom ∧
    (m.setCfg idx sub v).snapAo = m.snapAo ∧ (m.setCfg idx sub v).reqs = m.reqs ∧
    (m.setCfg idx sub v).levels = m.levels ∧ (m.setCfg idx sub v).axes = m.axes ∧
    (m.setCfg idx sub v).axesCom = m.axesCom ∧ (m.setCfg idx sub v).links = m.links ∧
    (m.setCfg idx sub v).gal = m.gal ∧ (m.setCfg idx sub v).trg = m.trg ∧
    (m.setCfg idx sub v).tpoLevel = m.tpoLevel ∧ (m.setCfg idx sub v).tiles = m.tiles ∧
    (m.setCfg idx sub v).streams = m.streams ∧ (m.setCfg idx sub v).record = m.record ∧
    (m.setCfg idx sub v).chain2 = m.chain2 ∧ (m.setCfg idx sub v).chain4 = m.chain4 ∧
    (m.setCfg idx sub v).canObjs = m.canObjs ∧ (m.setCfg idx sub v).canPorts = m.canPorts ∧
    (m.setCfg idx sub v).journal = m.journal ∧ (m.setCfg idx sub v).reset = m.reset ∧
    (m.setCfg idx sub v).power = m.power ∧ (m.setCfg idx sub v).firmware = m.firmware ∧
    (m.setCfg idx sub v).time = m.time ∧ (m.setCfg idx sub v).tpos = m.tpos ∧
    (m.setCfg idx sub v).tpoNow = m.tpoNow ∧ (m.setCfg idx sub v).wlog = m.wlog ∧
    (m.setCfg idx sub v).wold = m.wold ∧
    (m.setCfg idx sub v).kept = m.kept ∧ (m.setCfg idx sub v).loadTop = m.loadTop ∧
    (m.setCfg idx sub v).effWas = m.effWas ∧ (m.setCfg idx sub v).effAt = m.effAt ∧ (m.setCfg idx sub v).skewSince = m.skewSince ∧
    (m.setCfg idx sub v).skewPast = m.skewPast ∧ (m.setCfg idx sub v).orphans = m.orphans ∧ (m.setCfg idx sub v).reruns = m.reruns :=
  by repeat' constructor
@[simp] theorem Mod.setCfgOf_frame (m : Mod) (a idx sub v : Nat) :
    (m.setCfgOf a idx sub v).ro = m.ro ∧ (m.setCfgOf a idx sub v).com = m.com ∧
    (m.setCfgOf a idx sub v).life = m.life ∧ (m.setCfgOf a idx sub v).tread = m.tread ∧
    (m.setCfgOf a idx sub v).fresh = m.fresh ∧ (m.setCfgOf a idx sub v).flown = m.flown ∧
    (m.setCfgOf a idx sub v).staged = m.staged ∧ (m.setCfgOf a idx sub v).reads = m.reads ∧
    (m.setCfgOf a idx sub v).replies = m.replies ∧ (m.setCfgOf a idx sub v).waiting = m.waiting ∧
    (m.setCfgOf a idx sub v).arrivals = m.arrivals ∧ (m.setCfgOf a idx sub v).out = m.out ∧
    (m.setCfgOf a idx sub v).hall = m.hall ∧ (m.setCfgOf a idx sub v).hallCom = m.hallCom ∧
    (m.setCfgOf a idx sub v).reserved = m.reserved ∧ (m.setCfgOf a idx sub v).barred = m.barred ∧
    (m.setCfgOf a idx sub v).switch = m.switch ∧ (m.setCfgOf a idx sub v).asks = m.asks ∧
    (m.setCfgOf a idx sub v).tracks = m.tracks ∧ (m.setCfgOf a idx sub v).pulses = m.pulses ∧
    (m.setCfgOf a idx sub v).landings = m.landings ∧ (m.setCfgOf a idx sub v).axRefused = m.axRefused ∧
    (m.setCfgOf a idx sub v).bankA = m.bankA ∧ (m.setCfgOf a idx sub v).bankB = m.bankB ∧
    (m.setCfgOf a idx sub v).load = m.load ∧ (m.setCfgOf a idx sub v).selector = m.selector ∧
    (m.setCfgOf a idx sub v).undo = m.undo ∧ (m.setCfgOf a idx sub v).loops = m.loops ∧
    (m.setCfgOf a idx sub v).released = m.released ∧ (m.setCfgOf a idx sub v).poolDue = m.poolDue ∧
    (m.setCfgOf a idx sub v).pool = m.pool ∧ (m.setCfgOf a idx sub v).engine = m.engine ∧
    (m.setCfgOf a idx sub v).inputs = m.inputs ∧ (m.setCfgOf a idx sub v).convs = m.convs ∧
    (m.setCfgOf a idx sub v).eff = m.eff ∧ (m.setCfgOf a idx sub v).scans = m.scans ∧
    (m.setCfgOf a idx sub v).cal = m.cal ∧ (m.setCfgOf a idx sub v).calDue = m.calDue ∧
    (m.setCfgOf a idx sub v).field = m.field ∧ (m.setCfgOf a idx sub v).fbanks = m.fbanks ∧
    (m.setCfgOf a idx sub v).safety = m.safety ∧ (m.setCfgOf a idx sub v).snapSafety = m.snapSafety ∧
    (m.setCfgOf a idx sub v).snapPairs = m.snapPairs ∧ (m.setCfgOf a idx sub v).snapFault = m.snapFault ∧
    (m.setCfgOf a idx sub v).snapBanks = m.snapBanks ∧ (m.setCfgOf a idx sub v).snapIn = m.snapIn ∧
    (m.setCfgOf a idx sub v).snapOut = m.snapOut ∧ (m.setCfgOf a idx sub v).snapDom = m.snapDom ∧
    (m.setCfgOf a idx sub v).snapAo = m.snapAo ∧ (m.setCfgOf a idx sub v).reqs = m.reqs ∧
    (m.setCfgOf a idx sub v).levels = m.levels ∧ (m.setCfgOf a idx sub v).axes = m.axes ∧
    (m.setCfgOf a idx sub v).axesCom = m.axesCom ∧ (m.setCfgOf a idx sub v).links = m.links ∧
    (m.setCfgOf a idx sub v).gal = m.gal ∧ (m.setCfgOf a idx sub v).trg = m.trg ∧
    (m.setCfgOf a idx sub v).tpoLevel = m.tpoLevel ∧ (m.setCfgOf a idx sub v).tiles = m.tiles ∧
    (m.setCfgOf a idx sub v).streams = m.streams ∧ (m.setCfgOf a idx sub v).record = m.record ∧
    (m.setCfgOf a idx sub v).chain2 = m.chain2 ∧ (m.setCfgOf a idx sub v).chain4 = m.chain4 ∧
    (m.setCfgOf a idx sub v).canObjs = m.canObjs ∧ (m.setCfgOf a idx sub v).canPorts = m.canPorts ∧
    (m.setCfgOf a idx sub v).journal = m.journal ∧ (m.setCfgOf a idx sub v).reset = m.reset ∧
    (m.setCfgOf a idx sub v).power = m.power ∧ (m.setCfgOf a idx sub v).firmware = m.firmware ∧
    (m.setCfgOf a idx sub v).time = m.time ∧ (m.setCfgOf a idx sub v).tpos = m.tpos ∧
    (m.setCfgOf a idx sub v).tpoNow = m.tpoNow ∧ (m.setCfgOf a idx sub v).wlog = m.wlog ∧
    (m.setCfgOf a idx sub v).wold = m.wold ∧
    (m.setCfgOf a idx sub v).kept = m.kept ∧ (m.setCfgOf a idx sub v).loadTop = m.loadTop ∧
    (m.setCfgOf a idx sub v).effWas = m.effWas ∧ (m.setCfgOf a idx sub v).effAt = m.effAt ∧ (m.setCfgOf a idx sub v).skewSince = m.skewSince ∧
    (m.setCfgOf a idx sub v).skewPast = m.skewPast ∧ (m.setCfgOf a idx sub v).orphans = m.orphans ∧ (m.setCfgOf a idx sub v).reruns = m.reruns :=
  by repeat' constructor
@[simp] theorem Mod.setRo_frame (m : Mod) (idx sub v : Nat) :
    (m.setRo idx sub v).objs = m.objs ∧ (m.setRo idx sub v).com = m.com ∧ (m.setRo idx sub v).life = m.life ∧
    (m.setRo idx sub v).tread = m.tread ∧ (m.setRo idx sub v).fresh = m.fresh ∧ (m.setRo idx sub v).flown = m.flown ∧
    (m.setRo idx sub v).staged = m.staged ∧ (m.setRo idx sub v).reads = m.reads ∧
    (m.setRo idx sub v).replies = m.replies ∧ (m.setRo idx sub v).waiting = m.waiting ∧
    (m.setRo idx sub v).arrivals = m.arrivals ∧ (m.setRo idx sub v).out = m.out ∧ (m.setRo idx sub v).hall = m.hall ∧
    (m.setRo idx sub v).hallCom = m.hallCom ∧ (m.setRo idx sub v).reserved = m.reserved ∧
    (m.setRo idx sub v).barred = m.barred ∧ (m.setRo idx sub v).switch = m.switch ∧
    (m.setRo idx sub v).asks = m.asks ∧ (m.setRo idx sub v).tracks = m.tracks ∧
    (m.setRo idx sub v).pulses = m.pulses ∧ (m.setRo idx sub v).landings = m.landings ∧
    (m.setRo idx sub v).axRefused = m.axRefused ∧ (m.setRo idx sub v).bankA = m.bankA ∧
    (m.setRo idx sub v).bankB = m.bankB ∧ (m.setRo idx sub v).load = m.load ∧
    (m.setRo idx sub v).selector = m.selector ∧ (m.setRo idx sub v).undo = m.undo ∧
    (m.setRo idx sub v).loops = m.loops ∧ (m.setRo idx sub v).released = m.released ∧
    (m.setRo idx sub v).poolDue = m.poolDue ∧ (m.setRo idx sub v).pool = m.pool ∧
    (m.setRo idx sub v).engine = m.engine ∧ (m.setRo idx sub v).inputs = m.inputs ∧
    (m.setRo idx sub v).convs = m.convs ∧ (m.setRo idx sub v).eff = m.eff ∧ (m.setRo idx sub v).scans = m.scans ∧
    (m.setRo idx sub v).cal = m.cal ∧ (m.setRo idx sub v).calDue = m.calDue ∧ (m.setRo idx sub v).field = m.field ∧
    (m.setRo idx sub v).fbanks = m.fbanks ∧ (m.setRo idx sub v).safety = m.safety ∧
    (m.setRo idx sub v).snapSafety = m.snapSafety ∧ (m.setRo idx sub v).snapPairs = m.snapPairs ∧
    (m.setRo idx sub v).snapFault = m.snapFault ∧ (m.setRo idx sub v).snapBanks = m.snapBanks ∧
    (m.setRo idx sub v).snapIn = m.snapIn ∧ (m.setRo idx sub v).snapOut = m.snapOut ∧
    (m.setRo idx sub v).snapDom = m.snapDom ∧ (m.setRo idx sub v).snapAo = m.snapAo ∧
    (m.setRo idx sub v).reqs = m.reqs ∧ (m.setRo idx sub v).levels = m.levels ∧ (m.setRo idx sub v).axes = m.axes ∧
    (m.setRo idx sub v).axesCom = m.axesCom ∧ (m.setRo idx sub v).links = m.links ∧ (m.setRo idx sub v).gal = m.gal ∧
    (m.setRo idx sub v).trg = m.trg ∧ (m.setRo idx sub v).tpoLevel = m.tpoLevel ∧
    (m.setRo idx sub v).tiles = m.tiles ∧ (m.setRo idx sub v).streams = m.streams ∧
    (m.setRo idx sub v).record = m.record ∧ (m.setRo idx sub v).chain2 = m.chain2 ∧
    (m.setRo idx sub v).chain4 = m.chain4 ∧ (m.setRo idx sub v).canObjs = m.canObjs ∧
    (m.setRo idx sub v).canPorts = m.canPorts ∧ (m.setRo idx sub v).journal = m.journal ∧
    (m.setRo idx sub v).reset = m.reset ∧ (m.setRo idx sub v).power = m.power ∧
    (m.setRo idx sub v).firmware = m.firmware ∧ (m.setRo idx sub v).time = m.time ∧
    (m.setRo idx sub v).tpos = m.tpos ∧ (m.setRo idx sub v).tpoNow = m.tpoNow ∧ (m.setRo idx sub v).wlog = m.wlog ∧
    (m.setRo idx sub v).wold = m.wold ∧
    (m.setRo idx sub v).kept = m.kept ∧ (m.setRo idx sub v).loadTop = m.loadTop ∧
    (m.setRo idx sub v).effWas = m.effWas ∧ (m.setRo idx sub v).effAt = m.effAt ∧ (m.setRo idx sub v).skewSince = m.skewSince ∧
    (m.setRo idx sub v).skewPast = m.skewPast ∧ (m.setRo idx sub v).orphans = m.orphans ∧ (m.setRo idx sub v).reruns = m.reruns :=
  by repeat' constructor
@[simp] theorem Mod.setLoop_frame (m : Mod) (j : Nat) (s : LoopSt) :
    (m.setLoop j s).objs = m.objs ∧ (m.setLoop j s).ro = m.ro ∧ (m.setLoop j s).com = m.com ∧
    (m.setLoop j s).life = m.life ∧ (m.setLoop j s).tread = m.tread ∧ (m.setLoop j s).fresh = m.fresh ∧
    (m.setLoop j s).flown = m.flown ∧ (m.setLoop j s).staged = m.staged ∧ (m.setLoop j s).reads = m.reads ∧
    (m.setLoop j s).replies = m.replies ∧ (m.setLoop j s).waiting = m.waiting ∧
    (m.setLoop j s).arrivals = m.arrivals ∧ (m.setLoop j s).out = m.out ∧ (m.setLoop j s).hall = m.hall ∧
    (m.setLoop j s).hallCom = m.hallCom ∧ (m.setLoop j s).reserved = m.reserved ∧ (m.setLoop j s).barred = m.barred ∧
    (m.setLoop j s).switch = m.switch ∧ (m.setLoop j s).asks = m.asks ∧ (m.setLoop j s).tracks = m.tracks ∧
    (m.setLoop j s).pulses = m.pulses ∧ (m.setLoop j s).landings = m.landings ∧
    (m.setLoop j s).axRefused = m.axRefused ∧ (m.setLoop j s).bankA = m.bankA ∧ (m.setLoop j s).bankB = m.bankB ∧
    (m.setLoop j s).load = m.load ∧ (m.setLoop j s).selector = m.selector ∧ (m.setLoop j s).undo = m.undo ∧
    (m.setLoop j s).released = m.released ∧ (m.setLoop j s).poolDue = m.poolDue ∧ (m.setLoop j s).pool = m.pool ∧
    (m.setLoop j s).engine = m.engine ∧ (m.setLoop j s).inputs = m.inputs ∧ (m.setLoop j s).convs = m.convs ∧
    (m.setLoop j s).eff = m.eff ∧ (m.setLoop j s).scans = m.scans ∧ (m.setLoop j s).cal = m.cal ∧
    (m.setLoop j s).calDue = m.calDue ∧ (m.setLoop j s).field = m.field ∧ (m.setLoop j s).fbanks = m.fbanks ∧
    (m.setLoop j s).safety = m.safety ∧ (m.setLoop j s).snapSafety = m.snapSafety ∧
    (m.setLoop j s).snapPairs = m.snapPairs ∧ (m.setLoop j s).snapFault = m.snapFault ∧
    (m.setLoop j s).snapBanks = m.snapBanks ∧ (m.setLoop j s).snapIn = m.snapIn ∧
    (m.setLoop j s).snapOut = m.snapOut ∧ (m.setLoop j s).snapDom = m.snapDom ∧ (m.setLoop j s).snapAo = m.snapAo ∧
    (m.setLoop j s).reqs = m.reqs ∧ (m.setLoop j s).levels = m.levels ∧ (m.setLoop j s).axes = m.axes ∧
    (m.setLoop j s).axesCom = m.axesCom ∧ (m.setLoop j s).links = m.links ∧ (m.setLoop j s).gal = m.gal ∧
    (m.setLoop j s).trg = m.trg ∧ (m.setLoop j s).tpoLevel = m.tpoLevel ∧ (m.setLoop j s).tiles = m.tiles ∧
    (m.setLoop j s).streams = m.streams ∧ (m.setLoop j s).record = m.record ∧ (m.setLoop j s).chain2 = m.chain2 ∧
    (m.setLoop j s).chain4 = m.chain4 ∧ (m.setLoop j s).canObjs = m.canObjs ∧ (m.setLoop j s).canPorts = m.canPorts ∧
    (m.setLoop j s).journal = m.journal ∧ (m.setLoop j s).reset = m.reset ∧ (m.setLoop j s).power = m.power ∧
    (m.setLoop j s).firmware = m.firmware ∧ (m.setLoop j s).time = m.time ∧ (m.setLoop j s).tpos = m.tpos ∧
    (m.setLoop j s).tpoNow = m.tpoNow ∧ (m.setLoop j s).wlog = m.wlog ∧ (m.setLoop j s).wold = m.wold ∧
    (m.setLoop j s).kept = m.kept ∧ (m.setLoop j s).loadTop = m.loadTop ∧
    (m.setLoop j s).effWas = m.effWas ∧ (m.setLoop j s).effAt = m.effAt ∧ (m.setLoop j s).skewSince = m.skewSince ∧
    (m.setLoop j s).skewPast = m.skewPast ∧ (m.setLoop j s).orphans = m.orphans ∧ (m.setLoop j s).reruns = m.reruns :=
  by repeat' constructor
@[simp] theorem Mod.setTrack_frame (m : Mod) (t : Nat) (s : TrackSt) :
    (m.setTrack t s).objs = m.objs ∧ (m.setTrack t s).ro = m.ro ∧ (m.setTrack t s).com = m.com ∧
    (m.setTrack t s).life = m.life ∧ (m.setTrack t s).tread = m.tread ∧ (m.setTrack t s).fresh = m.fresh ∧
    (m.setTrack t s).flown = m.flown ∧ (m.setTrack t s).staged = m.staged ∧ (m.setTrack t s).reads = m.reads ∧
    (m.setTrack t s).replies = m.replies ∧ (m.setTrack t s).waiting = m.waiting ∧
    (m.setTrack t s).arrivals = m.arrivals ∧ (m.setTrack t s).out = m.out ∧ (m.setTrack t s).hall = m.hall ∧
    (m.setTrack t s).hallCom = m.hallCom ∧ (m.setTrack t s).reserved = m.reserved ∧
    (m.setTrack t s).barred = m.barred ∧ (m.setTrack t s).switch = m.switch ∧ (m.setTrack t s).asks = m.asks ∧
    (m.setTrack t s).pulses = m.pulses ∧ (m.setTrack t s).landings = m.landings ∧
    (m.setTrack t s).axRefused = m.axRefused ∧ (m.setTrack t s).bankA = m.bankA ∧ (m.setTrack t s).bankB = m.bankB ∧
    (m.setTrack t s).load = m.load ∧ (m.setTrack t s).selector = m.selector ∧ (m.setTrack t s).undo = m.undo ∧
    (m.setTrack t s).loops = m.loops ∧ (m.setTrack t s).released = m.released ∧
    (m.setTrack t s).poolDue = m.poolDue ∧ (m.setTrack t s).pool = m.pool ∧ (m.setTrack t s).engine = m.engine ∧
    (m.setTrack t s).inputs = m.inputs ∧ (m.setTrack t s).convs = m.convs ∧ (m.setTrack t s).eff = m.eff ∧
    (m.setTrack t s).scans = m.scans ∧ (m.setTrack t s).cal = m.cal ∧ (m.setTrack t s).calDue = m.calDue ∧
    (m.setTrack t s).field = m.field ∧ (m.setTrack t s).fbanks = m.fbanks ∧ (m.setTrack t s).safety = m.safety ∧
    (m.setTrack t s).snapSafety = m.snapSafety ∧ (m.setTrack t s).snapPairs = m.snapPairs ∧
    (m.setTrack t s).snapFault = m.snapFault ∧ (m.setTrack t s).snapBanks = m.snapBanks ∧
    (m.setTrack t s).snapIn = m.snapIn ∧ (m.setTrack t s).snapOut = m.snapOut ∧
    (m.setTrack t s).snapDom = m.snapDom ∧ (m.setTrack t s).snapAo = m.snapAo ∧ (m.setTrack t s).reqs = m.reqs ∧
    (m.setTrack t s).levels = m.levels ∧ (m.setTrack t s).axes = m.axes ∧ (m.setTrack t s).axesCom = m.axesCom ∧
    (m.setTrack t s).links = m.links ∧ (m.setTrack t s).gal = m.gal ∧ (m.setTrack t s).trg = m.trg ∧
    (m.setTrack t s).tpoLevel = m.tpoLevel ∧ (m.setTrack t s).tiles = m.tiles ∧
    (m.setTrack t s).streams = m.streams ∧ (m.setTrack t s).record = m.record ∧ (m.setTrack t s).chain2 = m.chain2 ∧
    (m.setTrack t s).chain4 = m.chain4 ∧ (m.setTrack t s).canObjs = m.canObjs ∧
    (m.setTrack t s).canPorts = m.canPorts ∧ (m.setTrack t s).journal = m.journal ∧
    (m.setTrack t s).reset = m.reset ∧ (m.setTrack t s).power = m.power ∧ (m.setTrack t s).firmware = m.firmware ∧
    (m.setTrack t s).time = m.time ∧ (m.setTrack t s).tpos = m.tpos ∧ (m.setTrack t s).tpoNow = m.tpoNow ∧
    (m.setTrack t s).wlog = m.wlog ∧ (m.setTrack t s).wold = m.wold ∧
    (m.setTrack t s).kept = m.kept ∧ (m.setTrack t s).loadTop = m.loadTop ∧
    (m.setTrack t s).effWas = m.effWas ∧ (m.setTrack t s).effAt = m.effAt ∧ (m.setTrack t s).skewSince = m.skewSince ∧
    (m.setTrack t s).skewPast = m.skewPast ∧ (m.setTrack t s).orphans = m.orphans ∧ (m.setTrack t s).reruns = m.reruns :=
  by repeat' constructor
@[simp] theorem Mod.setInp_frame (m : Mod) (x : Nat) (s : InpSt) :
    (m.setInp x s).objs = m.objs ∧ (m.setInp x s).ro = m.ro ∧ (m.setInp x s).com = m.com ∧
    (m.setInp x s).life = m.life ∧ (m.setInp x s).tread = m.tread ∧ (m.setInp x s).fresh = m.fresh ∧
    (m.setInp x s).flown = m.flown ∧ (m.setInp x s).staged = m.staged ∧ (m.setInp x s).reads = m.reads ∧
    (m.setInp x s).replies = m.replies ∧ (m.setInp x s).waiting = m.waiting ∧ (m.setInp x s).arrivals = m.arrivals ∧
    (m.setInp x s).out = m.out ∧ (m.setInp x s).hall = m.hall ∧ (m.setInp x s).hallCom = m.hallCom ∧
    (m.setInp x s).reserved = m.reserved ∧ (m.setInp x s).barred = m.barred ∧ (m.setInp x s).switch = m.switch ∧
    (m.setInp x s).asks = m.asks ∧ (m.setInp x s).tracks = m.tracks ∧ (m.setInp x s).pulses = m.pulses ∧
    (m.setInp x s).landings = m.landings ∧ (m.setInp x s).axRefused = m.axRefused ∧ (m.setInp x s).bankA = m.bankA ∧
    (m.setInp x s).bankB = m.bankB ∧ (m.setInp x s).load = m.load ∧ (m.setInp x s).selector = m.selector ∧
    (m.setInp x s).undo = m.undo ∧ (m.setInp x s).loops = m.loops ∧ (m.setInp x s).released = m.released ∧
    (m.setInp x s).poolDue = m.poolDue ∧ (m.setInp x s).pool = m.pool ∧ (m.setInp x s).engine = m.engine ∧
    (m.setInp x s).convs = m.convs ∧ (m.setInp x s).eff = m.eff ∧ (m.setInp x s).scans = m.scans ∧
    (m.setInp x s).cal = m.cal ∧ (m.setInp x s).calDue = m.calDue ∧ (m.setInp x s).field = m.field ∧
    (m.setInp x s).fbanks = m.fbanks ∧ (m.setInp x s).safety = m.safety ∧ (m.setInp x s).snapSafety = m.snapSafety ∧
    (m.setInp x s).snapPairs = m.snapPairs ∧ (m.setInp x s).snapFault = m.snapFault ∧
    (m.setInp x s).snapBanks = m.snapBanks ∧ (m.setInp x s).snapIn = m.snapIn ∧ (m.setInp x s).snapOut = m.snapOut ∧
    (m.setInp x s).snapDom = m.snapDom ∧ (m.setInp x s).snapAo = m.snapAo ∧ (m.setInp x s).reqs = m.reqs ∧
    (m.setInp x s).levels = m.levels ∧ (m.setInp x s).axes = m.axes ∧ (m.setInp x s).axesCom = m.axesCom ∧
    (m.setInp x s).links = m.links ∧ (m.setInp x s).gal = m.gal ∧ (m.setInp x s).trg = m.trg ∧
    (m.setInp x s).tpoLevel = m.tpoLevel ∧ (m.setInp x s).tiles = m.tiles ∧ (m.setInp x s).streams = m.streams ∧
    (m.setInp x s).record = m.record ∧ (m.setInp x s).chain2 = m.chain2 ∧ (m.setInp x s).chain4 = m.chain4 ∧
    (m.setInp x s).canObjs = m.canObjs ∧ (m.setInp x s).canPorts = m.canPorts ∧ (m.setInp x s).journal = m.journal ∧
    (m.setInp x s).reset = m.reset ∧ (m.setInp x s).power = m.power ∧ (m.setInp x s).firmware = m.firmware ∧
    (m.setInp x s).time = m.time ∧ (m.setInp x s).tpos = m.tpos ∧ (m.setInp x s).tpoNow = m.tpoNow ∧
    (m.setInp x s).wlog = m.wlog ∧ (m.setInp x s).wold = m.wold ∧
    (m.setInp x s).kept = m.kept ∧ (m.setInp x s).loadTop = m.loadTop ∧
    (m.setInp x s).effWas = m.effWas ∧ (m.setInp x s).effAt = m.effAt ∧ (m.setInp x s).skewSince = m.skewSince ∧
    (m.setInp x s).skewPast = m.skewPast ∧ (m.setInp x s).orphans = m.orphans ∧ (m.setInp x s).reruns = m.reruns :=
  by repeat' constructor
@[simp] theorem Mod.setConv_frame (m : Mod) (c : Nat) (s : ConvSt) :
    (m.setConv c s).objs = m.objs ∧ (m.setConv c s).ro = m.ro ∧ (m.setConv c s).com = m.com ∧
    (m.setConv c s).life = m.life ∧ (m.setConv c s).tread = m.tread ∧ (m.setConv c s).fresh = m.fresh ∧
    (m.setConv c s).flown = m.flown ∧ (m.setConv c s).staged = m.staged ∧ (m.setConv c s).reads = m.reads ∧
    (m.setConv c s).replies = m.replies ∧ (m.setConv c s).waiting = m.waiting ∧
    (m.setConv c s).arrivals = m.arrivals ∧ (m.setConv c s).out = m.out ∧ (m.setConv c s).hall = m.hall ∧
    (m.setConv c s).hallCom = m.hallCom ∧ (m.setConv c s).reserved = m.reserved ∧ (m.setConv c s).barred = m.barred ∧
    (m.setConv c s).switch = m.switch ∧ (m.setConv c s).asks = m.asks ∧ (m.setConv c s).tracks = m.tracks ∧
    (m.setConv c s).pulses = m.pulses ∧ (m.setConv c s).landings = m.landings ∧
    (m.setConv c s).axRefused = m.axRefused ∧ (m.setConv c s).bankA = m.bankA ∧ (m.setConv c s).bankB = m.bankB ∧
    (m.setConv c s).load = m.load ∧ (m.setConv c s).selector = m.selector ∧ (m.setConv c s).undo = m.undo ∧
    (m.setConv c s).loops = m.loops ∧ (m.setConv c s).released = m.released ∧ (m.setConv c s).poolDue = m.poolDue ∧
    (m.setConv c s).pool = m.pool ∧ (m.setConv c s).engine = m.engine ∧ (m.setConv c s).inputs = m.inputs ∧
    (m.setConv c s).eff = m.eff ∧ (m.setConv c s).scans = m.scans ∧ (m.setConv c s).cal = m.cal ∧
    (m.setConv c s).calDue = m.calDue ∧ (m.setConv c s).field = m.field ∧ (m.setConv c s).fbanks = m.fbanks ∧
    (m.setConv c s).safety = m.safety ∧ (m.setConv c s).snapSafety = m.snapSafety ∧
    (m.setConv c s).snapPairs = m.snapPairs ∧ (m.setConv c s).snapFault = m.snapFault ∧
    (m.setConv c s).snapBanks = m.snapBanks ∧ (m.setConv c s).snapIn = m.snapIn ∧
    (m.setConv c s).snapOut = m.snapOut ∧ (m.setConv c s).snapDom = m.snapDom ∧ (m.setConv c s).snapAo = m.snapAo ∧
    (m.setConv c s).reqs = m.reqs ∧ (m.setConv c s).levels = m.levels ∧ (m.setConv c s).axes = m.axes ∧
    (m.setConv c s).axesCom = m.axesCom ∧ (m.setConv c s).links = m.links ∧ (m.setConv c s).gal = m.gal ∧
    (m.setConv c s).trg = m.trg ∧ (m.setConv c s).tpoLevel = m.tpoLevel ∧ (m.setConv c s).tiles = m.tiles ∧
    (m.setConv c s).streams = m.streams ∧ (m.setConv c s).record = m.record ∧ (m.setConv c s).chain2 = m.chain2 ∧
    (m.setConv c s).chain4 = m.chain4 ∧ (m.setConv c s).canObjs = m.canObjs ∧ (m.setConv c s).canPorts = m.canPorts ∧
    (m.setConv c s).journal = m.journal ∧ (m.setConv c s).reset = m.reset ∧ (m.setConv c s).power = m.power ∧
    (m.setConv c s).firmware = m.firmware ∧ (m.setConv c s).time = m.time ∧ (m.setConv c s).tpos = m.tpos ∧
    (m.setConv c s).tpoNow = m.tpoNow ∧ (m.setConv c s).wlog = m.wlog ∧ (m.setConv c s).wold = m.wold ∧
    (m.setConv c s).kept = m.kept ∧ (m.setConv c s).loadTop = m.loadTop ∧
    (m.setConv c s).effWas = m.effWas ∧ (m.setConv c s).effAt = m.effAt ∧ (m.setConv c s).skewSince = m.skewSince ∧
    (m.setConv c s).skewPast = m.skewPast ∧ (m.setConv c s).orphans = m.orphans ∧ (m.setConv c s).reruns = m.reruns :=
  by repeat' constructor
@[simp] theorem Mod.setFbank_frame (m : Mod) (b : Nat) (s : BankSt) :
    (m.setFbank b s).objs = m.objs ∧ (m.setFbank b s).ro = m.ro ∧ (m.setFbank b s).com = m.com ∧
    (m.setFbank b s).life = m.life ∧ (m.setFbank b s).tread = m.tread ∧ (m.setFbank b s).fresh = m.fresh ∧
    (m.setFbank b s).flown = m.flown ∧ (m.setFbank b s).staged = m.staged ∧ (m.setFbank b s).reads = m.reads ∧
    (m.setFbank b s).replies = m.replies ∧ (m.setFbank b s).waiting = m.waiting ∧
    (m.setFbank b s).arrivals = m.arrivals ∧ (m.setFbank b s).out = m.out ∧ (m.setFbank b s).hall = m.hall ∧
    (m.setFbank b s).hallCom = m.hallCom ∧ (m.setFbank b s).reserved = m.reserved ∧
    (m.setFbank b s).barred = m.barred ∧ (m.setFbank b s).switch = m.switch ∧ (m.setFbank b s).asks = m.asks ∧
    (m.setFbank b s).tracks = m.tracks ∧ (m.setFbank b s).pulses = m.pulses ∧
    (m.setFbank b s).landings = m.landings ∧ (m.setFbank b s).axRefused = m.axRefused ∧
    (m.setFbank b s).bankA = m.bankA ∧ (m.setFbank b s).bankB = m.bankB ∧ (m.setFbank b s).load = m.load ∧
    (m.setFbank b s).selector = m.selector ∧ (m.setFbank b s).undo = m.undo ∧ (m.setFbank b s).loops = m.loops ∧
    (m.setFbank b s).released = m.released ∧ (m.setFbank b s).poolDue = m.poolDue ∧ (m.setFbank b s).pool = m.pool ∧
    (m.setFbank b s).engine = m.engine ∧ (m.setFbank b s).inputs = m.inputs ∧ (m.setFbank b s).convs = m.convs ∧
    (m.setFbank b s).eff = m.eff ∧ (m.setFbank b s).scans = m.scans ∧ (m.setFbank b s).cal = m.cal ∧
    (m.setFbank b s).calDue = m.calDue ∧ (m.setFbank b s).field = m.field ∧ (m.setFbank b s).safety = m.safety ∧
    (m.setFbank b s).snapSafety = m.snapSafety ∧ (m.setFbank b s).snapPairs = m.snapPairs ∧
    (m.setFbank b s).snapFault = m.snapFault ∧ (m.setFbank b s).snapBanks = m.snapBanks ∧
    (m.setFbank b s).snapIn = m.snapIn ∧ (m.setFbank b s).snapOut = m.snapOut ∧
    (m.setFbank b s).snapDom = m.snapDom ∧ (m.setFbank b s).snapAo = m.snapAo ∧ (m.setFbank b s).reqs = m.reqs ∧
    (m.setFbank b s).levels = m.levels ∧ (m.setFbank b s).axes = m.axes ∧ (m.setFbank b s).axesCom = m.axesCom ∧
    (m.setFbank b s).links = m.links ∧ (m.setFbank b s).gal = m.gal ∧ (m.setFbank b s).trg = m.trg ∧
    (m.setFbank b s).tpoLevel = m.tpoLevel ∧ (m.setFbank b s).tiles = m.tiles ∧
    (m.setFbank b s).streams = m.streams ∧ (m.setFbank b s).record = m.record ∧ (m.setFbank b s).chain2 = m.chain2 ∧
    (m.setFbank b s).chain4 = m.chain4 ∧ (m.setFbank b s).canObjs = m.canObjs ∧
    (m.setFbank b s).canPorts = m.canPorts ∧ (m.setFbank b s).journal = m.journal ∧
    (m.setFbank b s).reset = m.reset ∧ (m.setFbank b s).power = m.power ∧ (m.setFbank b s).firmware = m.firmware ∧
    (m.setFbank b s).time = m.time ∧ (m.setFbank b s).tpos = m.tpos ∧ (m.setFbank b s).tpoNow = m.tpoNow ∧
    (m.setFbank b s).wlog = m.wlog ∧ (m.setFbank b s).wold = m.wold ∧
    (m.setFbank b s).kept = m.kept ∧ (m.setFbank b s).loadTop = m.loadTop ∧
    (m.setFbank b s).effWas = m.effWas ∧ (m.setFbank b s).effAt = m.effAt ∧ (m.setFbank b s).skewSince = m.skewSince ∧
    (m.setFbank b s).skewPast = m.skewPast ∧ (m.setFbank b s).orphans = m.orphans ∧ (m.setFbank b s).reruns = m.reruns :=
  by repeat' constructor
@[simp] theorem Mod.setAxis_frame (m : Mod) (a : Nat) (s : AxisSt) :
    (m.setAxis a s).objs = m.objs ∧ (m.setAxis a s).ro = m.ro ∧ (m.setAxis a s).com = m.com ∧
    (m.setAxis a s).life = m.life ∧ (m.setAxis a s).tread = m.tread ∧ (m.setAxis a s).fresh = m.fresh ∧
    (m.setAxis a s).flown = m.flown ∧ (m.setAxis a s).staged = m.staged ∧ (m.setAxis a s).reads = m.reads ∧
    (m.setAxis a s).replies = m.replies ∧ (m.setAxis a s).waiting = m.waiting ∧
    (m.setAxis a s).arrivals = m.arrivals ∧ (m.setAxis a s).out = m.out ∧ (m.setAxis a s).hall = m.hall ∧
    (m.setAxis a s).hallCom = m.hallCom ∧ (m.setAxis a s).reserved = m.reserved ∧ (m.setAxis a s).barred = m.barred ∧
    (m.setAxis a s).switch = m.switch ∧ (m.setAxis a s).asks = m.asks ∧ (m.setAxis a s).tracks = m.tracks ∧
    (m.setAxis a s).pulses = m.pulses ∧ (m.setAxis a s).landings = m.landings ∧
    (m.setAxis a s).axRefused = m.axRefused ∧ (m.setAxis a s).bankA = m.bankA ∧ (m.setAxis a s).bankB = m.bankB ∧
    (m.setAxis a s).load = m.load ∧ (m.setAxis a s).selector = m.selector ∧ (m.setAxis a s).undo = m.undo ∧
    (m.setAxis a s).loops = m.loops ∧ (m.setAxis a s).released = m.released ∧ (m.setAxis a s).poolDue = m.poolDue ∧
    (m.setAxis a s).pool = m.pool ∧ (m.setAxis a s).engine = m.engine ∧ (m.setAxis a s).inputs = m.inputs ∧
    (m.setAxis a s).convs = m.convs ∧ (m.setAxis a s).eff = m.eff ∧ (m.setAxis a s).scans = m.scans ∧
    (m.setAxis a s).cal = m.cal ∧ (m.setAxis a s).calDue = m.calDue ∧ (m.setAxis a s).field = m.field ∧
    (m.setAxis a s).fbanks = m.fbanks ∧ (m.setAxis a s).safety = m.safety ∧
    (m.setAxis a s).snapSafety = m.snapSafety ∧ (m.setAxis a s).snapPairs = m.snapPairs ∧
    (m.setAxis a s).snapFault = m.snapFault ∧ (m.setAxis a s).snapBanks = m.snapBanks ∧
    (m.setAxis a s).snapIn = m.snapIn ∧ (m.setAxis a s).snapOut = m.snapOut ∧ (m.setAxis a s).snapDom = m.snapDom ∧
    (m.setAxis a s).snapAo = m.snapAo ∧ (m.setAxis a s).reqs = m.reqs ∧ (m.setAxis a s).levels = m.levels ∧
    (m.setAxis a s).axesCom = m.axesCom ∧ (m.setAxis a s).links = m.links ∧ (m.setAxis a s).gal = m.gal ∧
    (m.setAxis a s).trg = m.trg ∧ (m.setAxis a s).tpoLevel = m.tpoLevel ∧ (m.setAxis a s).tiles = m.tiles ∧
    (m.setAxis a s).streams = m.streams ∧ (m.setAxis a s).record = m.record ∧ (m.setAxis a s).chain2 = m.chain2 ∧
    (m.setAxis a s).chain4 = m.chain4 ∧ (m.setAxis a s).canObjs = m.canObjs ∧ (m.setAxis a s).canPorts = m.canPorts ∧
    (m.setAxis a s).journal = m.journal ∧ (m.setAxis a s).reset = m.reset ∧ (m.setAxis a s).power = m.power ∧
    (m.setAxis a s).firmware = m.firmware ∧ (m.setAxis a s).time = m.time ∧ (m.setAxis a s).tpos = m.tpos ∧
    (m.setAxis a s).tpoNow = m.tpoNow ∧ (m.setAxis a s).wlog = m.wlog ∧ (m.setAxis a s).wold = m.wold ∧
    (m.setAxis a s).kept = m.kept ∧ (m.setAxis a s).loadTop = m.loadTop ∧
    (m.setAxis a s).effWas = m.effWas ∧ (m.setAxis a s).effAt = m.effAt ∧ (m.setAxis a s).skewSince = m.skewSince ∧
    (m.setAxis a s).skewPast = m.skewPast ∧ (m.setAxis a s).orphans = m.orphans ∧ (m.setAxis a s).reruns = m.reruns :=
  by repeat' constructor
@[simp] theorem Mod.setLink_frame (m : Mod) (k : Nat) (s : AxisLinkSt) :
    (m.setLink k s).objs = m.objs ∧ (m.setLink k s).ro = m.ro ∧ (m.setLink k s).com = m.com ∧
    (m.setLink k s).life = m.life ∧ (m.setLink k s).tread = m.tread ∧ (m.setLink k s).fresh = m.fresh ∧
    (m.setLink k s).flown = m.flown ∧ (m.setLink k s).staged = m.staged ∧ (m.setLink k s).reads = m.reads ∧
    (m.setLink k s).replies = m.replies ∧ (m.setLink k s).waiting = m.waiting ∧
    (m.setLink k s).arrivals = m.arrivals ∧ (m.setLink k s).out = m.out ∧ (m.setLink k s).hall = m.hall ∧
    (m.setLink k s).hallCom = m.hallCom ∧ (m.setLink k s).reserved = m.reserved ∧ (m.setLink k s).barred = m.barred ∧
    (m.setLink k s).switch = m.switch ∧ (m.setLink k s).asks = m.asks ∧ (m.setLink k s).tracks = m.tracks ∧
    (m.setLink k s).pulses = m.pulses ∧ (m.setLink k s).landings = m.landings ∧
    (m.setLink k s).axRefused = m.axRefused ∧ (m.setLink k s).bankA = m.bankA ∧ (m.setLink k s).bankB = m.bankB ∧
    (m.setLink k s).load = m.load ∧ (m.setLink k s).selector = m.selector ∧ (m.setLink k s).undo = m.undo ∧
    (m.setLink k s).loops = m.loops ∧ (m.setLink k s).released = m.released ∧ (m.setLink k s).poolDue = m.poolDue ∧
    (m.setLink k s).pool = m.pool ∧ (m.setLink k s).engine = m.engine ∧ (m.setLink k s).inputs = m.inputs ∧
    (m.setLink k s).convs = m.convs ∧ (m.setLink k s).eff = m.eff ∧ (m.setLink k s).scans = m.scans ∧
    (m.setLink k s).cal = m.cal ∧ (m.setLink k s).calDue = m.calDue ∧ (m.setLink k s).field = m.field ∧
    (m.setLink k s).fbanks = m.fbanks ∧ (m.setLink k s).safety = m.safety ∧
    (m.setLink k s).snapSafety = m.snapSafety ∧ (m.setLink k s).snapPairs = m.snapPairs ∧
    (m.setLink k s).snapFault = m.snapFault ∧ (m.setLink k s).snapBanks = m.snapBanks ∧
    (m.setLink k s).snapIn = m.snapIn ∧ (m.setLink k s).snapOut = m.snapOut ∧ (m.setLink k s).snapDom = m.snapDom ∧
    (m.setLink k s).snapAo = m.snapAo ∧ (m.setLink k s).reqs = m.reqs ∧ (m.setLink k s).levels = m.levels ∧
    (m.setLink k s).axes = m.axes ∧ (m.setLink k s).axesCom = m.axesCom ∧ (m.setLink k s).gal = m.gal ∧
    (m.setLink k s).trg = m.trg ∧ (m.setLink k s).tpoLevel = m.tpoLevel ∧ (m.setLink k s).tiles = m.tiles ∧
    (m.setLink k s).streams = m.streams ∧ (m.setLink k s).record = m.record ∧ (m.setLink k s).chain2 = m.chain2 ∧
    (m.setLink k s).chain4 = m.chain4 ∧ (m.setLink k s).canObjs = m.canObjs ∧ (m.setLink k s).canPorts = m.canPorts ∧
    (m.setLink k s).journal = m.journal ∧ (m.setLink k s).reset = m.reset ∧ (m.setLink k s).power = m.power ∧
    (m.setLink k s).firmware = m.firmware ∧ (m.setLink k s).time = m.time ∧ (m.setLink k s).tpos = m.tpos ∧
    (m.setLink k s).tpoNow = m.tpoNow ∧ (m.setLink k s).wlog = m.wlog ∧ (m.setLink k s).wold = m.wold ∧
    (m.setLink k s).kept = m.kept ∧ (m.setLink k s).loadTop = m.loadTop ∧
    (m.setLink k s).effWas = m.effWas ∧ (m.setLink k s).effAt = m.effAt ∧ (m.setLink k s).skewSince = m.skewSince ∧
    (m.setLink k s).skewPast = m.skewPast ∧ (m.setLink k s).orphans = m.orphans ∧ (m.setLink k s).reruns = m.reruns :=
  by repeat' constructor
@[simp] theorem Mod.setSafIn_frame (m : Mod) (k : Nat) (s : SafInSt) :
    (m.setSafIn k s).objs = m.objs ∧ (m.setSafIn k s).ro = m.ro ∧ (m.setSafIn k s).com = m.com ∧
    (m.setSafIn k s).life = m.life ∧ (m.setSafIn k s).tread = m.tread ∧ (m.setSafIn k s).fresh = m.fresh ∧
    (m.setSafIn k s).flown = m.flown ∧ (m.setSafIn k s).staged = m.staged ∧ (m.setSafIn k s).reads = m.reads ∧
    (m.setSafIn k s).replies = m.replies ∧ (m.setSafIn k s).waiting = m.waiting ∧
    (m.setSafIn k s).arrivals = m.arrivals ∧ (m.setSafIn k s).out = m.out ∧ (m.setSafIn k s).hall = m.hall ∧
    (m.setSafIn k s).hallCom = m.hallCom ∧ (m.setSafIn k s).reserved = m.reserved ∧
    (m.setSafIn k s).barred = m.barred ∧ (m.setSafIn k s).switch = m.switch ∧ (m.setSafIn k s).asks = m.asks ∧
    (m.setSafIn k s).tracks = m.tracks ∧ (m.setSafIn k s).pulses = m.pulses ∧
    (m.setSafIn k s).landings = m.landings ∧ (m.setSafIn k s).axRefused = m.axRefused ∧
    (m.setSafIn k s).bankA = m.bankA ∧ (m.setSafIn k s).bankB = m.bankB ∧ (m.setSafIn k s).load = m.load ∧
    (m.setSafIn k s).selector = m.selector ∧ (m.setSafIn k s).undo = m.undo ∧ (m.setSafIn k s).loops = m.loops ∧
    (m.setSafIn k s).released = m.released ∧ (m.setSafIn k s).poolDue = m.poolDue ∧ (m.setSafIn k s).pool = m.pool ∧
    (m.setSafIn k s).engine = m.engine ∧ (m.setSafIn k s).inputs = m.inputs ∧ (m.setSafIn k s).convs = m.convs ∧
    (m.setSafIn k s).eff = m.eff ∧ (m.setSafIn k s).scans = m.scans ∧ (m.setSafIn k s).cal = m.cal ∧
    (m.setSafIn k s).calDue = m.calDue ∧ (m.setSafIn k s).field = m.field ∧ (m.setSafIn k s).fbanks = m.fbanks ∧
    (m.setSafIn k s).snapSafety = m.snapSafety ∧ (m.setSafIn k s).snapPairs = m.snapPairs ∧
    (m.setSafIn k s).snapFault = m.snapFault ∧ (m.setSafIn k s).snapBanks = m.snapBanks ∧
    (m.setSafIn k s).snapIn = m.snapIn ∧ (m.setSafIn k s).snapOut = m.snapOut ∧
    (m.setSafIn k s).snapDom = m.snapDom ∧ (m.setSafIn k s).snapAo = m.snapAo ∧ (m.setSafIn k s).reqs = m.reqs ∧
    (m.setSafIn k s).levels = m.levels ∧ (m.setSafIn k s).axes = m.axes ∧ (m.setSafIn k s).axesCom = m.axesCom ∧
    (m.setSafIn k s).links = m.links ∧ (m.setSafIn k s).gal = m.gal ∧ (m.setSafIn k s).trg = m.trg ∧
    (m.setSafIn k s).tpoLevel = m.tpoLevel ∧ (m.setSafIn k s).tiles = m.tiles ∧
    (m.setSafIn k s).streams = m.streams ∧ (m.setSafIn k s).record = m.record ∧ (m.setSafIn k s).chain2 = m.chain2 ∧
    (m.setSafIn k s).chain4 = m.chain4 ∧ (m.setSafIn k s).canObjs = m.canObjs ∧
    (m.setSafIn k s).canPorts = m.canPorts ∧ (m.setSafIn k s).journal = m.journal ∧
    (m.setSafIn k s).reset = m.reset ∧ (m.setSafIn k s).power = m.power ∧ (m.setSafIn k s).firmware = m.firmware ∧
    (m.setSafIn k s).time = m.time ∧ (m.setSafIn k s).tpos = m.tpos ∧ (m.setSafIn k s).tpoNow = m.tpoNow ∧
    (m.setSafIn k s).wlog = m.wlog ∧ (m.setSafIn k s).wold = m.wold ∧
    (m.setSafIn k s).kept = m.kept ∧ (m.setSafIn k s).loadTop = m.loadTop ∧
    (m.setSafIn k s).effWas = m.effWas ∧ (m.setSafIn k s).effAt = m.effAt ∧ (m.setSafIn k s).skewSince = m.skewSince ∧
    (m.setSafIn k s).skewPast = m.skewPast ∧ (m.setSafIn k s).orphans = m.orphans ∧ (m.setSafIn k s).reruns = m.reruns :=
  by repeat' constructor
@[simp] theorem Mod.setSafOut_frame (m : Mod) (p : Nat) (s : SafOutSt) :
    (m.setSafOut p s).objs = m.objs ∧ (m.setSafOut p s).ro = m.ro ∧ (m.setSafOut p s).com = m.com ∧
    (m.setSafOut p s).life = m.life ∧ (m.setSafOut p s).tread = m.tread ∧ (m.setSafOut p s).fresh = m.fresh ∧
    (m.setSafOut p s).flown = m.flown ∧ (m.setSafOut p s).staged = m.staged ∧ (m.setSafOut p s).reads = m.reads ∧
    (m.setSafOut p s).replies = m.replies ∧ (m.setSafOut p s).waiting = m.waiting ∧
    (m.setSafOut p s).arrivals = m.arrivals ∧ (m.setSafOut p s).out = m.out ∧ (m.setSafOut p s).hall = m.hall ∧
    (m.setSafOut p s).hallCom = m.hallCom ∧ (m.setSafOut p s).reserved = m.reserved ∧
    (m.setSafOut p s).barred = m.barred ∧ (m.setSafOut p s).switch = m.switch ∧ (m.setSafOut p s).asks = m.asks ∧
    (m.setSafOut p s).tracks = m.tracks ∧ (m.setSafOut p s).pulses = m.pulses ∧
    (m.setSafOut p s).landings = m.landings ∧ (m.setSafOut p s).axRefused = m.axRefused ∧
    (m.setSafOut p s).bankA = m.bankA ∧ (m.setSafOut p s).bankB = m.bankB ∧ (m.setSafOut p s).load = m.load ∧
    (m.setSafOut p s).selector = m.selector ∧ (m.setSafOut p s).undo = m.undo ∧ (m.setSafOut p s).loops = m.loops ∧
    (m.setSafOut p s).released = m.released ∧ (m.setSafOut p s).poolDue = m.poolDue ∧
    (m.setSafOut p s).pool = m.pool ∧ (m.setSafOut p s).engine = m.engine ∧ (m.setSafOut p s).inputs = m.inputs ∧
    (m.setSafOut p s).convs = m.convs ∧ (m.setSafOut p s).eff = m.eff ∧ (m.setSafOut p s).scans = m.scans ∧
    (m.setSafOut p s).cal = m.cal ∧ (m.setSafOut p s).calDue = m.calDue ∧ (m.setSafOut p s).field = m.field ∧
    (m.setSafOut p s).fbanks = m.fbanks ∧ (m.setSafOut p s).snapSafety = m.snapSafety ∧
    (m.setSafOut p s).snapPairs = m.snapPairs ∧ (m.setSafOut p s).snapFault = m.snapFault ∧
    (m.setSafOut p s).snapBanks = m.snapBanks ∧ (m.setSafOut p s).snapIn = m.snapIn ∧
    (m.setSafOut p s).snapOut = m.snapOut ∧ (m.setSafOut p s).snapDom = m.snapDom ∧
    (m.setSafOut p s).snapAo = m.snapAo ∧ (m.setSafOut p s).reqs = m.reqs ∧ (m.setSafOut p s).levels = m.levels ∧
    (m.setSafOut p s).axes = m.axes ∧ (m.setSafOut p s).axesCom = m.axesCom ∧ (m.setSafOut p s).links = m.links ∧
    (m.setSafOut p s).gal = m.gal ∧ (m.setSafOut p s).trg = m.trg ∧ (m.setSafOut p s).tpoLevel = m.tpoLevel ∧
    (m.setSafOut p s).tiles = m.tiles ∧ (m.setSafOut p s).streams = m.streams ∧ (m.setSafOut p s).record = m.record ∧
    (m.setSafOut p s).chain2 = m.chain2 ∧ (m.setSafOut p s).chain4 = m.chain4 ∧
    (m.setSafOut p s).canObjs = m.canObjs ∧ (m.setSafOut p s).canPorts = m.canPorts ∧
    (m.setSafOut p s).journal = m.journal ∧ (m.setSafOut p s).reset = m.reset ∧ (m.setSafOut p s).power = m.power ∧
    (m.setSafOut p s).firmware = m.firmware ∧ (m.setSafOut p s).time = m.time ∧ (m.setSafOut p s).tpos = m.tpos ∧
    (m.setSafOut p s).tpoNow = m.tpoNow ∧ (m.setSafOut p s).wlog = m.wlog ∧ (m.setSafOut p s).wold = m.wold ∧
    (m.setSafOut p s).kept = m.kept ∧ (m.setSafOut p s).loadTop = m.loadTop ∧
    (m.setSafOut p s).effWas = m.effWas ∧ (m.setSafOut p s).effAt = m.effAt ∧ (m.setSafOut p s).skewSince = m.skewSince ∧
    (m.setSafOut p s).skewPast = m.skewPast ∧ (m.setSafOut p s).orphans = m.orphans ∧ (m.setSafOut p s).reruns = m.reruns :=
  by repeat' constructor
@[simp] theorem Mod.setCanObj_frame (m : Mod) (k : Nat) (s : CanObjSt) :
    (m.setCanObj k s).objs = m.objs ∧ (m.setCanObj k s).ro = m.ro ∧ (m.setCanObj k s).com = m.com ∧
    (m.setCanObj k s).life = m.life ∧ (m.setCanObj k s).tread = m.tread ∧ (m.setCanObj k s).fresh = m.fresh ∧
    (m.setCanObj k s).flown = m.flown ∧ (m.setCanObj k s).staged = m.staged ∧ (m.setCanObj k s).reads = m.reads ∧
    (m.setCanObj k s).replies = m.replies ∧ (m.setCanObj k s).waiting = m.waiting ∧
    (m.setCanObj k s).arrivals = m.arrivals ∧ (m.setCanObj k s).out = m.out ∧ (m.setCanObj k s).hall = m.hall ∧
    (m.setCanObj k s).hallCom = m.hallCom ∧ (m.setCanObj k s).reserved = m.reserved ∧
    (m.setCanObj k s).barred = m.barred ∧ (m.setCanObj k s).switch = m.switch ∧ (m.setCanObj k s).asks = m.asks ∧
    (m.setCanObj k s).tracks = m.tracks ∧ (m.setCanObj k s).pulses = m.pulses ∧
    (m.setCanObj k s).landings = m.landings ∧ (m.setCanObj k s).axRefused = m.axRefused ∧
    (m.setCanObj k s).bankA = m.bankA ∧ (m.setCanObj k s).bankB = m.bankB ∧ (m.setCanObj k s).load = m.load ∧
    (m.setCanObj k s).selector = m.selector ∧ (m.setCanObj k s).undo = m.undo ∧ (m.setCanObj k s).loops = m.loops ∧
    (m.setCanObj k s).released = m.released ∧ (m.setCanObj k s).poolDue = m.poolDue ∧
    (m.setCanObj k s).pool = m.pool ∧ (m.setCanObj k s).engine = m.engine ∧ (m.setCanObj k s).inputs = m.inputs ∧
    (m.setCanObj k s).convs = m.convs ∧ (m.setCanObj k s).eff = m.eff ∧ (m.setCanObj k s).scans = m.scans ∧
    (m.setCanObj k s).cal = m.cal ∧ (m.setCanObj k s).calDue = m.calDue ∧ (m.setCanObj k s).field = m.field ∧
    (m.setCanObj k s).fbanks = m.fbanks ∧ (m.setCanObj k s).safety = m.safety ∧
    (m.setCanObj k s).snapSafety = m.snapSafety ∧ (m.setCanObj k s).snapPairs = m.snapPairs ∧
    (m.setCanObj k s).snapFault = m.snapFault ∧ (m.setCanObj k s).snapBanks = m.snapBanks ∧
    (m.setCanObj k s).snapIn = m.snapIn ∧ (m.setCanObj k s).snapOut = m.snapOut ∧
    (m.setCanObj k s).snapDom = m.snapDom ∧ (m.setCanObj k s).snapAo = m.snapAo ∧ (m.setCanObj k s).reqs = m.reqs ∧
    (m.setCanObj k s).levels = m.levels ∧ (m.setCanObj k s).axes = m.axes ∧ (m.setCanObj k s).axesCom = m.axesCom ∧
    (m.setCanObj k s).links = m.links ∧ (m.setCanObj k s).gal = m.gal ∧ (m.setCanObj k s).trg = m.trg ∧
    (m.setCanObj k s).tpoLevel = m.tpoLevel ∧ (m.setCanObj k s).tiles = m.tiles ∧
    (m.setCanObj k s).streams = m.streams ∧ (m.setCanObj k s).record = m.record ∧
    (m.setCanObj k s).chain2 = m.chain2 ∧ (m.setCanObj k s).chain4 = m.chain4 ∧
    (m.setCanObj k s).canPorts = m.canPorts ∧ (m.setCanObj k s).journal = m.journal ∧
    (m.setCanObj k s).reset = m.reset ∧ (m.setCanObj k s).power = m.power ∧ (m.setCanObj k s).firmware = m.firmware ∧
    (m.setCanObj k s).time = m.time ∧ (m.setCanObj k s).tpos = m.tpos ∧ (m.setCanObj k s).tpoNow = m.tpoNow ∧
    (m.setCanObj k s).wlog = m.wlog ∧ (m.setCanObj k s).wold = m.wold ∧
    (m.setCanObj k s).kept = m.kept ∧ (m.setCanObj k s).loadTop = m.loadTop ∧
    (m.setCanObj k s).effWas = m.effWas ∧ (m.setCanObj k s).effAt = m.effAt ∧ (m.setCanObj k s).skewSince = m.skewSince ∧
    (m.setCanObj k s).skewPast = m.skewPast ∧ (m.setCanObj k s).orphans = m.orphans ∧ (m.setCanObj k s).reruns = m.reruns :=
  by repeat' constructor
@[simp] theorem Mod.setCanPort_frame (m : Mod) (p : Nat) (s : CanPortSt) :
    (m.setCanPort p s).objs = m.objs ∧ (m.setCanPort p s).ro = m.ro ∧ (m.setCanPort p s).com = m.com ∧
    (m.setCanPort p s).life = m.life ∧ (m.setCanPort p s).tread = m.tread ∧ (m.setCanPort p s).fresh = m.fresh ∧
    (m.setCanPort p s).flown = m.flown ∧ (m.setCanPort p s).staged = m.staged ∧ (m.setCanPort p s).reads = m.reads ∧
    (m.setCanPort p s).replies = m.replies ∧ (m.setCanPort p s).waiting = m.waiting ∧
    (m.setCanPort p s).arrivals = m.arrivals ∧ (m.setCanPort p s).out = m.out ∧ (m.setCanPort p s).hall = m.hall ∧
    (m.setCanPort p s).hallCom = m.hallCom ∧ (m.setCanPort p s).reserved = m.reserved ∧
    (m.setCanPort p s).barred = m.barred ∧ (m.setCanPort p s).switch = m.switch ∧ (m.setCanPort p s).asks = m.asks ∧
    (m.setCanPort p s).tracks = m.tracks ∧ (m.setCanPort p s).pulses = m.pulses ∧
    (m.setCanPort p s).landings = m.landings ∧ (m.setCanPort p s).axRefused = m.axRefused ∧
    (m.setCanPort p s).bankA = m.bankA ∧ (m.setCanPort p s).bankB = m.bankB ∧ (m.setCanPort p s).load = m.load ∧
    (m.setCanPort p s).selector = m.selector ∧ (m.setCanPort p s).undo = m.undo ∧
    (m.setCanPort p s).loops = m.loops ∧ (m.setCanPort p s).released = m.released ∧
    (m.setCanPort p s).poolDue = m.poolDue ∧ (m.setCanPort p s).pool = m.pool ∧
    (m.setCanPort p s).engine = m.engine ∧ (m.setCanPort p s).inputs = m.inputs ∧
    (m.setCanPort p s).convs = m.convs ∧ (m.setCanPort p s).eff = m.eff ∧ (m.setCanPort p s).scans = m.scans ∧
    (m.setCanPort p s).cal = m.cal ∧ (m.setCanPort p s).calDue = m.calDue ∧ (m.setCanPort p s).field = m.field ∧
    (m.setCanPort p s).fbanks = m.fbanks ∧ (m.setCanPort p s).safety = m.safety ∧
    (m.setCanPort p s).snapSafety = m.snapSafety ∧ (m.setCanPort p s).snapPairs = m.snapPairs ∧
    (m.setCanPort p s).snapFault = m.snapFault ∧ (m.setCanPort p s).snapBanks = m.snapBanks ∧
    (m.setCanPort p s).snapIn = m.snapIn ∧ (m.setCanPort p s).snapOut = m.snapOut ∧
    (m.setCanPort p s).snapDom = m.snapDom ∧ (m.setCanPort p s).snapAo = m.snapAo ∧
    (m.setCanPort p s).reqs = m.reqs ∧ (m.setCanPort p s).levels = m.levels ∧ (m.setCanPort p s).axes = m.axes ∧
    (m.setCanPort p s).axesCom = m.axesCom ∧ (m.setCanPort p s).links = m.links ∧ (m.setCanPort p s).gal = m.gal ∧
    (m.setCanPort p s).trg = m.trg ∧ (m.setCanPort p s).tpoLevel = m.tpoLevel ∧ (m.setCanPort p s).tiles = m.tiles ∧
    (m.setCanPort p s).streams = m.streams ∧ (m.setCanPort p s).record = m.record ∧
    (m.setCanPort p s).chain2 = m.chain2 ∧ (m.setCanPort p s).chain4 = m.chain4 ∧
    (m.setCanPort p s).canObjs = m.canObjs ∧ (m.setCanPort p s).journal = m.journal ∧
    (m.setCanPort p s).reset = m.reset ∧ (m.setCanPort p s).power = m.power ∧
    (m.setCanPort p s).firmware = m.firmware ∧ (m.setCanPort p s).time = m.time ∧ (m.setCanPort p s).tpos = m.tpos ∧
    (m.setCanPort p s).tpoNow = m.tpoNow ∧ (m.setCanPort p s).wlog = m.wlog ∧ (m.setCanPort p s).wold = m.wold ∧
    (m.setCanPort p s).kept = m.kept ∧ (m.setCanPort p s).loadTop = m.loadTop ∧
    (m.setCanPort p s).effWas = m.effWas ∧ (m.setCanPort p s).effAt = m.effAt ∧ (m.setCanPort p s).skewSince = m.skewSince ∧
    (m.setCanPort p s).skewPast = m.skewPast ∧ (m.setCanPort p s).orphans = m.orphans ∧ (m.setCanPort p s).reruns = m.reruns :=
  by repeat' constructor
@[simp] theorem Mod.setPartner_frame (m : Mod) (a : Nat) (p : Partner) :
    (m.setPartner a p).objs = m.objs ∧ (m.setPartner a p).ro = m.ro ∧ (m.setPartner a p).com = m.com ∧
    (m.setPartner a p).life = m.life ∧ (m.setPartner a p).tread = m.tread ∧ (m.setPartner a p).fresh = m.fresh ∧
    (m.setPartner a p).flown = m.flown ∧ (m.setPartner a p).staged = m.staged ∧ (m.setPartner a p).reads = m.reads ∧
    (m.setPartner a p).replies = m.replies ∧ (m.setPartner a p).waiting = m.waiting ∧
    (m.setPartner a p).arrivals = m.arrivals ∧ (m.setPartner a p).out = m.out ∧
    (m.setPartner a p).hallCom = m.hallCom ∧ (m.setPartner a p).reserved = m.reserved ∧
    (m.setPartner a p).barred = m.barred ∧ (m.setPartner a p).switch = m.switch ∧ (m.setPartner a p).asks = m.asks ∧
    (m.setPartner a p).tracks = m.tracks ∧ (m.setPartner a p).pulses = m.pulses ∧
    (m.setPartner a p).landings = m.landings ∧ (m.setPartner a p).axRefused = m.axRefused ∧
    (m.setPartner a p).bankA = m.bankA ∧ (m.setPartner a p).bankB = m.bankB ∧ (m.setPartner a p).load = m.load ∧
    (m.setPartner a p).selector = m.selector ∧ (m.setPartner a p).undo = m.undo ∧
    (m.setPartner a p).loops = m.loops ∧ (m.setPartner a p).released = m.released ∧
    (m.setPartner a p).poolDue = m.poolDue ∧ (m.setPartner a p).pool = m.pool ∧
    (m.setPartner a p).engine = m.engine ∧ (m.setPartner a p).inputs = m.inputs ∧
    (m.setPartner a p).convs = m.convs ∧ (m.setPartner a p).eff = m.eff ∧ (m.setPartner a p).scans = m.scans ∧
    (m.setPartner a p).cal = m.cal ∧ (m.setPartner a p).calDue = m.calDue ∧ (m.setPartner a p).field = m.field ∧
    (m.setPartner a p).fbanks = m.fbanks ∧ (m.setPartner a p).safety = m.safety ∧
    (m.setPartner a p).snapSafety = m.snapSafety ∧ (m.setPartner a p).snapPairs = m.snapPairs ∧
    (m.setPartner a p).snapFault = m.snapFault ∧ (m.setPartner a p).snapBanks = m.snapBanks ∧
    (m.setPartner a p).snapIn = m.snapIn ∧ (m.setPartner a p).snapOut = m.snapOut ∧
    (m.setPartner a p).snapDom = m.snapDom ∧ (m.setPartner a p).snapAo = m.snapAo ∧
    (m.setPartner a p).reqs = m.reqs ∧ (m.setPartner a p).levels = m.levels ∧ (m.setPartner a p).axes = m.axes ∧
    (m.setPartner a p).axesCom = m.axesCom ∧ (m.setPartner a p).links = m.links ∧ (m.setPartner a p).gal = m.gal ∧
    (m.setPartner a p).trg = m.trg ∧ (m.setPartner a p).tpoLevel = m.tpoLevel ∧ (m.setPartner a p).tiles = m.tiles ∧
    (m.setPartner a p).streams = m.streams ∧ (m.setPartner a p).record = m.record ∧
    (m.setPartner a p).chain2 = m.chain2 ∧ (m.setPartner a p).chain4 = m.chain4 ∧
    (m.setPartner a p).canObjs = m.canObjs ∧ (m.setPartner a p).canPorts = m.canPorts ∧
    (m.setPartner a p).journal = m.journal ∧ (m.setPartner a p).reset = m.reset ∧
    (m.setPartner a p).power = m.power ∧ (m.setPartner a p).firmware = m.firmware ∧
    (m.setPartner a p).time = m.time ∧ (m.setPartner a p).tpos = m.tpos ∧ (m.setPartner a p).tpoNow = m.tpoNow ∧
    (m.setPartner a p).wlog = m.wlog ∧ (m.setPartner a p).wold = m.wold ∧
    (m.setPartner a p).kept = m.kept ∧ (m.setPartner a p).loadTop = m.loadTop ∧
    (m.setPartner a p).effWas = m.effWas ∧ (m.setPartner a p).effAt = m.effAt ∧ (m.setPartner a p).skewSince = m.skewSince ∧
    (m.setPartner a p).skewPast = m.skewPast ∧ (m.setPartner a p).orphans = m.orphans ∧ (m.setPartner a p).reruns = m.reruns :=
  by repeat' constructor
@[simp] theorem Mod.setStream_frame (m : Mod) (k : Nat) (v : StreamSt) :
    (m.setStream k v).objs = m.objs ∧ (m.setStream k v).ro = m.ro ∧ (m.setStream k v).com = m.com ∧
    (m.setStream k v).life = m.life ∧ (m.setStream k v).tread = m.tread ∧ (m.setStream k v).fresh = m.fresh ∧
    (m.setStream k v).flown = m.flown ∧ (m.setStream k v).staged = m.staged ∧ (m.setStream k v).reads = m.reads ∧
    (m.setStream k v).replies = m.replies ∧ (m.setStream k v).waiting = m.waiting ∧
    (m.setStream k v).arrivals = m.arrivals ∧ (m.setStream k v).out = m.out ∧ (m.setStream k v).hall = m.hall ∧
    (m.setStream k v).hallCom = m.hallCom ∧ (m.setStream k v).reserved = m.reserved ∧
    (m.setStream k v).barred = m.barred ∧ (m.setStream k v).switch = m.switch ∧ (m.setStream k v).asks = m.asks ∧
    (m.setStream k v).tracks = m.tracks ∧ (m.setStream k v).pulses = m.pulses ∧
    (m.setStream k v).landings = m.landings ∧ (m.setStream k v).axRefused = m.axRefused ∧
    (m.setStream k v).bankA = m.bankA ∧ (m.setStream k v).bankB = m.bankB ∧ (m.setStream k v).load = m.load ∧
    (m.setStream k v).selector = m.selector ∧ (m.setStream k v).undo = m.undo ∧ (m.setStream k v).loops = m.loops ∧
    (m.setStream k v).released = m.released ∧ (m.setStream k v).poolDue = m.poolDue ∧
    (m.setStream k v).pool = m.pool ∧ (m.setStream k v).engine = m.engine ∧ (m.setStream k v).inputs = m.inputs ∧
    (m.setStream k v).convs = m.convs ∧ (m.setStream k v).eff = m.eff ∧ (m.setStream k v).scans = m.scans ∧
    (m.setStream k v).cal = m.cal ∧ (m.setStream k v).calDue = m.calDue ∧ (m.setStream k v).field = m.field ∧
    (m.setStream k v).fbanks = m.fbanks ∧ (m.setStream k v).safety = m.safety ∧
    (m.setStream k v).snapSafety = m.snapSafety ∧ (m.setStream k v).snapPairs = m.snapPairs ∧
    (m.setStream k v).snapFault = m.snapFault ∧ (m.setStream k v).snapBanks = m.snapBanks ∧
    (m.setStream k v).snapIn = m.snapIn ∧ (m.setStream k v).snapOut = m.snapOut ∧
    (m.setStream k v).snapDom = m.snapDom ∧ (m.setStream k v).snapAo = m.snapAo ∧ (m.setStream k v).reqs = m.reqs ∧
    (m.setStream k v).levels = m.levels ∧ (m.setStream k v).axes = m.axes ∧ (m.setStream k v).axesCom = m.axesCom ∧
    (m.setStream k v).links = m.links ∧ (m.setStream k v).gal = m.gal ∧ (m.setStream k v).trg = m.trg ∧
    (m.setStream k v).tpoLevel = m.tpoLevel ∧ (m.setStream k v).tiles = m.tiles ∧
    (m.setStream k v).record = m.record ∧ (m.setStream k v).chain2 = m.chain2 ∧ (m.setStream k v).chain4 = m.chain4 ∧
    (m.setStream k v).canObjs = m.canObjs ∧ (m.setStream k v).canPorts = m.canPorts ∧
    (m.setStream k v).journal = m.journal ∧ (m.setStream k v).reset = m.reset ∧ (m.setStream k v).power = m.power ∧
    (m.setStream k v).firmware = m.firmware ∧ (m.setStream k v).time = m.time ∧ (m.setStream k v).tpos = m.tpos ∧
    (m.setStream k v).tpoNow = m.tpoNow ∧ (m.setStream k v).wlog = m.wlog ∧ (m.setStream k v).wold = m.wold ∧
    (m.setStream k v).kept = m.kept ∧ (m.setStream k v).loadTop = m.loadTop ∧
    (m.setStream k v).effWas = m.effWas ∧ (m.setStream k v).effAt = m.effAt ∧ (m.setStream k v).skewSince = m.skewSince ∧
    (m.setStream k v).skewPast = m.skewPast ∧ (m.setStream k v).orphans = m.orphans ∧ (m.setStream k v).reruns = m.reruns :=
  by repeat' constructor
@[simp] theorem Mod.setTpo_frame (m : Mod) (k : Nat) (v : TpoSt) :
    (m.setTpo k v).objs = m.objs ∧ (m.setTpo k v).ro = m.ro ∧ (m.setTpo k v).com = m.com ∧
    (m.setTpo k v).life = m.life ∧ (m.setTpo k v).tread = m.tread ∧ (m.setTpo k v).fresh = m.fresh ∧
    (m.setTpo k v).flown = m.flown ∧ (m.setTpo k v).staged = m.staged ∧ (m.setTpo k v).reads = m.reads ∧
    (m.setTpo k v).replies = m.replies ∧ (m.setTpo k v).waiting = m.waiting ∧ (m.setTpo k v).arrivals = m.arrivals ∧
    (m.setTpo k v).out = m.out ∧ (m.setTpo k v).hall = m.hall ∧ (m.setTpo k v).hallCom = m.hallCom ∧
    (m.setTpo k v).reserved = m.reserved ∧ (m.setTpo k v).barred = m.barred ∧ (m.setTpo k v).switch = m.switch ∧
    (m.setTpo k v).asks = m.asks ∧ (m.setTpo k v).tracks = m.tracks ∧ (m.setTpo k v).pulses = m.pulses ∧
    (m.setTpo k v).landings = m.landings ∧ (m.setTpo k v).axRefused = m.axRefused ∧ (m.setTpo k v).bankA = m.bankA ∧
    (m.setTpo k v).bankB = m.bankB ∧ (m.setTpo k v).load = m.load ∧ (m.setTpo k v).selector = m.selector ∧
    (m.setTpo k v).undo = m.undo ∧ (m.setTpo k v).loops = m.loops ∧ (m.setTpo k v).released = m.released ∧
    (m.setTpo k v).poolDue = m.poolDue ∧ (m.setTpo k v).pool = m.pool ∧ (m.setTpo k v).engine = m.engine ∧
    (m.setTpo k v).inputs = m.inputs ∧ (m.setTpo k v).convs = m.convs ∧ (m.setTpo k v).eff = m.eff ∧
    (m.setTpo k v).scans = m.scans ∧ (m.setTpo k v).cal = m.cal ∧ (m.setTpo k v).calDue = m.calDue ∧
    (m.setTpo k v).field = m.field ∧ (m.setTpo k v).fbanks = m.fbanks ∧ (m.setTpo k v).safety = m.safety ∧
    (m.setTpo k v).snapSafety = m.snapSafety ∧ (m.setTpo k v).snapPairs = m.snapPairs ∧
    (m.setTpo k v).snapFault = m.snapFault ∧ (m.setTpo k v).snapBanks = m.snapBanks ∧
    (m.setTpo k v).snapIn = m.snapIn ∧ (m.setTpo k v).snapOut = m.snapOut ∧ (m.setTpo k v).snapDom = m.snapDom ∧
    (m.setTpo k v).snapAo = m.snapAo ∧ (m.setTpo k v).reqs = m.reqs ∧ (m.setTpo k v).levels = m.levels ∧
    (m.setTpo k v).axes = m.axes ∧ (m.setTpo k v).axesCom = m.axesCom ∧ (m.setTpo k v).links = m.links ∧
    (m.setTpo k v).gal = m.gal ∧ (m.setTpo k v).trg = m.trg ∧ (m.setTpo k v).tpoLevel = m.tpoLevel ∧
    (m.setTpo k v).tiles = m.tiles ∧ (m.setTpo k v).streams = m.streams ∧ (m.setTpo k v).record = m.record ∧
    (m.setTpo k v).chain2 = m.chain2 ∧ (m.setTpo k v).chain4 = m.chain4 ∧ (m.setTpo k v).canObjs = m.canObjs ∧
    (m.setTpo k v).canPorts = m.canPorts ∧ (m.setTpo k v).journal = m.journal ∧ (m.setTpo k v).reset = m.reset ∧
    (m.setTpo k v).power = m.power ∧ (m.setTpo k v).firmware = m.firmware ∧ (m.setTpo k v).time = m.time ∧
    (m.setTpo k v).tpoNow = m.tpoNow ∧ (m.setTpo k v).wlog = m.wlog ∧ (m.setTpo k v).wold = m.wold ∧
    (m.setTpo k v).kept = m.kept ∧ (m.setTpo k v).loadTop = m.loadTop ∧
    (m.setTpo k v).effWas = m.effWas ∧ (m.setTpo k v).effAt = m.effAt ∧ (m.setTpo k v).skewSince = m.skewSince ∧
    (m.setTpo k v).skewPast = m.skewPast ∧ (m.setTpo k v).orphans = m.orphans ∧ (m.setTpo k v).reruns = m.reruns :=
  by repeat' constructor
@[simp] theorem Mod.setJournal_frame (m : Mod) (j : JournalSt) :
    (m.setJournal j).objs = m.objs ∧ (m.setJournal j).ro = m.ro ∧ (m.setJournal j).com = m.com ∧
    (m.setJournal j).life = m.life ∧ (m.setJournal j).tread = m.tread ∧ (m.setJournal j).fresh = m.fresh ∧
    (m.setJournal j).flown = m.flown ∧ (m.setJournal j).staged = m.staged ∧ (m.setJournal j).reads = m.reads ∧
    (m.setJournal j).replies = m.replies ∧ (m.setJournal j).waiting = m.waiting ∧
    (m.setJournal j).arrivals = m.arrivals ∧ (m.setJournal j).out = m.out ∧ (m.setJournal j).hall = m.hall ∧
    (m.setJournal j).hallCom = m.hallCom ∧ (m.setJournal j).reserved = m.reserved ∧
    (m.setJournal j).barred = m.barred ∧ (m.setJournal j).switch = m.switch ∧ (m.setJournal j).asks = m.asks ∧
    (m.setJournal j).tracks = m.tracks ∧ (m.setJournal j).pulses = m.pulses ∧
    (m.setJournal j).landings = m.landings ∧ (m.setJournal j).axRefused = m.axRefused ∧
    (m.setJournal j).bankA = m.bankA ∧ (m.setJournal j).bankB = m.bankB ∧ (m.setJournal j).load = m.load ∧
    (m.setJournal j).selector = m.selector ∧ (m.setJournal j).undo = m.undo ∧ (m.setJournal j).loops = m.loops ∧
    (m.setJournal j).released = m.released ∧ (m.setJournal j).poolDue = m.poolDue ∧ (m.setJournal j).pool = m.pool ∧
    (m.setJournal j).engine = m.engine ∧ (m.setJournal j).inputs = m.inputs ∧ (m.setJournal j).convs = m.convs ∧
    (m.setJournal j).eff = m.eff ∧ (m.setJournal j).scans = m.scans ∧ (m.setJournal j).cal = m.cal ∧
    (m.setJournal j).calDue = m.calDue ∧ (m.setJournal j).field = m.field ∧ (m.setJournal j).fbanks = m.fbanks ∧
    (m.setJournal j).safety = m.safety ∧ (m.setJournal j).snapSafety = m.snapSafety ∧
    (m.setJournal j).snapPairs = m.snapPairs ∧ (m.setJournal j).snapFault = m.snapFault ∧
    (m.setJournal j).snapBanks = m.snapBanks ∧ (m.setJournal j).snapIn = m.snapIn ∧
    (m.setJournal j).snapOut = m.snapOut ∧ (m.setJournal j).snapDom = m.snapDom ∧
    (m.setJournal j).snapAo = m.snapAo ∧ (m.setJournal j).reqs = m.reqs ∧ (m.setJournal j).levels = m.levels ∧
    (m.setJournal j).axes = m.axes ∧ (m.setJournal j).axesCom = m.axesCom ∧ (m.setJournal j).links = m.links ∧
    (m.setJournal j).gal = m.gal ∧ (m.setJournal j).trg = m.trg ∧ (m.setJournal j).tpoLevel = m.tpoLevel ∧
    (m.setJournal j).tiles = m.tiles ∧ (m.setJournal j).streams = m.streams ∧ (m.setJournal j).record = m.record ∧
    (m.setJournal j).chain2 = m.chain2 ∧ (m.setJournal j).chain4 = m.chain4 ∧ (m.setJournal j).canObjs = m.canObjs ∧
    (m.setJournal j).canPorts = m.canPorts ∧ (m.setJournal j).reset = m.reset ∧ (m.setJournal j).power = m.power ∧
    (m.setJournal j).firmware = m.firmware ∧ (m.setJournal j).time = m.time ∧ (m.setJournal j).tpos = m.tpos ∧
    (m.setJournal j).tpoNow = m.tpoNow ∧ (m.setJournal j).wlog = m.wlog ∧ (m.setJournal j).wold = m.wold ∧
    (m.setJournal j).kept = m.kept ∧ (m.setJournal j).loadTop = m.loadTop ∧
    (m.setJournal j).effWas = m.effWas ∧ (m.setJournal j).effAt = m.effAt ∧ (m.setJournal j).skewSince = m.skewSince ∧
    (m.setJournal j).skewPast = m.skewPast ∧ (m.setJournal j).orphans = m.orphans ∧ (m.setJournal j).reruns = m.reruns :=
  by repeat' constructor
@[simp] theorem Mod.setReset_frame (m : Mod) (r : ResetSt) :
    (m.setReset r).objs = m.objs ∧ (m.setReset r).ro = m.ro ∧ (m.setReset r).com = m.com ∧
    (m.setReset r).life = m.life ∧ (m.setReset r).tread = m.tread ∧ (m.setReset r).fresh = m.fresh ∧
    (m.setReset r).flown = m.flown ∧ (m.setReset r).staged = m.staged ∧ (m.setReset r).reads = m.reads ∧
    (m.setReset r).replies = m.replies ∧ (m.setReset r).waiting = m.waiting ∧ (m.setReset r).arrivals = m.arrivals ∧
    (m.setReset r).out = m.out ∧ (m.setReset r).hall = m.hall ∧ (m.setReset r).hallCom = m.hallCom ∧
    (m.setReset r).reserved = m.reserved ∧ (m.setReset r).barred = m.barred ∧ (m.setReset r).switch = m.switch ∧
    (m.setReset r).asks = m.asks ∧ (m.setReset r).tracks = m.tracks ∧ (m.setReset r).pulses = m.pulses ∧
    (m.setReset r).landings = m.landings ∧ (m.setReset r).axRefused = m.axRefused ∧ (m.setReset r).bankA = m.bankA ∧
    (m.setReset r).bankB = m.bankB ∧ (m.setReset r).load = m.load ∧ (m.setReset r).selector = m.selector ∧
    (m.setReset r).undo = m.undo ∧ (m.setReset r).loops = m.loops ∧ (m.setReset r).released = m.released ∧
    (m.setReset r).poolDue = m.poolDue ∧ (m.setReset r).pool = m.pool ∧ (m.setReset r).engine = m.engine ∧
    (m.setReset r).inputs = m.inputs ∧ (m.setReset r).convs = m.convs ∧ (m.setReset r).eff = m.eff ∧
    (m.setReset r).scans = m.scans ∧ (m.setReset r).cal = m.cal ∧ (m.setReset r).calDue = m.calDue ∧
    (m.setReset r).field = m.field ∧ (m.setReset r).fbanks = m.fbanks ∧ (m.setReset r).safety = m.safety ∧
    (m.setReset r).snapSafety = m.snapSafety ∧ (m.setReset r).snapPairs = m.snapPairs ∧
    (m.setReset r).snapFault = m.snapFault ∧ (m.setReset r).snapBanks = m.snapBanks ∧
    (m.setReset r).snapIn = m.snapIn ∧ (m.setReset r).snapOut = m.snapOut ∧ (m.setReset r).snapDom = m.snapDom ∧
    (m.setReset r).snapAo = m.snapAo ∧ (m.setReset r).reqs = m.reqs ∧ (m.setReset r).levels = m.levels ∧
    (m.setReset r).axes = m.axes ∧ (m.setReset r).axesCom = m.axesCom ∧ (m.setReset r).links = m.links ∧
    (m.setReset r).gal = m.gal ∧ (m.setReset r).trg = m.trg ∧ (m.setReset r).tpoLevel = m.tpoLevel ∧
    (m.setReset r).tiles = m.tiles ∧ (m.setReset r).streams = m.streams ∧ (m.setReset r).record = m.record ∧
    (m.setReset r).chain2 = m.chain2 ∧ (m.setReset r).chain4 = m.chain4 ∧ (m.setReset r).canObjs = m.canObjs ∧
    (m.setReset r).canPorts = m.canPorts ∧ (m.setReset r).journal = m.journal ∧ (m.setReset r).power = m.power ∧
    (m.setReset r).firmware = m.firmware ∧ (m.setReset r).time = m.time ∧ (m.setReset r).tpos = m.tpos ∧
    (m.setReset r).tpoNow = m.tpoNow ∧ (m.setReset r).wlog = m.wlog ∧ (m.setReset r).wold = m.wold ∧
    (m.setReset r).kept = m.kept ∧ (m.setReset r).loadTop = m.loadTop ∧
    (m.setReset r).effWas = m.effWas ∧ (m.setReset r).effAt = m.effAt ∧ (m.setReset r).skewSince = m.skewSince ∧
    (m.setReset r).skewPast = m.skewPast ∧ (m.setReset r).orphans = m.orphans ∧ (m.setReset r).reruns = m.reruns :=
  by repeat' constructor
@[simp] theorem Mod.setRecord_frame (m : Mod) (r : RecSt) :
    (m.setRecord r).objs = m.objs ∧ (m.setRecord r).ro = m.ro ∧ (m.setRecord r).com = m.com ∧
    (m.setRecord r).life = m.life ∧ (m.setRecord r).tread = m.tread ∧ (m.setRecord r).fresh = m.fresh ∧
    (m.setRecord r).flown = m.flown ∧ (m.setRecord r).staged = m.staged ∧ (m.setRecord r).reads = m.reads ∧
    (m.setRecord r).replies = m.replies ∧ (m.setRecord r).waiting = m.waiting ∧
    (m.setRecord r).arrivals = m.arrivals ∧ (m.setRecord r).out = m.out ∧ (m.setRecord r).hall = m.hall ∧
    (m.setRecord r).hallCom = m.hallCom ∧ (m.setRecord r).reserved = m.reserved ∧ (m.setRecord r).barred = m.barred ∧
    (m.setRecord r).switch = m.switch ∧ (m.setRecord r).asks = m.asks ∧ (m.setRecord r).tracks = m.tracks ∧
    (m.setRecord r).pulses = m.pulses ∧ (m.setRecord r).landings = m.landings ∧
    (m.setRecord r).axRefused = m.axRefused ∧ (m.setRecord r).bankA = m.bankA ∧ (m.setRecord r).bankB = m.bankB ∧
    (m.setRecord r).load = m.load ∧ (m.setRecord r).selector = m.selector ∧ (m.setRecord r).undo = m.undo ∧
    (m.setRecord r).loops = m.loops ∧ (m.setRecord r).released = m.released ∧ (m.setRecord r).poolDue = m.poolDue ∧
    (m.setRecord r).pool = m.pool ∧ (m.setRecord r).engine = m.engine ∧ (m.setRecord r).inputs = m.inputs ∧
    (m.setRecord r).convs = m.convs ∧ (m.setRecord r).eff = m.eff ∧ (m.setRecord r).scans = m.scans ∧
    (m.setRecord r).cal = m.cal ∧ (m.setRecord r).calDue = m.calDue ∧ (m.setRecord r).field = m.field ∧
    (m.setRecord r).fbanks = m.fbanks ∧ (m.setRecord r).safety = m.safety ∧
    (m.setRecord r).snapSafety = m.snapSafety ∧ (m.setRecord r).snapPairs = m.snapPairs ∧
    (m.setRecord r).snapFault = m.snapFault ∧ (m.setRecord r).snapBanks = m.snapBanks ∧
    (m.setRecord r).snapIn = m.snapIn ∧ (m.setRecord r).snapOut = m.snapOut ∧ (m.setRecord r).snapDom = m.snapDom ∧
    (m.setRecord r).snapAo = m.snapAo ∧ (m.setRecord r).reqs = m.reqs ∧ (m.setRecord r).levels = m.levels ∧
    (m.setRecord r).axes = m.axes ∧ (m.setRecord r).axesCom = m.axesCom ∧ (m.setRecord r).links = m.links ∧
    (m.setRecord r).gal = m.gal ∧ (m.setRecord r).trg = m.trg ∧ (m.setRecord r).tpoLevel = m.tpoLevel ∧
    (m.setRecord r).tiles = m.tiles ∧ (m.setRecord r).streams = m.streams ∧ (m.setRecord r).chain2 = m.chain2 ∧
    (m.setRecord r).chain4 = m.chain4 ∧ (m.setRecord r).canObjs = m.canObjs ∧ (m.setRecord r).canPorts = m.canPorts ∧
    (m.setRecord r).journal = m.journal ∧ (m.setRecord r).reset = m.reset ∧ (m.setRecord r).power = m.power ∧
    (m.setRecord r).firmware = m.firmware ∧ (m.setRecord r).time = m.time ∧ (m.setRecord r).tpos = m.tpos ∧
    (m.setRecord r).tpoNow = m.tpoNow ∧ (m.setRecord r).wlog = m.wlog ∧ (m.setRecord r).wold = m.wold ∧
    (m.setRecord r).kept = m.kept ∧ (m.setRecord r).loadTop = m.loadTop ∧
    (m.setRecord r).effWas = m.effWas ∧ (m.setRecord r).effAt = m.effAt ∧ (m.setRecord r).skewSince = m.skewSince ∧
    (m.setRecord r).skewPast = m.skewPast ∧ (m.setRecord r).orphans = m.orphans ∧ (m.setRecord r).reruns = m.reruns :=
  by repeat' constructor
@[simp] theorem Mod.setSwitch_frame (m : Mod) (v : SwitchSt) :
    (m.setSwitch v).objs = m.objs ∧ (m.setSwitch v).ro = m.ro ∧ (m.setSwitch v).com = m.com ∧
    (m.setSwitch v).life = m.life ∧ (m.setSwitch v).tread = m.tread ∧ (m.setSwitch v).fresh = m.fresh ∧
    (m.setSwitch v).flown = m.flown ∧ (m.setSwitch v).staged = m.staged ∧ (m.setSwitch v).reads = m.reads ∧
    (m.setSwitch v).replies = m.replies ∧ (m.setSwitch v).waiting = m.waiting ∧
    (m.setSwitch v).arrivals = m.arrivals ∧ (m.setSwitch v).out = m.out ∧ (m.setSwitch v).hall = m.hall ∧
    (m.setSwitch v).hallCom = m.hallCom ∧ (m.setSwitch v).reserved = m.reserved ∧ (m.setSwitch v).barred = m.barred ∧
    (m.setSwitch v).asks = m.asks ∧ (m.setSwitch v).tracks = m.tracks ∧ (m.setSwitch v).pulses = m.pulses ∧
    (m.setSwitch v).landings = m.landings ∧ (m.setSwitch v).axRefused = m.axRefused ∧
    (m.setSwitch v).bankA = m.bankA ∧ (m.setSwitch v).bankB = m.bankB ∧ (m.setSwitch v).load = m.load ∧
    (m.setSwitch v).selector = m.selector ∧ (m.setSwitch v).undo = m.undo ∧ (m.setSwitch v).loops = m.loops ∧
    (m.setSwitch v).released = m.released ∧ (m.setSwitch v).poolDue = m.poolDue ∧ (m.setSwitch v).pool = m.pool ∧
    (m.setSwitch v).engine = m.engine ∧ (m.setSwitch v).inputs = m.inputs ∧ (m.setSwitch v).convs = m.convs ∧
    (m.setSwitch v).eff = m.eff ∧ (m.setSwitch v).scans = m.scans ∧ (m.setSwitch v).cal = m.cal ∧
    (m.setSwitch v).calDue = m.calDue ∧ (m.setSwitch v).field = m.field ∧ (m.setSwitch v).fbanks = m.fbanks ∧
    (m.setSwitch v).safety = m.safety ∧ (m.setSwitch v).snapSafety = m.snapSafety ∧
    (m.setSwitch v).snapPairs = m.snapPairs ∧ (m.setSwitch v).snapFault = m.snapFault ∧
    (m.setSwitch v).snapBanks = m.snapBanks ∧ (m.setSwitch v).snapIn = m.snapIn ∧
    (m.setSwitch v).snapOut = m.snapOut ∧ (m.setSwitch v).snapDom = m.snapDom ∧ (m.setSwitch v).snapAo = m.snapAo ∧
    (m.setSwitch v).reqs = m.reqs ∧ (m.setSwitch v).levels = m.levels ∧ (m.setSwitch v).axes = m.axes ∧
    (m.setSwitch v).axesCom = m.axesCom ∧ (m.setSwitch v).links = m.links ∧ (m.setSwitch v).gal = m.gal ∧
    (m.setSwitch v).trg = m.trg ∧ (m.setSwitch v).tpoLevel = m.tpoLevel ∧ (m.setSwitch v).tiles = m.tiles ∧
    (m.setSwitch v).streams = m.streams ∧ (m.setSwitch v).record = m.record ∧ (m.setSwitch v).chain2 = m.chain2 ∧
    (m.setSwitch v).chain4 = m.chain4 ∧ (m.setSwitch v).canObjs = m.canObjs ∧ (m.setSwitch v).canPorts = m.canPorts ∧
    (m.setSwitch v).journal = m.journal ∧ (m.setSwitch v).reset = m.reset ∧ (m.setSwitch v).power = m.power ∧
    (m.setSwitch v).firmware = m.firmware ∧ (m.setSwitch v).time = m.time ∧ (m.setSwitch v).tpos = m.tpos ∧
    (m.setSwitch v).tpoNow = m.tpoNow ∧ (m.setSwitch v).wlog = m.wlog ∧ (m.setSwitch v).wold = m.wold ∧
    (m.setSwitch v).kept = m.kept ∧ (m.setSwitch v).loadTop = m.loadTop ∧
    (m.setSwitch v).effWas = m.effWas ∧ (m.setSwitch v).effAt = m.effAt ∧ (m.setSwitch v).skewSince = m.skewSince ∧
    (m.setSwitch v).skewPast = m.skewPast ∧ (m.setSwitch v).orphans = m.orphans ∧ (m.setSwitch v).reruns = m.reruns :=
  by repeat' constructor
@[simp] theorem Mod.setTime_frame (m : Mod) (t : TimeSt) :
    (m.setTime t).objs = m.objs ∧ (m.setTime t).ro = m.ro ∧ (m.setTime t).com = m.com ∧ (m.setTime t).life = m.life ∧
    (m.setTime t).tread = m.tread ∧ (m.setTime t).fresh = m.fresh ∧ (m.setTime t).flown = m.flown ∧
    (m.setTime t).staged = m.staged ∧ (m.setTime t).reads = m.reads ∧ (m.setTime t).replies = m.replies ∧
    (m.setTime t).waiting = m.waiting ∧ (m.setTime t).arrivals = m.arrivals ∧ (m.setTime t).out = m.out ∧
    (m.setTime t).hall = m.hall ∧ (m.setTime t).hallCom = m.hallCom ∧ (m.setTime t).reserved = m.reserved ∧
    (m.setTime t).barred = m.barred ∧ (m.setTime t).switch = m.switch ∧ (m.setTime t).asks = m.asks ∧
    (m.setTime t).tracks = m.tracks ∧ (m.setTime t).pulses = m.pulses ∧ (m.setTime t).landings = m.landings ∧
    (m.setTime t).axRefused = m.axRefused ∧ (m.setTime t).bankA = m.bankA ∧ (m.setTime t).bankB = m.bankB ∧
    (m.setTime t).load = m.load ∧ (m.setTime t).selector = m.selector ∧ (m.setTime t).undo = m.undo ∧
    (m.setTime t).loops = m.loops ∧ (m.setTime t).released = m.released ∧ (m.setTime t).poolDue = m.poolDue ∧
    (m.setTime t).pool = m.pool ∧ (m.setTime t).engine = m.engine ∧ (m.setTime t).inputs = m.inputs ∧
    (m.setTime t).convs = m.convs ∧ (m.setTime t).eff = m.eff ∧ (m.setTime t).scans = m.scans ∧
    (m.setTime t).cal = m.cal ∧ (m.setTime t).calDue = m.calDue ∧ (m.setTime t).field = m.field ∧
    (m.setTime t).fbanks = m.fbanks ∧ (m.setTime t).safety = m.safety ∧ (m.setTime t).snapSafety = m.snapSafety ∧
    (m.setTime t).snapPairs = m.snapPairs ∧ (m.setTime t).snapFault = m.snapFault ∧
    (m.setTime t).snapBanks = m.snapBanks ∧ (m.setTime t).snapIn = m.snapIn ∧ (m.setTime t).snapOut = m.snapOut ∧
    (m.setTime t).snapDom = m.snapDom ∧ (m.setTime t).snapAo = m.snapAo ∧ (m.setTime t).reqs = m.reqs ∧
    (m.setTime t).levels = m.levels ∧ (m.setTime t).axes = m.axes ∧ (m.setTime t).axesCom = m.axesCom ∧
    (m.setTime t).links = m.links ∧ (m.setTime t).gal = m.gal ∧ (m.setTime t).trg = m.trg ∧
    (m.setTime t).tpoLevel = m.tpoLevel ∧ (m.setTime t).tiles = m.tiles ∧ (m.setTime t).streams = m.streams ∧
    (m.setTime t).record = m.record ∧ (m.setTime t).chain2 = m.chain2 ∧ (m.setTime t).chain4 = m.chain4 ∧
    (m.setTime t).canObjs = m.canObjs ∧ (m.setTime t).canPorts = m.canPorts ∧ (m.setTime t).journal = m.journal ∧
    (m.setTime t).reset = m.reset ∧ (m.setTime t).power = m.power ∧ (m.setTime t).firmware = m.firmware ∧
    (m.setTime t).tpos = m.tpos ∧ (m.setTime t).tpoNow = m.tpoNow ∧ (m.setTime t).wlog = m.wlog ∧
    (m.setTime t).wold = m.wold ∧
    (m.setTime t).kept = m.kept ∧ (m.setTime t).loadTop = m.loadTop ∧
    (m.setTime t).effWas = m.effWas ∧ (m.setTime t).effAt = m.effAt ∧ (m.setTime t).skewSince = m.skewSince ∧
    (m.setTime t).skewPast = m.skewPast ∧ (m.setTime t).orphans = m.orphans ∧ (m.setTime t).reruns = m.reruns :=
  by repeat' constructor
@[simp] theorem Mod.setFw_frame (m : Mod) (f : FirmwareSt) :
    (m.setFw f).objs = m.objs ∧ (m.setFw f).ro = m.ro ∧ (m.setFw f).com = m.com ∧ (m.setFw f).life = m.life ∧
    (m.setFw f).tread = m.tread ∧ (m.setFw f).fresh = m.fresh ∧ (m.setFw f).flown = m.flown ∧
    (m.setFw f).staged = m.staged ∧ (m.setFw f).reads = m.reads ∧ (m.setFw f).replies = m.replies ∧
    (m.setFw f).waiting = m.waiting ∧ (m.setFw f).arrivals = m.arrivals ∧ (m.setFw f).out = m.out ∧
    (m.setFw f).hall = m.hall ∧ (m.setFw f).hallCom = m.hallCom ∧ (m.setFw f).reserved = m.reserved ∧
    (m.setFw f).barred = m.barred ∧ (m.setFw f).switch = m.switch ∧ (m.setFw f).asks = m.asks ∧
    (m.setFw f).tracks = m.tracks ∧ (m.setFw f).pulses = m.pulses ∧ (m.setFw f).landings = m.landings ∧
    (m.setFw f).axRefused = m.axRefused ∧ (m.setFw f).bankA = m.bankA ∧ (m.setFw f).bankB = m.bankB ∧
    (m.setFw f).load = m.load ∧ (m.setFw f).selector = m.selector ∧ (m.setFw f).undo = m.undo ∧
    (m.setFw f).loops = m.loops ∧ (m.setFw f).released = m.released ∧ (m.setFw f).poolDue = m.poolDue ∧
    (m.setFw f).pool = m.pool ∧ (m.setFw f).engine = m.engine ∧ (m.setFw f).inputs = m.inputs ∧
    (m.setFw f).convs = m.convs ∧ (m.setFw f).eff = m.eff ∧ (m.setFw f).scans = m.scans ∧ (m.setFw f).cal = m.cal ∧
    (m.setFw f).calDue = m.calDue ∧ (m.setFw f).field = m.field ∧ (m.setFw f).fbanks = m.fbanks ∧
    (m.setFw f).safety = m.safety ∧ (m.setFw f).snapSafety = m.snapSafety ∧ (m.setFw f).snapPairs = m.snapPairs ∧
    (m.setFw f).snapFault = m.snapFault ∧ (m.setFw f).snapBanks = m.snapBanks ∧ (m.setFw f).snapIn = m.snapIn ∧
    (m.setFw f).snapOut = m.snapOut ∧ (m.setFw f).snapDom = m.snapDom ∧ (m.setFw f).snapAo = m.snapAo ∧
    (m.setFw f).reqs = m.reqs ∧ (m.setFw f).levels = m.levels ∧ (m.setFw f).axes = m.axes ∧
    (m.setFw f).axesCom = m.axesCom ∧ (m.setFw f).links = m.links ∧ (m.setFw f).gal = m.gal ∧
    (m.setFw f).trg = m.trg ∧ (m.setFw f).tpoLevel = m.tpoLevel ∧ (m.setFw f).tiles = m.tiles ∧
    (m.setFw f).streams = m.streams ∧ (m.setFw f).record = m.record ∧ (m.setFw f).chain2 = m.chain2 ∧
    (m.setFw f).chain4 = m.chain4 ∧ (m.setFw f).canObjs = m.canObjs ∧ (m.setFw f).canPorts = m.canPorts ∧
    (m.setFw f).journal = m.journal ∧ (m.setFw f).reset = m.reset ∧ (m.setFw f).power = m.power ∧
    (m.setFw f).time = m.time ∧ (m.setFw f).tpos = m.tpos ∧ (m.setFw f).tpoNow = m.tpoNow ∧
    (m.setFw f).wlog = m.wlog ∧ (m.setFw f).wold = m.wold ∧
    (m.setFw f).kept = m.kept ∧ (m.setFw f).loadTop = m.loadTop ∧
    (m.setFw f).effWas = m.effWas ∧ (m.setFw f).effAt = m.effAt ∧ (m.setFw f).skewSince = m.skewSince ∧
    (m.setFw f).skewPast = m.skewPast ∧ (m.setFw f).orphans = m.orphans ∧ (m.setFw f).reruns = m.reruns :=
  by repeat' constructor

end Sys2Proof.Machine
end

