-- ==== Sys2Proof/Laws/Tread.lean ====
section
/-! SUPPORT. What leaves the tread number alone: every operation but the tread boundary, resets, bring-up and the wake. -/
namespace Sys2Proof.Machine
@[simp] theorem over_tread {β : Type} (l : List β) (f : Mod → β → Mod) (m : Mod) (h : ∀ m x, (f m x).tread = m.tread) :
    (overAll l f m).tread = m.tread := by
  induction l generalizing m with
  | nil => rfl
  | cons a l ih => exact (ih (f m a)).trans (h m a)
theorem foldl_tread {β γ : Type} (l : List β) (f : Mod × γ → β → Mod × γ) (x : Mod × γ) (h : ∀ x b, (f x b).1.tread = x.1.tread) :
    (l.foldl f x).1.tread = x.1.tread := by
  induction l generalizing x with
  | nil => rfl
  | cons a l ih => exact (ih (f x a)).trans (h x a)
@[simp] theorem apply_ite_tread (c : Prop) [Decidable c] (x y : Mod) :
    (if c then x else y).tread = if c then x.tread else y.tread := apply_ite Mod.tread c x y
theorem ite_tread (c : Prop) [Decidable c] (x y : Mod) (v : Nat) (h : x.tread = v) (k : y.tread = v) : (if c then x else y).tread = v := by
  split <;> assumption
@[simp] theorem Mod.setCfg_tread (m : Mod) (idx sub v : Nat) : (Mod.setCfg m idx sub v).tread = m.tread := by unfold Mod.setCfg; simp
@[simp] theorem Mod.setCfgOf_tread (m : Mod) (a idx sub v : Nat) : (Mod.setCfgOf m a idx sub v).tread = m.tread := by unfold Mod.setCfgOf; simp
@[simp] theorem Mod.setRo_tread (m : Mod) (idx sub v : Nat) : (Mod.setRo m idx sub v).tread = m.tread := by unfold Mod.setRo; simp
@[simp] theorem Mod.bumpBy_tread (m : Mod) (idx sub n : Nat) : (Mod.bumpBy m idx sub n).tread = m.tread := by unfold Mod.bumpBy; simp
@[simp] theorem Mod.bump_tread (m : Mod) (idx sub : Nat) : (Mod.bump m idx sub).tread = m.tread := by unfold Mod.bump; simp
@[simp] theorem Mod.setRoBit_tread (m : Mod) (idx sub bit : Nat) (b : Bool) : (Mod.setRoBit m idx sub bit b).tread = m.tread := by unfold Mod.setRoBit; simp
@[simp] theorem Mod.setLoop_tread (m : Mod) (j : Nat) (s : LoopSt) : (Mod.setLoop m j s).tread = m.tread := by unfold Mod.setLoop; simp
@[simp] theorem Mod.setTrack_tread (m : Mod) (t : Nat) (s : TrackSt) : (Mod.setTrack m t s).tread = m.tread := by unfold Mod.setTrack; simp
@[simp] theorem Mod.setInp_tread (m : Mod) (x : Nat) (s : InpSt) : (Mod.setInp m x s).tread = m.tread := by unfold Mod.setInp; simp
@[simp] theorem Mod.setConv_tread (m : Mod) (c : Nat) (s : ConvSt) : (Mod.setConv m c s).tread = m.tread := by unfold Mod.setConv; simp
@[simp] theorem Mod.setFbank_tread (m : Mod) (b : Nat) (s : BankSt) : (Mod.setFbank m b s).tread = m.tread := by unfold Mod.setFbank; simp
@[simp] theorem Mod.setAxis_tread (m : Mod) (a : Nat) (s : AxisSt) : (Mod.setAxis m a s).tread = m.tread := by unfold Mod.setAxis; simp
@[simp] theorem Mod.setLink_tread (m : Mod) (k : Nat) (s : AxisLinkSt) : (Mod.setLink m k s).tread = m.tread := by unfold Mod.setLink; simp
@[simp] theorem Mod.setSafIn_tread (m : Mod) (k : Nat) (s : SafInSt) : (Mod.setSafIn m k s).tread = m.tread := by unfold Mod.setSafIn; simp
@[simp] theorem Mod.setSafOut_tread (m : Mod) (p : Nat) (s : SafOutSt) : (Mod.setSafOut m p s).tread = m.tread := by unfold Mod.setSafOut; simp
@[simp] theorem Mod.setShadow_tread (m : Mod) (b : Bank) : (Mod.setShadow m b).tread = m.tread := by unfold Mod.setShadow; simp
@[simp] theorem Mod.setBank_tread (m : Mod) (b : Bank) : (Mod.setBank m b).tread = m.tread := by
  (unfold Mod.setBank; repeat' split) <;> (first | with_reducible rfl | simp)
@[simp] theorem Mod.setCanObj_tread (m : Mod) (k : Nat) (s : CanObjSt) : (Mod.setCanObj m k s).tread = m.tread := by unfold Mod.setCanObj; simp
@[simp] theorem Mod.draw_tread (m : Mod) : (Mod.draw m).2.tread = m.tread := by unfold Mod.draw; simp
@[simp] theorem Mod.chainPut_tread (m : Mod) (stream : Nat) (packet : List Nat) (tail : Nat) : (Mod.chainPut m stream packet tail).tread = m.tread := by unfold Mod.chainPut; simp
@[simp] theorem Mod.logS4_tread (m : Mod) (kind source w1 w2 w3 : Nat) : (Mod.logS4 m kind source w1 w2 w3).tread = m.tread := by unfold Mod.logS4; simp
@[simp] theorem Mod.setGalCode_tread (m : Mod) (c : Nat) (g : GalCode) : (Mod.setGalCode m c g).tread = m.tread := by unfold Mod.setGalCode; simp
@[simp] theorem Mod.suppress_tread (m : Mod) (code : Nat) : (Mod.suppress m code).tread = m.tread := by unfold Mod.suppress; simp
@[simp] theorem Mod.enqueueDue_tread (m : Mod) (d : GalDue) : (Mod.enqueueDue m d).tread = m.tread := by
  (unfold Mod.enqueueDue; dsimp only []; repeat' (first | with_reducible rfl | assumption | (refine (over_tread _ _ _ (fun _ _ => ?_)).trans ?_) | (refine ite_tread _ _ _ _ ?_ ?_) | split | (simp; done)))
@[simp] theorem Mod.logRecord_tread (m : Mod) (d : GalDue) : (Mod.logRecord m d).tread = m.tread := by unfold Mod.logRecord; simp
@[simp] theorem Mod.logGal_tread (m : Mod) (code source : Nat) (words : List Nat) : (Mod.logGal m code source words).tread = m.tread := by unfold Mod.logGal; simp
@[simp] theorem Mod.logRecipe_tread (m : Mod) (code track step : Nat) : (Mod.logRecipe m code track step).tread = m.tread := by unfold Mod.logRecipe; simp
@[simp] theorem Mod.timeTo_tread (m : Mod) (f : Nat) : (Mod.timeTo m f).tread = m.tread := by unfold Mod.timeTo; simp
@[simp] theorem Mod.setStream_tread (m : Mod) (s : Nat) (v : StreamSt) : (Mod.setStream m s v).tread = m.tread := by unfold Mod.setStream; simp
@[simp] theorem Mod.recAt_tread (m : Mod) (s : Nat) (t : Tread) (kind key : Nat) (words : List Nat) : (Mod.recAt m s t kind key words).tread = m.tread := by
  (unfold Mod.recAt; dsimp only []; repeat' (first | with_reducible rfl | assumption | (refine (over_tread _ _ _ (fun _ _ => ?_)).trans ?_) | (refine ite_tread _ _ _ _ ?_ ?_) | split | (simp; done)))
@[simp] theorem Mod.rec__tread (m : Mod) (s : Nat) (t : Tread) (kind : Nat) (words : List Nat) : (Mod.rec_ m s t kind words).tread = m.tread := by unfold Mod.rec_; simp
@[simp] theorem Mod.note_tread (m : Mod) (who key : Nat) : (Mod.note m who key).tread = m.tread := by unfold Mod.note; simp
@[simp] theorem Mod.wr_tread (m : Mod) (who idx sub v : Nat) : (Mod.wr m who idx sub v).tread = m.tread := by unfold Mod.wr; simp
@[simp] theorem Mod.clearLog_tread (m : Mod) : (Mod.clearLog m).tread = m.tread := by unfold Mod.clearLog; simp
@[simp] theorem Mod.setRecord_tread (m : Mod) (r : RecSt) : (Mod.setRecord m r).tread = m.tread := by unfold Mod.setRecord; simp
@[simp] theorem Mod.setTrig_tread (m : Mod) (k : Nat) (t : TrigSt) : (Mod.setTrig m k t).tread = m.tread := by unfold Mod.setTrig; simp
@[simp] theorem Mod.holdOff_tread (m : Mod) (k : Nat) (t : Tread) : (Mod.holdOff m k t).tread = m.tread := by unfold Mod.holdOff; simp
@[simp] theorem Mod.remember_tread (m : Mod) (k v : Nat) : (Mod.remember m k v).tread = m.tread := by unfold Mod.remember; simp
@[simp] theorem Mod.noteRaw_tread (m : Mod) (j : Nat) (code : Int) : (Mod.noteRaw m j code).tread = m.tread := by
  (unfold Mod.noteRaw; dsimp only []; repeat' (first | with_reducible rfl | assumption | (refine (over_tread _ _ _ (fun _ _ => ?_)).trans ?_) | (refine ite_tread _ _ _ _ ?_ ?_) | split | (simp; done)))
@[simp] theorem Mod.setLevels_tread (m : Mod) : (Mod.setLevels m).tread = m.tread := by unfold Mod.setLevels; simp
@[simp] theorem Mod.abandonDark_tread (m : Mod) (b : Nat) : (Mod.abandonDark m b).tread = m.tread := by
  (unfold Mod.abandonDark; repeat' split) <;> (first | with_reducible rfl | simp)
@[simp] theorem Mod.pulsePass_tread (m : Mod) : (Mod.pulsePass m).tread = m.tread := by
  (unfold Mod.pulsePass; repeat' split) <;> (first | with_reducible rfl | simp)
@[simp] theorem Mod.darkPass_tread (m : Mod) : (Mod.darkPass m).tread = m.tread := by unfold Mod.darkPass; simp
@[simp] theorem Mod.darkStart_tread (m : Mod) (b : Nat) : (Mod.darkStart m b).tread = m.tread := by
  (unfold Mod.darkStart; repeat' split) <;> (first | with_reducible rfl | simp)
@[simp] theorem Mod.darkEnd_tread (m : Mod) (b readback : Nat) : (Mod.darkEnd m b readback).tread = m.tread := by
  (unfold Mod.darkEnd; dsimp only []; repeat' (first | with_reducible rfl | assumption | (refine (over_tread _ _ _ (fun _ _ => ?_)).trans ?_) | (refine ite_tread _ _ _ _ ?_ ?_) | split | (simp; done)))
@[simp] theorem Mod.compareOne_tread (m : Mod) (diff : Nat) (o : Nat) : (Mod.compareOne m diff o).tread = m.tread := by unfold Mod.compareOne; simp
@[simp] theorem Mod.compareReadback_tread (m : Mod) (rb : Nat) : (Mod.compareReadback m rb).tread = m.tread := by unfold Mod.compareReadback; simp
@[simp] theorem Mod.autoEnable_tread (m : Mod) (mask : Nat) : (Mod.autoEnable m mask).tread = m.tread := by unfold Mod.autoEnable; simp
@[simp] theorem Mod.coolPass_tread (m : Mod) : (Mod.coolPass m).tread = m.tread := by unfold Mod.coolPass; simp
@[simp] theorem Mod.latchImage_tread (m : Mod) (img : Img) : (Mod.latchImage m img).tread = m.tread := by unfold Mod.latchImage; simp
@[simp] theorem Mod.takeCouplers_tread (m : Mod) (img : Img) (strobes : Nat) : (Mod.takeCouplers m img strobes).tread = m.tread := by unfold Mod.takeCouplers; simp
@[simp] theorem Mod.pathChange_tread (m : Mod) : (Mod.pathChange m).tread = m.tread := by unfold Mod.pathChange; simp
@[simp] theorem Mod.outFalls_tread (m : Mod) : (Mod.outFalls m).tread = m.tread := by unfold Mod.outFalls; simp
@[simp] theorem Mod.outReturns_tread (m : Mod) : (Mod.outReturns m).tread = m.tread := by unfold Mod.outReturns; simp
@[simp] theorem Mod.outPath_tread (m : Mod) (mainOut : Bool) : (Mod.outPath m mainOut).tread = m.tread := by unfold Mod.outPath; simp
@[simp] theorem Mod.applyImage_tread (m : Mod) (mainOut : Bool) (strobes : Nat) : (Mod.applyImage m mainOut strobes).tread = m.tread := by
  unfold Mod.applyImage
  extract_lets f
  split
  · rfl
  · split
    · rfl
    · extract_lets a1 a2 a3
      have h1 : a1.tread = m.tread := by
        simp only [a1]
        (repeat' split) <;> simp +zetaDelta [apply_ite Mod.tread]
      have h2 : a2.tread = m.tread := by simp [a2, h1]
      simp [h2]
@[simp] theorem Mod.takeSnapshot_tread (m : Mod) (rb : Nat) : (Mod.takeSnapshot m rb).tread = m.tread := by unfold Mod.takeSnapshot; simp
@[simp] theorem Mod.forceFaults_tread (m : Mod) : (Mod.forceFaults m).tread = m.tread := by unfold Mod.forceFaults; simp
@[simp] theorem Mod.inFalls_tread (m : Mod) : (Mod.inFalls m).tread = m.tread := by unfold Mod.inFalls; simp
@[simp] theorem Mod.takeRaw_tread (m : Mod) (i : TreadIn) : (Mod.takeRaw m i).tread = m.tread := by unfold Mod.takeRaw; simp
@[simp] theorem Mod.inPath_tread (m : Mod) (mainIn : Bool) : (Mod.inPath m mainIn).tread = m.tread := by unfold Mod.inPath; simp
@[simp] theorem Mod.snapField_tread (m : Mod) (i : TreadIn) : (Mod.snapField m i).tread = m.tread := by unfold Mod.snapField; simp
@[simp] theorem Mod.fallback_tread (m : Mod) (side : Nat) : (Mod.fallback m side).tread = m.tread := by unfold Mod.fallback; simp
@[simp] theorem Mod.mainReturn_tread (m : Mod) (side : Nat) : (Mod.mainReturn m side).tread = m.tread := by unfold Mod.mainReturn; simp
@[simp] theorem Mod.holdExpiry_tread (m : Mod) (ms : Nat) : (Mod.holdExpiry m ms).tread = m.tread := by unfold Mod.holdExpiry; simp
@[simp] theorem Mod.sag_tread (m : Mod) (b : Nat) : (Mod.sag m b).tread = m.tread := by unfold Mod.sag; simp
@[simp] theorem Mod.supplyLow_tread (m : Mod) (b : Nat) : (Mod.supplyLow m b).tread = m.tread := by unfold Mod.supplyLow; simp
@[simp] theorem Mod.supplyBack_tread (m : Mod) (b : Nat) : (Mod.supplyBack m b).tread = m.tread := by unfold Mod.supplyBack; simp
@[simp] theorem Mod.qualified_tread (m : Mod) (b : Nat) : (Mod.qualified m b).tread = m.tread := by unfold Mod.qualified; simp
@[simp] theorem Mod.overTemp_tread (m : Mod) (o : Nat) : (Mod.overTemp m o).tread = m.tread := by unfold Mod.overTemp; simp
@[simp] theorem Mod.cooledDown_tread (m : Mod) (o : Nat) : (Mod.cooledDown m o).tread = m.tread := by unfold Mod.cooledDown; simp
@[simp] theorem Mod.unpowerField_tread (m : Mod) : (Mod.unpowerField m).tread = m.tread := by unfold Mod.unpowerField; simp
@[simp] theorem Mod.freshField_tread (m : Mod) : (Mod.freshField m).tread = m.tread := by unfold Mod.freshField; simp
@[simp] theorem Mod.aoReadback_tread (m : Mod) (g v : Nat) : (Mod.aoReadback m g v).tread = m.tread := by unfold Mod.aoReadback; simp
@[simp] theorem Mod.debounceTo_tread (m : Mod) (i level samples : Nat) : (Mod.debounceTo m i level samples).tread = m.tread := by unfold Mod.debounceTo; simp
@[simp] theorem Mod.regroup_tread (m : Mod) : (Mod.regroup m).tread = m.tread := by unfold Mod.regroup; simp
@[simp] theorem Mod.takeMaps_tread (m : Mod) : (Mod.takeMaps m).tread = m.tread := by unfold Mod.takeMaps; simp
@[simp] theorem Mod.fieldFlight_tread (m : Mod) (before : SMap Nat) : (Mod.fieldFlight m before).tread = m.tread := by unfold Mod.fieldFlight; simp
@[simp] theorem Mod.enterMode_tread (m : Mod) (who j mode : Nat) : (Mod.enterMode m who j mode).tread = m.tread := by unfold Mod.enterMode; simp
@[simp] theorem Mod.modeRecords_tread (m : Mod) : (Mod.modeRecords m).tread = m.tread := by unfold Mod.modeRecords; simp
@[simp] theorem Mod.writeManual_tread (m : Mod) (who j v : Nat) : (Mod.writeManual m who j v).tread = m.tread := by unfold Mod.writeManual; simp
@[simp] theorem Mod.takeManuals_tread (m : Mod) : (Mod.takeManuals m).tread = m.tread := by unfold Mod.takeManuals; simp
@[simp] theorem Mod.selectBank_tread (m : Mod) (who j b : Nat) : (Mod.selectBank m who j b).tread = m.tread := by unfold Mod.selectBank; simp
@[simp] theorem Mod.writeCoef_tread (m : Mod) (who bank j sub v : Nat) : (Mod.writeCoef m who bank j sub v).tread = m.tread := by unfold Mod.writeCoef; simp
@[simp] theorem Mod.loopChanges_tread (m : Mod) : (Mod.loopChanges m).tread = m.tread := by
  (unfold Mod.loopChanges; dsimp only []; repeat' (first | with_reducible rfl | assumption | (refine (over_tread _ _ _ (fun _ _ => ?_)).trans ?_) | (refine ite_tread _ _ _ _ ?_ ?_) | split | (simp; done)))
@[simp] theorem Mod.jumpTo_tread (m : Mod) (who j v : Nat) : (Mod.jumpTo m who j v).tread = m.tread := by unfold Mod.jumpTo; simp
@[simp] theorem Mod.clearTableOf_tread (m : Mod) (j : Nat) : (Mod.clearTableOf m j).tread = m.tread := by unfold Mod.clearTableOf; simp
@[simp] theorem Mod.restartTable_tread (m : Mod) (j : Nat) : (Mod.restartTable m j).tread = m.tread := by unfold Mod.restartTable; simp
@[simp] theorem Mod.setLocked_tread (m : Mod) (j : Nat) (locked : Bool) : (Mod.setLocked m j locked).tread = m.tread := by unfold Mod.setLocked; simp
@[simp] theorem Mod.indexEdge_tread (m : Mod) (j : Nat) : (Mod.indexEdge m j).tread = m.tread := by
  (unfold Mod.indexEdge; dsimp only []; repeat' (first | with_reducible rfl | assumption | (refine (over_tread _ _ _ (fun _ _ => ?_)).trans ?_) | (refine ite_tread _ _ _ _ ?_ ?_) | split | (simp; done)))
@[simp] theorem Mod.lockTimeout_tread (m : Mod) (j : Nat) : (Mod.lockTimeout m j).tread = m.tread := by unfold Mod.lockTimeout; simp
@[simp] theorem Mod.restartLock_tread (m : Mod) (j : Nat) : (Mod.restartLock m j).tread = m.tread := by unfold Mod.restartLock; simp
@[simp] theorem Mod.lockPass_tread (m : Mod) : (Mod.lockPass m).tread = m.tread := by
  (unfold Mod.lockPass; dsimp only []; repeat' (first | with_reducible rfl | assumption | (refine (over_tread _ _ _ (fun _ _ => ?_)).trans ?_) | (refine ite_tread _ _ _ _ ?_ ?_) | split | (simp; done)))
@[simp] theorem Mod.evaluate_tread (m : Mod) (poolBad pathBad : List Nat) : (Mod.evaluate m poolBad pathBad).tread = m.tread := by unfold Mod.evaluate; simp
@[simp] theorem Mod.driveAo_tread (m : Mod) (a w : Nat) (u : Dy) : (Mod.driveAo m a w u).tread = m.tread := by unfold Mod.driveAo; simp
@[simp] theorem Mod.drive_tread (m : Mod) (d : Sig) (u : Dy) : (Mod.drive m d u).tread = m.tread := by
  (unfold Mod.drive; dsimp only []; repeat' (first | with_reducible rfl | assumption | (refine (over_tread _ _ _ (fun _ _ => ?_)).trans ?_) | (refine ite_tread _ _ _ _ ?_ ?_) | split | (simp; done)))
@[simp] theorem Mod.undrive_tread (m : Mod) (a : Nat) : (Mod.undrive m a).tread = m.tread := by unfold Mod.undrive; simp
@[simp] theorem Mod.undriven_tread (m : Mod) : (Mod.undriven m).tread = m.tread := by unfold Mod.undriven; simp
@[simp] theorem Mod.applyReleased_tread (m : Mod) : (Mod.applyReleased m).tread = m.tread := by
  (unfold Mod.applyReleased; repeat' split) <;> (first | with_reducible rfl | simp)
@[simp] theorem Mod.lostPass_tread (m : Mod) : (Mod.lostPass m).tread = m.tread := by unfold Mod.lostPass; simp
@[simp] theorem Mod.resync_tread (m : Mod) (pair : Nat) : (Mod.resync m pair).tread = m.tread := by unfold Mod.resync; simp
@[simp] theorem Mod.missed_tread (m : Mod) (pair : Nat) : (Mod.missed m pair).tread = m.tread := by unfold Mod.missed; simp
@[simp] theorem Mod.takeover_tread (m : Mod) (pair : Nat) : (Mod.takeover m pair).tread = m.tread := by unfold Mod.takeover; simp
@[simp] theorem Mod.pairs_tread (m : Mod) (i : TreadIn) : (Mod.pairs m i).1.tread = m.tread := by
  unfold Mod.pairs
  extract_lets prim inA inB path missA missB e m2 m3 m4 m5 m6 okA okB m7 m8 sel m9 m10
  have h3 : m3.tread = m.tread := by simp [m3, m2]
  clear_value m3
  have h4 : m4.tread = m.tread := by simp only [m4]; split <;> simp [h3]
  clear_value m4
  have h5 : m5.tread = m.tread := by simp only [m5]; split <;> simp [h4]
  clear_value m5
  have h6 : m6.tread = m.tread := by simp only [m6]; split <;> simp [h5]
  clear_value m6
  have h7 : m7.tread = m.tread := by simp only [m7]; split <;> simp [h6]
  clear_value m7
  have h8 : m8.tread = m.tread := by simp only [m8]; split <;> simp [h7]
  clear_value m8
  have h9 : m9.tread = m.tread := by simp only [m9]; split <;> simp [h8]
  clear_value m9
  have h10 : m10.tread = m.tread := by simp only [m10]; split <;> simp [h9]
  clear_value m10
  split <;> simp [h8, h10]
@[simp] theorem Mod.resyncEnd_tread (m : Mod) (pair : Nat) (ok : Bool) : (Mod.resyncEnd m pair ok).tread = m.tread := by unfold Mod.resyncEnd; simp
@[simp] theorem Mod.queueMove_tread (m : Mod) (a : Nat) (t : Int) : (Mod.queueMove m a t).tread = m.tread := by unfold Mod.queueMove; simp
@[simp] theorem Mod.stopAxis_tread (m : Mod) (a : Nat) : (Mod.stopAxis m a).tread = m.tread := by unfold Mod.stopAxis; simp
@[simp] theorem Mod.axisFault_tread (m : Mod) (a code : Nat) : (Mod.axisFault m a code).tread = m.tread := by
  (unfold Mod.axisFault; dsimp only []; repeat' (first | with_reducible rfl | assumption | (refine (over_tread _ _ _ (fun _ _ => ?_)).trans ?_) | (refine ite_tread _ _ _ _ ?_ ?_) | split | (simp; done)))
@[simp] theorem Mod.safetyStopAxis_tread (m : Mod) (a : Nat) : (Mod.safetyStopAxis m a).tread = m.tread := by unfold Mod.safetyStopAxis; simp
@[simp] theorem Mod.axesSafety_tread (m : Mod) : (Mod.axesSafety m).tread = m.tread := by unfold Mod.axesSafety; simp
@[simp] theorem Mod.frameLink_tread (m : Mod) (k : Nat) : (Mod.frameLink m k).tread = m.tread := by
  unfold Mod.frameLink
  extract_lets mask r n header
  have h : r.1.tread = m.tread := foldl_tread _ _ _ (fun r s => by
    extract_lets a f
    split <;> simp)
  clear_value r
  simp [h]
@[simp] theorem Mod.recordAxes_tread (m : Mod) : (Mod.recordAxes m).tread = m.tread := by unfold Mod.recordAxes; simp
@[simp] theorem Mod.axisFrames_tread (m : Mod) : (Mod.axisFrames m).tread = m.tread := by unfold Mod.axisFrames; simp
@[simp] theorem Mod.planComplete_tread (m : Mod) (a : Nat) : (Mod.planComplete m a).tread = m.tread := by unfold Mod.planComplete; simp
@[simp] theorem Mod.holdDelay_tread (m : Mod) (a : Nat) : (Mod.holdDelay m a).tread = m.tread := by unfold Mod.holdDelay; simp
@[simp] theorem Mod.axisFound_tread (m : Mod) (a code : Nat) (new : Bool) : (Mod.axisFound m a code new).tread = m.tread := by unfold Mod.axisFound; simp
@[simp] theorem Mod.judgeLink_tread (m : Mod) (k : Nat) : (Mod.judgeLink m k).tread = m.tread := by unfold Mod.judgeLink; simp
@[simp] theorem Mod.stageReturn_tread (m : Mod) (a : Nat) (ret : Option Nat) : (Mod.stageReturn m a ret).tread = m.tread := by
  unfold Mod.stageReturn
  extract_lets k mask late s before m1
  split
  · rfl
  · have h1 : m1.tread = m.tread := by
      simp only [m1]
      split
      · simp
      · repeat' (first | rw [Mod.axisFault_tread] | rw [Mod.axisFound_tread] | refine ite_tread _ _ _ _ ?_ ?_ | (simp; done))
    clear_value m1
    split <;> simp [h1]
@[simp] theorem Mod.axesStatus_tread (m : Mod) : (Mod.axesStatus m).tread = m.tread := by
  (unfold Mod.axesStatus; dsimp only []; repeat' (first | with_reducible rfl | assumption | (refine (over_tread _ _ _ (fun _ _ => ?_)).trans ?_) | (refine ite_tread _ _ _ _ ?_ ?_) | split | (simp; done)))
@[simp] theorem Mod.enableAxis_tread (m : Mod) (a v : Nat) : (Mod.enableAxis m a v).tread = m.tread := by unfold Mod.enableAxis; simp
@[simp] theorem Mod.clearAxis_tread (m : Mod) (a : Nat) : (Mod.clearAxis m a).tread = m.tread := by unfold Mod.clearAxis; simp
@[simp] theorem Mod.reReference_tread (m : Mod) (a : Nat) : (Mod.reReference m a).tread = m.tread := by unfold Mod.reReference; simp
@[simp] theorem Mod.setPos_tread (m : Mod) (a : Nat) (v : Int) : (Mod.setPos m a v).tread = m.tread := by unfold Mod.setPos; simp
@[simp] theorem Mod.axisWrite_tread (m : Mod) (a sub v : Nat) : (Mod.axisWrite m a sub v).tread = m.tread := by
  (unfold Mod.axisWrite; repeat' split) <;> (first | with_reducible rfl | simp)
@[simp] theorem Mod.emptyShadow_tread (m : Mod) : (Mod.emptyShadow m).tread = m.tread := by unfold Mod.emptyShadow; simp
@[simp] theorem Mod.beginLoad_tread (m : Mod) : (Mod.beginLoad m).tread = m.tread := by unfold Mod.beginLoad; simp
@[simp] theorem Mod.putChunk_tread (m : Mod) (len data : Nat) : (Mod.putChunk m len data).tread = m.tread := by unfold Mod.putChunk; simp
@[simp] theorem Mod.finishLoad_tread (m : Mod) : (Mod.finishLoad m).tread = m.tread := by unfold Mod.finishLoad; simp
@[simp] theorem Mod.endValidation_tread (m : Mod) : (Mod.endValidation m).tread = m.tread := by unfold Mod.endValidation; simp
@[simp] theorem Mod.swapBanks_tread (m : Mod) : (Mod.swapBanks m).tread = m.tread := by unfold Mod.swapBanks; simp
@[simp] theorem Mod.activateBank_tread (m : Mod) (was k : Nat) : (Mod.activateBank m was k).tread = m.tread := by unfold Mod.activateBank; simp
@[simp] theorem Mod.applyPatch_tread (m : Mod) (slots : List (Nat × Nat)) : (Mod.applyPatch m slots).tread = m.tread := by unfold Mod.applyPatch; simp
@[simp] theorem Mod.revert_tread (m : Mod) (r : Tread) : (Mod.revert m r).tread = m.tread := by unfold Mod.revert; simp
@[simp] theorem Mod.judge_tread (m : Mod) (x : Nat) : (Mod.judge m x).tread = m.tread := by unfold Mod.judge; simp
@[simp] theorem Mod.flagInput_tread (m : Mod) (x bit : Nat) (b : Bool) : (Mod.flagInput m x bit b).tread = m.tread := by unfold Mod.flagInput; simp
@[simp] theorem Mod.judgeValue_tread (m : Mod) (x v : Nat) : (Mod.judgeValue m x v).tread = m.tread := by unfold Mod.judgeValue; simp
@[simp] theorem Mod.present_tread (m : Mod) (x : Nat) : (Mod.present m x).tread = m.tread := by
  (unfold Mod.present; repeat' split) <;> (first | with_reducible rfl | simp)
@[simp] theorem Mod.latch_tread (m : Mod) : (Mod.latch m).tread = m.tread := by unfold Mod.latch; simp
@[simp] theorem Mod.closeWindow_tread (m : Mod) (x : Nat) (w : Win) : (Mod.closeWindow m x w).tread = m.tread := by unfold Mod.closeWindow; simp
@[simp] theorem Mod.addCode_tread (m : Mod) (x : Nat) (t : Tread) (code : Int) (landed : Bool) : (Mod.addCode m x t code landed).tread = m.tread := by unfold Mod.addCode; simp
@[simp] theorem Mod.noteSample_tread (m : Mod) (x : Nat) (t : Tread) (cycles : Nat) (code : Int) : (Mod.noteSample m x t cycles code).tread = m.tread := by unfold Mod.noteSample; simp
@[simp] theorem Mod.sample_tread (m : Mod) (x : Nat) (t : Tread) (cycles : Nat) (code : Int) : (Mod.sample m x t cycles code).tread = m.tread := by unfold Mod.sample; simp
@[simp] theorem Mod.missSample_tread (m : Mod) (x : Nat) (t : Tread) : (Mod.missSample m x t).tread = m.tread := by unfold Mod.missSample; simp
@[simp] theorem Mod.restartWindow_tread (m : Mod) (x : Nat) (since : Tread) : (Mod.restartWindow m x since).tread = m.tread := by unfold Mod.restartWindow; simp
@[simp] theorem Mod.closeDue_tread (m : Mod) (x : Nat) : (Mod.closeDue m x).tread = m.tread := by
  (unfold Mod.closeDue; repeat' split) <;> (first | with_reducible rfl | simp)
@[simp] theorem Mod.fireAt_tread (m : Mod) (c off : Nat) : (Mod.fireAt m c off).tread = m.tread := by unfold Mod.fireAt; simp
@[simp] theorem Mod.askFire_tread (m : Mod) (c off : Nat) : (Mod.askFire m c off).tread = m.tread := by unfold Mod.askFire; simp
@[simp] theorem Mod.settleAsked_tread (m : Mod) (c off : Nat) : (Mod.settleAsked m c off).tread = m.tread := by unfold Mod.settleAsked; simp
@[simp] theorem Mod.fire_tread (m : Mod) (c off : Nat) : (Mod.fire m c off).tread = m.tread := by unfold Mod.fire; simp
@[simp] theorem Mod.missSlots_tread (m : Mod) (c : Nat) (slots : List Nat) : (Mod.missSlots m c slots).tread = m.tread := by unfold Mod.missSlots; simp
@[simp] theorem Mod.slotsOver_tread (m : Mod) (c : Nat) : (Mod.slotsOver m c).tread = m.tread := by unfold Mod.slotsOver; simp
@[simp] theorem Mod.slotsEnd_tread (m : Mod) : (Mod.slotsEnd m).tread = m.tread := by unfold Mod.slotsEnd; simp
@[simp] theorem Mod.capture_tread (m : Mod) (x : Nat) (t : Tread) (code : Int) (cycles : Nat) : (Mod.capture m x t code cycles).tread = m.tread := by unfold Mod.capture; simp
@[simp] theorem Mod.slotZero_tread (m : Mod) (codes : List (Nat × Int)) : (Mod.slotZero m codes).tread = m.tread := by unfold Mod.slotZero; simp
@[simp] theorem Mod.injected_tread (m : Mod) (x : Nat) (t : Tread) (code : Int) (cycles : Nat) : (Mod.injected m x t code cycles).tread = m.tread := by unfold Mod.injected; simp
@[simp] theorem Mod.landed_tread (m : Mod) (c slot : Nat) (inj : Bool) (code : Int) (cycles : Nat) (t : Tread) : (Mod.landed m c slot inj code cycles t).tread = m.tread := by unfold Mod.landed; simp
@[simp] theorem Mod.resultLands_tread (m : Mod) (c slot : Nat) (inj : Bool) (code : Int) (cycles : Nat) (off : Offset) : (Mod.resultLands m c slot inj code cycles off).tread = m.tread := by unfold Mod.resultLands; simp
@[simp] theorem Mod.mapChanged_tread (m : Mod) (s : Nat) (t : Tread) : (Mod.mapChanged m s t).tread = m.tread := by unfold Mod.mapChanged; simp
@[simp] theorem Mod.inputMaps_tread (m : Mod) (l : List Nat) (t : Tread) : (Mod.inputMaps m l t).tread = m.tread := by unfold Mod.inputMaps; simp
@[simp] theorem Mod.check_tread (m : Mod) (c : Nat) (code : Option Int) : (Mod.check m c code).tread = m.tread := by
  (unfold Mod.check; repeat' split) <;> (first | with_reducible rfl | simp)
@[simp] theorem Mod.beginCal_tread (m : Mod) (c : Nat) : (Mod.beginCal m c).tread = m.tread := by unfold Mod.beginCal; simp
@[simp] theorem Mod.resumeConv_tread (m : Mod) (c : Nat) : (Mod.resumeConv m c).tread = m.tread := by unfold Mod.resumeConv; simp
@[simp] theorem Mod.endCal_tread (m : Mod) (c : Nat) (pass : Bool) (coeffs : List (Nat × Nat × Nat)) : (Mod.endCal m c pass coeffs).tread = m.tread := by
  (unfold Mod.endCal; repeat' split) <;> (first | with_reducible rfl | simp)
@[simp] theorem Mod.beginSkew_tread (m : Mod) : (Mod.beginSkew m).tread = m.tread := by
  unfold Mod.beginSkew; exact (over_tread _ _ _ (fun m p => by simp)).trans (by simp)
@[simp] theorem Mod.endSkew_tread (m : Mod) (trims : List (Nat × Nat)) (residuals : List (Nat × Int)) : (Mod.endSkew m trims residuals).tread = m.tread := by unfold Mod.endSkew; simp
@[simp] theorem Mod.scanStart_tread (m : Mod) : (Mod.scanStart m).tread = m.tread := by
  (unfold Mod.scanStart; grind [over_tread])
@[simp] theorem Mod.scan_tread (m : Mod) (tile : Nat) (code : Int) : (Mod.scan m tile code).tread = m.tread := by
  (unfold Mod.scan; repeat' split) <;> (first | with_reducible rfl | simp)
@[simp] theorem Mod.restartTile_tread (m : Mod) (tile : Nat) (since : Tread) : (Mod.restartTile m tile since).tread = m.tread := by
  (unfold Mod.restartTile; dsimp only []; repeat' (first | with_reducible rfl | assumption | (refine (over_tread _ _ _ (fun _ _ => ?_)).trans ?_) | (refine ite_tread _ _ _ _ ?_ ?_) | split | (simp; done)))
@[simp] theorem Mod.applyInputConfig_tread (m : Mod) : (Mod.applyInputConfig m).tread = m.tread := by unfold Mod.applyInputConfig; simp
@[simp] theorem Mod.setTpo_tread (m : Mod) (k : Nat) (s : TpoSt) : (Mod.setTpo m k s).tread = m.tread := by unfold Mod.setTpo; simp
@[simp] theorem Mod.setTime_tread (m : Mod) (t : TimeSt) : (Mod.setTime m t).tread = m.tread := by unfold Mod.setTime; simp
@[simp] theorem Mod.holdFrequency_tread (m : Mod) : (Mod.holdFrequency m).tread = m.tread := by unfold Mod.holdFrequency; simp
@[simp] theorem Mod.stepTime_tread (m : Mod) (ns : Nat) : (Mod.stepTime m ns).tread = m.tread := by
  unfold Mod.stepTime
  extract_lets t m1 m2
  have h : m2.tread = m.tread := by simp [m2, m1]
  clear_value m2
  split
  · exact h
  · split <;> simp [h]
@[simp] theorem Mod.holdover_tread (m : Mod) : (Mod.holdover m).tread = m.tread := by unfold Mod.holdover; simp
@[simp] theorem Mod.selectMaster_tread (m : Mod) : (Mod.selectMaster m).tread = m.tread := by
  (unfold Mod.selectMaster; dsimp only []; repeat' (first | with_reducible rfl | assumption | (refine (over_tread _ _ _ (fun _ _ => ?_)).trans ?_) | (refine ite_tread _ _ _ _ ?_ ?_) | split | (simp; done)))
@[simp] theorem Mod.announce_tread (m : Mod) (a : AnnounceIn) : (Mod.announce m a).tread = m.tread := by unfold Mod.announce; simp
@[simp] theorem Mod.masterLost_tread (m : Mod) : (Mod.masterLost m).tread = m.tread := by
  (unfold Mod.masterLost; repeat' split) <;> (first | with_reducible rfl | simp)
@[simp] theorem Mod.recordBehind_tread (m : Mod) : (Mod.recordBehind m).tread = m.tread := by unfold Mod.recordBehind; simp
@[simp] theorem Mod.masterBehind_tread (m : Mod) : (Mod.masterBehind m).tread = m.tread := by unfold Mod.masterBehind; simp
@[simp] theorem Mod.servo_tread (m : Mod) (o : Int) : (Mod.servo m o).tread = m.tread := by unfold Mod.servo; simp
@[simp] theorem Mod.sync_tread (m : Mod) (i : SyncIn) : (Mod.sync m i).tread = m.tread := by unfold Mod.sync; simp
@[simp] theorem Mod.servoFlight_tread (m : Mod) : (Mod.servoFlight m).tread = m.tread := by unfold Mod.servoFlight; simp
@[simp] theorem Mod.refLoss_tread (m : Mod) : (Mod.refLoss m).tread = m.tread := by unfold Mod.refLoss; simp
@[simp] theorem Mod.refReturn_tread (m : Mod) : (Mod.refReturn m).tread = m.tread := by unfold Mod.refReturn; simp
@[simp] theorem Mod.tpoArm_tread (m : Mod) (k : Nat) : (Mod.tpoArm m k).tread = m.tread := by unfold Mod.tpoArm; simp
@[simp] theorem Mod.tpoDisarm_tread (m : Mod) (k : Nat) : (Mod.tpoDisarm m k).tread = m.tread := by unfold Mod.tpoDisarm; simp
@[simp] theorem Mod.edge_tread (m : Mod) (t : Tread) (sig : Sig) (level : Bool) : (Mod.edge m t sig level).tread = m.tread := by unfold Mod.edge; simp
@[simp] theorem Mod.trgEdge_tread (m : Mod) (k : Nat) (falling : Bool) : (Mod.trgEdge m k falling).tread = m.tread := by unfold Mod.trgEdge; simp
@[simp] theorem Mod.tpoPulse_tread (m : Mod) (k : Nat) : (Mod.tpoPulse m k).tread = m.tread := by
  (unfold Mod.tpoPulse; dsimp only []; repeat' (first | with_reducible rfl | assumption | (refine (over_tread _ _ _ (fun _ _ => ?_)).trans ?_) | (refine ite_tread _ _ _ _ ?_ ?_) | split | (simp; done)))
@[simp] theorem Mod.tpoEnd_tread (m : Mod) (k : Nat) : (Mod.tpoEnd m k).tread = m.tread := by
  (unfold Mod.tpoEnd; dsimp only []; repeat' (first | with_reducible rfl | assumption | (refine (over_tread _ _ _ (fun _ _ => ?_)).trans ?_) | (refine ite_tread _ _ _ _ ?_ ?_) | split | (simp; done)))
@[simp] theorem Mod.tpoQuiet_tread (m : Mod) : (Mod.tpoQuiet m).tread = m.tread := by unfold Mod.tpoQuiet; simp
@[simp] theorem Mod.tpoStep_tread (m : Mod) (d : Nat) (n : Tread) : (Mod.tpoStep m d n).tread = m.tread := by
  (unfold Mod.tpoStep; dsimp only []; repeat' (first | with_reducible rfl | assumption | (refine (over_tread _ _ _ (fun _ _ => ?_)).trans ?_) | (refine ite_tread _ _ _ _ ?_ ?_) | split | (simp; done)))
@[simp] theorem Mod.tpoResume_tread (m : Mod) : (Mod.tpoResume m).tread = m.tread := by
  (unfold Mod.tpoResume; dsimp only []; repeat' (first | with_reducible rfl | assumption | (refine (over_tread _ _ _ (fun _ _ => ?_)).trans ?_) | (refine ite_tread _ _ _ _ ?_ ?_) | split | (simp; done)))
@[simp] theorem Mod.setCanPort_tread (m : Mod) (p : Nat) (s : CanPortSt) : (Mod.setCanPort m p s).tread = m.tread := by unfold Mod.setCanPort; simp
@[simp] theorem Mod.setCanRo_tread (m : Mod) (k sub v : Nat) : (Mod.setCanRo m k sub v).tread = m.tread := by unfold Mod.setCanRo; simp
@[simp] theorem Mod.canBump_tread (m : Mod) (k sub : Nat) : (Mod.canBump m k sub).tread = m.tread := by unfold Mod.canBump; simp
@[simp] theorem Mod.putMo_tread (m : Mod) (k : Nat) (s : CanObjSt) : (Mod.putMo m k s).tread = m.tread := by unfold Mod.putMo; simp
@[simp] theorem Mod.setErrors_tread (m : Mod) (p tec rec_ : Nat) : (Mod.setErrors m p tec rec_).tread = m.tread := by unfold Mod.setErrors; simp
@[simp] theorem Mod.offEnds_tread (m : Mod) (p : Nat) : (Mod.offEnds m p).tread = m.tread := by unfold Mod.offEnds; simp
@[simp] theorem Mod.canReceive_tread (m : Mod) (p : Nat) (f : CanFrame) : (Mod.canReceive m p f).tread = m.tread := by
  unfold Mod.canReceive
  split
  · rfl
  · extract_lets m0 m1 d l
    have h1 : m1.tread = m.tread := by simp [m1, m0]
    clear_value m1
    split
    · exact h1
    · split
      · exact h1
      · extract_lets m2 s q
        have h2 : m2.tread = m.tread := by simp [m2, h1]
        clear_value m2
        split
        · simp only [Mod.putMo_tread]
          split <;> simp [h2]
        · split
          · exact h2
          · simp [h2]
@[simp] theorem Mod.canBoundary_tread (m : Mod) : (Mod.canBoundary m).tread = m.tread := by
  (unfold Mod.canBoundary; dsimp only []; repeat' (first | with_reducible rfl | assumption | (refine (over_tread _ _ _ (fun _ _ => ?_)).trans ?_) | (refine ite_tread _ _ _ _ ?_ ?_) | split | (simp; done)))
@[simp] theorem Mod.goStale_tread (m : Mod) (k : Nat) : (Mod.goStale m k).tread = m.tread := by unfold Mod.goStale; simp
@[simp] theorem Mod.sendMo_tread (m : Mod) (k : Nat) : (Mod.sendMo m k).tread = m.tread := by unfold Mod.sendMo; simp
@[simp] theorem Mod.periodicSend_tread (m : Mod) (k : Nat) : (Mod.periodicSend m k).tread = m.tread := by unfold Mod.periodicSend; simp
@[simp] theorem Mod.noteOffers_tread (m : Mod) : (Mod.noteOffers m).tread = m.tread := by unfold Mod.noteOffers; simp
@[simp] theorem Mod.attemptEnds_tread (m : Mod) (p : Nat) : (Mod.attemptEnds m p).tread = m.tread := by unfold Mod.attemptEnds; simp
@[simp] theorem Mod.sent_tread (m : Mod) (p : Nat) (began : Nat) : (Mod.sent m p began).tread = m.tread := by
  unfold Mod.sent
  split
  · rfl
  · extract_lets x m1 m2 q1 m3 q2
    split
    · rfl
    · have h : m3.tread = m.tread := by simp [m3, m2, m1]
      clear_value m3
      split
      · exact h
      · simp only [Mod.canBump_tread]
        split <;> simp [h]
      · split <;> simp [h]
@[simp] theorem Mod.busOff_tread (m : Mod) (p mo : Nat) : (Mod.busOff m p mo).tread = m.tread := by unfold Mod.busOff; simp
@[simp] theorem Mod.moError_tread (m : Mod) (p k : Nat) (off : Bool) : (Mod.moError m p k off).tread = m.tread := by unfold Mod.moError; simp
@[simp] theorem Mod.respError_tread (m : Mod) (p : Nat) (off : Bool) : (Mod.respError m p off).tread = m.tread := by
  (unfold Mod.respError; dsimp only []; repeat' (first | with_reducible rfl | assumption | (refine (over_tread _ _ _ (fun _ _ => ?_)).trans ?_) | (refine ite_tread _ _ _ _ ?_ ?_) | split | (simp; done)))
@[simp] theorem Mod.sendError_tread (m : Mod) (p : Nat) (arbitration : Bool) (ack : Bool) (began : Nat) :
    (Mod.sendError m p arbitration ack began).tread = m.tread := by
  unfold Mod.sendError
  split
  · rfl
  · extract_lets x tec off m1 m2
    split
    · rfl
    · have h : m2.tread = m.tread := by simp [m2, m1]
      clear_value m2
      split
      · simp [h]
      · simp [h]
      · split <;> simp [h]
@[simp] theorem Mod.receiveError_tread (m : Mod) (p : Nat) (dominant : Bool) : (Mod.receiveError m p dominant).tread = m.tread := by unfold Mod.receiveError; simp
@[simp] theorem Mod.recover_tread (m : Mod) (p : Nat) : (Mod.recover m p).tread = m.tread := by unfold Mod.recover; simp
@[simp] theorem Mod.recovered_tread (m : Mod) (p sequences : Nat) : (Mod.recovered m p sequences).tread = m.tread := by unfold Mod.recovered; simp
@[simp] theorem Mod.dropPending_tread (m : Mod) (p : Nat) : (Mod.dropPending m p).tread = m.tread := by unfold Mod.dropPending; simp
@[simp] theorem Mod.emptyQueue_tread (m : Mod) (p : Nat) : (Mod.emptyQueue m p).tread = m.tread := by unfold Mod.emptyQueue; simp
@[simp] theorem Mod.portOn_tread (m : Mod) (p : Nat) : (Mod.portOn m p).tread = m.tread := by unfold Mod.portOn; simp
@[simp] theorem Mod.portOff_tread (m : Mod) (p : Nat) : (Mod.portOff m p).tread = m.tread := by unfold Mod.portOff; simp
@[simp] theorem Mod.integrated_tread (m : Mod) (p : Nat) : (Mod.integrated m p).tread = m.tread := by unfold Mod.integrated; simp
@[simp] theorem Mod.resetPort_tread (m : Mod) (p : Nat) : (Mod.resetPort m p).tread = m.tread := by unfold Mod.resetPort; simp
@[simp] theorem Mod.canAfresh_tread (m : Mod) : (Mod.canAfresh m).tread = m.tread := by unfold Mod.canAfresh; simp
@[simp] theorem Mod.claim_tread (m : Mod) (p a : Nat) : (Mod.claim m p a).1.tread = m.tread := by
  (unfold Mod.claim; dsimp only []; repeat' (first | with_reducible rfl | assumption | (refine (over_tread _ _ _ (fun _ _ => ?_)).trans ?_) | (refine ite_tread _ _ _ _ ?_ ?_) | split | (simp; done)))
@[simp] theorem Mod.acknowledge_tread (m : Mod) (p a seq : Nat) : (Mod.acknowledge m p a seq).tread = m.tread := by unfold Mod.acknowledge; simp
@[simp] theorem Mod.unclaimOne_tread (m : Mod) (p seq : Nat) : (Mod.unclaimOne m p seq).tread = m.tread := by unfold Mod.unclaimOne; simp
@[simp] theorem Mod.unclaim_tread (m : Mod) (a : Nat) : (Mod.unclaim m a).tread = m.tread := by unfold Mod.unclaim; simp
@[simp] theorem Mod.decideLand_tread (m : Mod) (t cause : Nat) : (Mod.decideLand m t cause).tread = m.tread := by unfold Mod.decideLand; simp
@[simp] theorem Mod.decideEnter_tread (m : Mod) (t step exit clear : Nat) : (Mod.decideEnter m t step exit clear).tread = m.tread := by unfold Mod.decideEnter; simp
@[simp] theorem Mod.runTimers_tread (m : Mod) : (Mod.runTimers m).tread = m.tread := by unfold Mod.runTimers; simp
@[simp] theorem Mod.takeTimeout_tread (m : Mod) (t : Nat) : (Mod.takeTimeout m t).tread = m.tread := by unfold Mod.takeTimeout; simp
@[simp] theorem Mod.takeGroup_tread (m : Mod) (t g : Nat) : (Mod.takeGroup m t g).tread = m.tread := by unfold Mod.takeGroup; simp
@[simp] theorem Mod.takeDuration_tread (m : Mod) (t : Nat) : (Mod.takeDuration m t).tread = m.tread := by unfold Mod.takeDuration; simp
@[simp] theorem Mod.chooseExit_tread (m : Mod) (t : Nat) (fault qa qb : Bool) : (Mod.chooseExit m t fault qa qb).tread = m.tread := by unfold Mod.chooseExit; simp
@[simp] theorem Mod.evalGroups_tread (m w : Mod) (t : Nat) (fault : Bool) : (Mod.evalGroups m w t fault).tread = m.tread := by unfold Mod.evalGroups; simp
@[simp] theorem Mod.enterFirst_tread (m : Mod) (t : Nat) : (Mod.enterFirst m t).tread = m.tread := by unfold Mod.enterFirst; simp
@[simp] theorem Mod.evalTrack_tread (m w : Mod) (t : Nat) : (Mod.evalTrack m w t).tread = m.tread := by
  (unfold Mod.evalTrack; dsimp only []; repeat' (first | with_reducible rfl | assumption | (refine (over_tread _ _ _ (fun _ _ => ?_)).trans ?_) | (refine ite_tread _ _ _ _ ?_ ?_) | split | (simp; done)))
@[simp] theorem Mod.evalTracks_tread (m : Mod) : (Mod.evalTracks m).tread = m.tread := by unfold Mod.evalTracks; simp
@[simp] theorem Mod.evalNow_tread (m : Mod) (t : Nat) : (Mod.evalNow m t).tread = m.tread := by unfold Mod.evalNow; simp
@[simp] theorem Mod.durationExit_tread (m : Mod) (t : Nat) : (Mod.durationExit m t).tread = m.tread := by unfold Mod.durationExit; simp
@[simp] theorem Mod.timeoutExit_tread (m : Mod) (t : Nat) : (Mod.timeoutExit m t).tread = m.tread := by unfold Mod.timeoutExit; simp
@[simp] theorem Mod.dwellEnd_tread (m : Mod) (t : Nat) : (Mod.dwellEnd m t).tread = m.tread := by unfold Mod.dwellEnd; simp
@[simp] theorem Mod.settleExit_tread (m : Mod) (t : Nat) : (Mod.settleExit m t).tread = m.tread := by unfold Mod.settleExit; simp
@[simp] theorem Mod.lateWake_tread (m : Mod) (t : Nat) : (Mod.lateWake m t).tread = m.tread := by
  (unfold Mod.lateWake; dsimp only []; repeat' (first | with_reducible rfl | assumption | (refine (over_tread _ _ _ (fun _ _ => ?_)).trans ?_) | (refine ite_tread _ _ _ _ ?_ ?_) | split | (simp; done)))
@[simp] theorem Mod.wokenEntry_tread (m : Mod) (t : Nat) : (Mod.wokenEntry m t).tread = m.tread := by
  (unfold Mod.wokenEntry; dsimp only []; repeat' (first | with_reducible rfl | assumption | (refine (over_tread _ _ _ (fun _ _ => ?_)).trans ?_) | (refine ite_tread _ _ _ _ ?_ ?_) | split | (simp; done)))
@[simp] theorem Mod.wakeCheck_tread (m : Mod) : (Mod.wakeCheck m).tread = m.tread := by unfold Mod.wakeCheck; simp
@[simp] theorem Mod.setDo_tread (m : Mod) (who o v : Nat) : (Mod.setDo m who o v).tread = m.tread := by unfold Mod.setDo; simp
@[simp] theorem Mod.applyPattern_tread (m : Mod) (b : Bank) (who pat : Nat) : (Mod.applyPattern m b who pat).tread = m.tread := by unfold Mod.applyPattern; simp
@[simp] theorem Mod.refuseAction_tread (m : Mod) (t step idx op : Nat) : (Mod.refuseAction m t step idx op).tread = m.tread := by unfold Mod.refuseAction; simp
@[simp] theorem Mod.applySet_tread (m : Mod) (b : Bank) (who t step set : Nat) : (Mod.applySet m b who t step set).tread = m.tread := by
  (unfold Mod.applySet; dsimp only []; repeat' (first | with_reducible rfl | assumption | (refine (over_tread _ _ _ (fun _ _ => ?_)).trans ?_) | (refine ite_tread _ _ _ _ ?_ ?_) | split | (simp; done)))
@[simp] theorem Mod.request_tread (m : Mod) (t p : Nat) (on : Bool) : (Mod.request m t p on).tread = m.tread := by unfold Mod.request; simp
theorem Mod.outAction_tread (m m' : Mod) (who op tgt v : Nat) : m.outAction who op tgt v = some m' → m'.tread = m.tread := by
  intro h; revert h; unfold Mod.outAction
  (repeat' split) <;> intro h <;> (first | (cases h; done) | (cases h; simp; done)  | (simp only [] at h; (repeat' split at h) <;> (first | (cases h; done) | (cases h; simp; done) )))
theorem Mod.loopAction_tread (m m' : Mod) (who op tgt v : Nat) : m.loopAction who op tgt v = some m' → m'.tread = m.tread := by
  intro h; revert h; unfold Mod.loopAction
  (repeat' split) <;> intro h <;> (first | (cases h; done) | (cases h; simp; done)  | (simp only [] at h; (repeat' split at h) <;> (first | (cases h; done) | (cases h; simp; done) )))
theorem Mod.tpoAction_tread (m m' : Mod) (k treads : Nat) (e : Tread) : m.tpoAction k treads e = some m' → m'.tread = m.tread := by
  intro h; revert h; unfold Mod.tpoAction
  (repeat' split) <;> intro h <;> (first | (cases h; done) | (cases h; simp; done)  | (simp only [] at h; (repeat' split at h) <;> (first | (cases h; done) | (cases h; simp; done) )))
theorem Mod.plainAction_tread (m m' : Mod) (who t step op tgt v : Nat) (e : Tread) : m.plainAction who t step op tgt v e = some m' → m'.tread = m.tread := by
  intro h; revert h; unfold Mod.plainAction
  (repeat' split) <;> intro h <;> (first | (cases h; done) | (cases h; simp; done) | exact Mod.tpoAction_tread _ _ _ _ _ h | (simp only [] at h; (repeat' split at h) <;> (first | (cases h; done) | (cases h; simp; done) | exact Mod.tpoAction_tread _ _ _ _ _ h)))
theorem Mod.simpleAction_tread (m m' : Mod) (who t step op tgt v : Nat) (e : Tread) : m.simpleAction who t step op tgt v e = some m' → m'.tread = m.tread := by
  intro h; revert h; unfold Mod.simpleAction
  (repeat' split) <;> intro h <;> (first | (cases h; done) | (cases h; simp; done) | exact Mod.outAction_tread _ _ _ _ _ _ h | exact Mod.loopAction_tread _ _ _ _ _ _ h | exact Mod.plainAction_tread _ _ _ _ _ _ _ _ _ h | (simp only [] at h; (repeat' split at h) <;> (first | (cases h; done) | (cases h; simp; done) | exact Mod.outAction_tread _ _ _ _ _ _ h | exact Mod.loopAction_tread _ _ _ _ _ _ h | exact Mod.plainAction_tread _ _ _ _ _ _ _ _ _ h)))
theorem Mod.axisAction_tread (m m' : Mod) (op tgt v : Nat) : m.axisAction op tgt v = some m' → m'.tread = m.tread := by
  intro h; revert h; unfold Mod.axisAction
  (repeat' split) <;> intro h <;> (first | (cases h; done) | (cases h; simp; done)  | (simp only [] at h; (repeat' split at h) <;> (first | (cases h; done) | (cases h; simp; done) )))
@[simp] theorem Mod.axisActions_tread (m : Mod) (t : Nat) (idxs : List Nat) : (Mod.axisActions m t idxs).tread = m.tread := by
  unfold Mod.axisActions
  refine over_tread _ _ _ (fun m i => ?_)
  extract_lets e
  split
  · rfl
  · split
    · rename_i m1 h
      split at h
      · exact Mod.axisAction_tread _ _ _ _ _ h
      · cases h
    · rfl
@[simp] theorem Mod.landingStops_tread (m : Mod) (b : Bank) (l : Nat) : (Mod.landingStops m b l).tread = m.tread := by unfold Mod.landingStops; simp
@[simp] theorem Mod.landingEffects_tread (m : Mod) (b : Bank) (t step l : Nat) (axes : Bool) : (Mod.landingEffects m b t step l axes).tread = m.tread := by
  unfold Mod.landingEffects
  extract_lets e who m1 m2 m3 m4
  have h2 : m2.tread = m.tread := by simp [m2, m1]
  have h3 : m3.tread = m.tread := by
    refine (over_tread _ _ _ (fun m i => ?_)).trans h2
    extract_lets a op r
    split
    · rfl
    · have h : ∀ m', r = some m' → m'.tread = m.tread := by
        intro m' h
        simp only [r] at h
        split at h
        · cases h
        · split at h
          · exact Mod.axisAction_tread _ _ _ _ _ h
          · exact Mod.simpleAction_tread _ _ _ _ _ _ _ _ _ h
      clear_value r
      cases r with
      | none => simp
      | some m' => exact h m' rfl
  have h4 : m4.tread = m.tread := by simp only [m4]; split <;> simp [h3]
  simp [h4]
@[simp] theorem Mod.setTrackState_tread (m : Mod) (t new cmd : Nat) : (Mod.setTrackState m t new cmd).tread = m.tread := by unfold Mod.setTrackState; simp
@[simp] theorem Mod.notify_tread (m : Mod) (a code : Nat) (data : List Nat) : (Mod.notify m a code data).tread = m.tread := by unfold Mod.notify; simp
@[simp] theorem Mod.becomeLanded_tread (m : Mod) (t l cause cmd : Nat) (ok : Bool) : (Mod.becomeLanded m t l cause cmd ok).tread = m.tread := by unfold Mod.becomeLanded; simp
@[simp] theorem Mod.landLater_tread (m : Mod) (t l : Nat) : (Mod.landLater m t l).tread = m.tread := by unfold Mod.landLater; simp
@[simp] theorem Mod.landNow_tread (m : Mod) (t cause cmd : Nat) : (Mod.landNow m t cause cmd).tread = m.tread := by unfold Mod.landNow; simp
@[simp] theorem Mod.startTrack_tread (m : Mod) (t entry owner cmd : Nat) : (Mod.startTrack m t entry owner cmd).tread = m.tread := by unfold Mod.startTrack; simp
@[simp] theorem Mod.clearTrack_tread (m : Mod) (t : Nat) : (Mod.clearTrack m t).tread = m.tread := by unfold Mod.clearTrack; simp
@[simp] theorem Mod.command_tread (m : Mod) (t code entry a : Nat) : (Mod.command m t code entry a).tread = m.tread := by
  (unfold Mod.command; repeat' split) <;> (first | with_reducible rfl | simp)
@[simp] theorem Mod.countBlock_tread (m : Mod) (s : Nat) (z : StreamSt) (base : Nat) : (Mod.countBlock m s z base).tread = m.tread := by
  unfold Mod.countBlock; simp
@[simp] theorem Mod.drainBlock_tread (m : Mod) (s : Nat) (v : StreamSt) (b : Block) (used : Bool) : (Mod.drainBlock m s v b used).tread = m.tread := by
  (unfold Mod.drainBlock; split) <;> simp
@[simp] theorem Mod.closeBlock_tread (m : Mod) (s : Nat) (last : Tread) (capLast : Bool) : (Mod.closeBlock m s last capLast).tread = m.tread := by
  unfold Mod.closeBlock
  extract_lets
  split
  · rfl
  · extract_lets
    split
    · rfl
    · exact (Mod.drainBlock_tread _ _ _ _ _).trans (Mod.countBlock_tread _ _ _ _)
@[simp] theorem Mod.blockClose_tread (m : Mod) (s : Nat) : (Mod.blockClose m s).tread = m.tread := by
  (unfold Mod.blockClose; repeat' split) <;> (first | with_reducible rfl | simp)
@[simp] theorem Mod.noteRing_tread (m : Mod) (s : Nat) (v : StreamSt) (b : Block) (n : Nat) : (Mod.noteRing m s v b n).tread = m.tread := by
  unfold Mod.noteRing; simp
@[simp] theorem Mod.noteGap_tread (m : Mod) (b : Block) : (Mod.noteGap m b).tread = m.tread := by
  (unfold Mod.noteGap; split) <;> simp
@[simp] theorem Mod.writeDrain_tread (m : Mod) (s : Nat) : (Mod.writeDrain m s).tread = m.tread := by
  unfold Mod.writeDrain
  extract_lets
  split
  · rfl
  · exact ((Mod.noteGap_tread _ _).trans (Mod.noteRing_tread _ _ _ _ _)).trans (Mod.setRecord_tread _ _)
@[simp] theorem Mod.ringWrite_tread (m : Mod) (s : Nat) : (Mod.ringWrite m s).tread = m.tread := by
  (unfold Mod.ringWrite; repeat' split) <;> (first | with_reducible rfl | simp)
@[simp] theorem Mod.closeDown_tread (m : Mod) (s : Nat) (last : Tread) (capLast : Bool) (n : Nat) :
    (m.closeDown s last capLast n).tread = m.tread := by
  induction n generalizing m with
  | zero => rfl
  | succ n ih =>
    unfold Mod.closeDown
    extract_lets m1
    split
    · simp [m1]
    · split
      · simp [m1]
      · rw [ih]; simp [m1]
@[simp] theorem Mod.endStream_tread (m : Mod) (s : Nat) (last : Tread) (capLast : Bool) : (Mod.endStream m s last capLast).tread = m.tread := by
  unfold Mod.endStream; extract_lets m1; simp [m1]
@[simp] theorem Mod.disableStream_tread (m : Mod) (s : Nat) : (Mod.disableStream m s).tread = m.tread := by unfold Mod.disableStream; simp
@[simp] theorem Mod.drainPackets_tread (m : Mod) (s kind : Nat) (l : List (List Nat × Option Tread)) : (Mod.drainPackets m s kind l).tread = m.tread := by
  (unfold Mod.drainPackets; dsimp only []; repeat' (first | with_reducible rfl | assumption | (refine (over_tread _ _ _ (fun _ _ => ?_)).trans ?_) | (refine ite_tread _ _ _ _ ?_ ?_) | split | (simp; done)))
@[simp] theorem Mod.drainChains_tread (m : Mod) : (Mod.drainChains m).tread = m.tread := by unfold Mod.drainChains; simp
@[simp] theorem Mod.keepMap_tread (m : Mod) (s : Nat) (first : Tread) : (Mod.keepMap m s first).tread = m.tread := by unfold Mod.keepMap; simp
@[simp] theorem Mod.remap_tread (m : Mod) (k id : Nat) : (Mod.remap m k id).tread = m.tread := by
  unfold Mod.remap
  extract_lets old m1
  have h1 : m1.tread = m.tread := by simp only [m1]; split <;> simp
  simp [h1]
@[simp] theorem Mod.mapPass_tread (m : Mod) : (Mod.mapPass m).tread = m.tread := by
  unfold Mod.mapPass
  refine over_tread _ _ _ (fun m s => ?_)
  split
  · rfl
  · split
    · rfl
    · extract_lets z m1 m2 m3
      have h1 : m1.tread = m.tread := by simp [m1]
      have h2 : m2.tread = m.tread := by simp [m2, h1]
      have h3 : m3.tread = m.tread := by simp only [m3]; split <;> simp [h2]
      simp [h3]
@[simp] theorem Mod.firstMap_tread (m : Mod) (s : Nat) (t : Tread) : (Mod.firstMap m s t).tread = m.tread := by unfold Mod.firstMap; simp
@[simp] theorem Mod.newMaps_tread (m : Mod) (t : Tread) : (Mod.newMaps m t).tread = m.tread := by
  (unfold Mod.newMaps; dsimp only []; repeat' (first | with_reducible rfl | assumption | (refine (over_tread _ _ _ (fun _ _ => ?_)).trans ?_) | (refine ite_tread _ _ _ _ ?_ ?_) | split | (simp; done)))
@[simp] theorem Mod.openBlock_tread (m : Mod) (s : Nat) (t : Tread) : (Mod.openBlock m s t).tread = m.tread := by unfold Mod.openBlock; simp
@[simp] theorem Mod.openStreams_tread (m : Mod) (t : Tread) : (Mod.openStreams m t).tread = m.tread := by unfold Mod.openStreams; simp
@[simp] theorem Mod.haltStreams_tread (m : Mod) (last : Tread) (cause : Nat) : (Mod.haltStreams m last cause).tread = m.tread := by unfold Mod.haltStreams; simp
@[simp] theorem Mod.loseStreams_tread (m : Mod) : (Mod.loseStreams m).tread = m.tread := by unfold Mod.loseStreams; simp
@[simp] theorem Mod.dpFrame_tread (m : Mod) (kind segment seq : Nat) (body : List Nat) : (Mod.dpFrame m kind segment seq body).tread = m.tread := by unfold Mod.dpFrame; simp
@[simp] theorem Mod.sendBlock_tread (m : Mod) (n bytes : Nat) : (Mod.sendBlock m n bytes).tread = m.tread := by
  (unfold Mod.sendBlock; repeat' split) <;> (first | with_reducible rfl | simp)
@[simp] theorem Mod.dpSend_tread (m : Mod) : (Mod.dpSend m).tread = m.tread := by
  unfold Mod.dpSend
  split
  · rfl
  extract_lets a1 a2 a3 a4 a5 a6 a7 a8
  have h : a7.tread = m.tread := by
    simp only [a7]
    split
    · simp [a5]
    · rfl
  clear_value a7
  split <;> simp [h]
@[simp] theorem Mod.dpStatus_tread (m : Mod) : (Mod.dpStatus m).tread = m.tread := by unfold Mod.dpStatus; simp
@[simp] theorem Mod.pauseFrame_tread (m : Mod) (quanta : Nat) : (Mod.pauseFrame m quanta).tread = m.tread := by unfold Mod.pauseFrame; simp
@[simp] theorem Mod.dpStart_tread (m : Mod) : (Mod.dpStart m).tread = m.tread := by unfold Mod.dpStart; simp
@[simp] theorem Mod.openCapture_tread (m : Mod) (k off : Nat) : (Mod.openCapture m k off).tread = m.tread := by unfold Mod.openCapture; simp
@[simp] theorem Mod.trigNext_tread (m : Mod) (k : Nat) : (Mod.trigNext m k).tread = m.tread := by
  (unfold Mod.trigNext; repeat' split) <;> (first | with_reducible rfl | simp)
@[simp] theorem Mod.fireConverters_tread (m : Mod) (k off : Nat) : (Mod.fireConverters m k off).tread = m.tread := by unfold Mod.fireConverters; simp
@[simp] theorem Mod.openFire_tread (m : Mod) (k place : Nat) : (Mod.openFire m k place).tread = m.tread := by unfold Mod.openFire; simp
@[simp] theorem Mod.openFires_tread (m : Mod) : (Mod.openFires m).tread = m.tread := by unfold Mod.openFires; simp
@[simp] theorem Mod.fireTrigger_tread (m : Mod) (k off : Nat) (raw : Bool) : (Mod.fireTrigger m k off raw).tread = m.tread := by unfold Mod.fireTrigger; simp
@[simp] theorem Mod.triggerFire_tread (m : Mod) (k off : Nat) (raw : Option Int) (falling : Bool) : (Mod.triggerFire m k off raw falling).tread = m.tread := by unfold Mod.triggerFire; simp
@[simp] theorem Mod.triggerArm_tread (m : Mod) (k v : Nat) : (Mod.triggerArm m k v).tread = m.tread := by unfold Mod.triggerArm; simp
@[simp] theorem Mod.holdOffEnd_tread (m : Mod) (k : Nat) : (Mod.holdOffEnd m k).tread = m.tread := by unfold Mod.holdOffEnd; simp
@[simp] theorem Mod.windowClose_tread (m : Mod) (k : Nat) : (Mod.windowClose m k).tread = m.tread := by
  (unfold Mod.windowClose; repeat' split) <;> (first | with_reducible rfl | simp)
@[simp] theorem Mod.trigPass_tread (m : Mod) : (Mod.trigPass m).tread = m.tread := by unfold Mod.trigPass; simp
@[simp] theorem Mod.recordLoops_tread (m : Mod) : (Mod.recordLoops m).tread = m.tread := by
  unfold Mod.recordLoops
  refine over_tread _ _ _ (fun m p => ?_)
  split
  · split <;> simp
  · rfl
@[simp] theorem Mod.pairEvent_tread (m : Mod) (side k code event : Nat) : (Mod.pairEvent m side k code event).tread = m.tread := by unfold Mod.pairEvent; simp
@[simp] theorem Mod.cutPass_tread (m : Mod) : (Mod.cutPass m).tread = m.tread := by unfold Mod.cutPass; simp
@[simp] theorem Mod.allOff_tread (m : Mod) : (Mod.allOff m).tread = m.tread := by
  unfold Mod.allOff; exact over_tread _ _ _ (fun m p => by split <;> simp)
@[simp] theorem Mod.inputFault_tread (m : Mod) (k ch code : Nat) : (Mod.inputFault m k ch code).tread = m.tread := by unfold Mod.inputFault; simp
@[simp] theorem Mod.latchOut_tread (m : Mod) (p code event : Nat) : (Mod.latchOut m p code event).tread = m.tread := by unfold Mod.latchOut; simp
@[simp] theorem Mod.failsOn_tread (m : Mod) (p ch : Nat) : (Mod.failsOn m p ch).tread = m.tread := by unfold Mod.failsOn; simp
@[simp] theorem Mod.failsOff_tread (m : Mod) (p ch : Nat) : (Mod.failsOff m p ch).tread = m.tread := by unfold Mod.failsOff; simp
@[simp] theorem Mod.windowExpiry_tread (m : Mod) (side k : Nat) : (Mod.windowExpiry m side k).tread = m.tread := by unfold Mod.windowExpiry; simp
@[simp] theorem Mod.discrepancyFault_tread (m : Mod) (k : Nat) : (Mod.discrepancyFault m k).tread = m.tread := by unfold Mod.discrepancyFault; simp
@[simp] theorem Mod.judgePair_tread (m : Mod) (k : Nat) : (Mod.judgePair m k).tread = m.tread := by unfold Mod.judgePair; simp
@[simp] theorem Mod.cycleIn_tread (m : Mod) (chans : List (Nat × ChanIn)) (k : Nat) : (Mod.cycleIn m chans k).tread = m.tread := by unfold Mod.cycleIn; simp
@[simp] theorem Mod.readOut_tread (m : Mod) (rb : List (Nat × Bool)) (p : Nat) : (Mod.readOut m rb p).tread = m.tread := by unfold Mod.readOut; simp
@[simp] theorem Mod.cycleOut_tread (m : Mod) (rb : List (Nat × Bool)) (p : Nat) : (Mod.cycleOut m rb p).tread = m.tread := by unfold Mod.cycleOut; simp
@[simp] theorem Mod.safeStop_tread (m : Mod) : (Mod.safeStop m).tread = m.tread := by unfold Mod.safeStop; simp
@[simp] theorem Mod.cycleIns_tread (m : Mod) (chans : List (Nat × ChanIn)) : (Mod.cycleIns m chans).tread = m.tread := by
  unfold Mod.cycleIns; exact over_tread _ _ _ (fun m p => by simp)
@[simp] theorem Mod.cycleOuts_tread (m : Mod) (rb : List (Nat × Bool)) : (Mod.cycleOuts m rb).tread = m.tread := by
  unfold Mod.cycleOuts; exact over_tread _ _ _ (fun m p => by simp)
@[simp] theorem Mod.safetyCycle_tread (m0 : Mod) (i : SafetyIn) : (Mod.safetyCycle m0 i).tread = m0.tread := by unfold Mod.safetyCycle; simp
@[simp] theorem Mod.offDelayExpiry_tread (m : Mod) (p : Nat) : (Mod.offDelayExpiry m p).tread = m.tread := by unfold Mod.offDelayExpiry; simp
@[simp] theorem Mod.safetyDebounce_tread (m : Mod) (k ch : Nat) : (Mod.safetyDebounce m k ch).tread = m.tread := by
  (unfold Mod.safetyDebounce; dsimp only []; repeat' (first | with_reducible rfl | assumption | (refine (over_tread _ _ _ (fun _ _ => ?_)).trans ?_) | (refine ite_tread _ _ _ _ ?_ ?_) | split | (simp; done)))
@[simp] theorem Mod.safeDark_tread (m : Mod) (p ch : Nat) (fell : Option Nat) : (Mod.safeDark m p ch fell).tread = m.tread := by
  unfold Mod.safeDark
  extract_lets s cyc pass sw m0 m1 z m2
  have h0 : m0.tread = m.tread := rfl
  have h2 : m2.tread = m.tread := by simp only [m2]; simp [m1]
  clear_value m2 m0
  (repeat' split) <;> simp [h2, h0]
@[simp] theorem Mod.logicLoss_tread (m : Mod) : (Mod.logicLoss m).tread = m.tread := by unfold Mod.logicLoss; simp
@[simp] theorem Mod.restartPair_tread (m : Mod) (p : Nat) : (Mod.restartPair m p).tread = m.tread := by unfold Mod.restartPair; simp
@[simp] theorem Mod.faultResetDo_tread (m : Mod) (side k : Nat) : (Mod.faultResetDo m side k).tread = m.tread := by unfold Mod.faultResetDo; simp
@[simp] theorem Mod.arm_tread (m : Mod) (a : Nat) : (Mod.arm m a).tread = m.tread := by unfold Mod.arm; simp
@[simp] theorem Mod.disarm_tread (m : Mod) : (Mod.disarm m).tread = m.tread := by unfold Mod.disarm; simp
@[simp] theorem Mod.safetyReset_tread (m : Mod) : (Mod.safetyReset m).tread = m.tread := by unfold Mod.safetyReset; simp
@[simp] theorem Mod.domainRuns_tread (m : Mod) : (Mod.domainRuns m).tread = m.tread := by unfold Mod.domainRuns; simp
@[simp] theorem Mod.armTimeout_tread (m : Mod) : (Mod.armTimeout m).tread = m.tread := by
  (unfold Mod.armTimeout; repeat' split) <;> (first | with_reducible rfl | simp)
@[simp] theorem Mod.storePending_tread (m : Mod) : (Mod.storePending m).tread = m.tread := by unfold Mod.storePending; simp
@[simp] theorem Mod.powerSafety_tread (m : Mod) (activeOk pendingOk : Bool) : (Mod.powerSafety m activeOk pendingOk).tread = m.tread := by unfold Mod.powerSafety; simp
@[simp] theorem Mod.setJournal_tread (m : Mod) (j : JournalSt) : (Mod.setJournal m j).tread = m.tread := by unfold Mod.setJournal; simp
@[simp] theorem Mod.setReset_tread (m : Mod) (r : ResetSt) : (Mod.setReset m r).tread = m.tread := by unfold Mod.setReset; simp
@[simp] theorem Mod.endFlight_tread (m : Mod) (asStands : Mod) : (Mod.endFlight m asStands).tread = m.tread := by unfold Mod.endFlight; simp
@[simp] theorem Mod.startCheckpoint_tread (m : Mod) (f : Nat) (requested : Bool) : (Mod.startCheckpoint m f requested).tread = m.tread := by
  (unfold Mod.startCheckpoint; dsimp only []; repeat' (first | with_reducible rfl | assumption | (refine (over_tread _ _ _ (fun _ _ => ?_)).trans ?_) | (refine ite_tread _ _ _ _ ?_ ?_) | split | (simp; done)))
@[simp] theorem Mod.completeCheckpoint_tread (m : Mod) : (Mod.completeCheckpoint m).tread = m.tread := by
  (unfold Mod.completeCheckpoint; dsimp only []; repeat' (first | with_reducible rfl | assumption | (refine (over_tread _ _ _ (fun _ _ => ?_)).trans ?_) | (refine ite_tread _ _ _ _ ?_ ?_) | split | (simp; done)))
@[simp] theorem Mod.enterDelta_tread (m : Mod) (k v : Nat) : (Mod.enterDelta m k v).tread = m.tread := by unfold Mod.enterDelta; simp
@[simp] theorem Mod.writeCopy_tread (m : Mod) : (Mod.writeCopy m).tread = m.tread := by unfold Mod.writeCopy; simp
@[simp] theorem Mod.restorePool_tread (m : Mod) : (Mod.restorePool m).tread = m.tread := by
  (unfold Mod.restorePool; dsimp only []; repeat' (first | with_reducible rfl | assumption | (refine (over_tread _ _ _ (fun _ _ => ?_)).trans ?_) | (refine ite_tread _ _ _ _ ?_ ?_) | split | (simp; done)))
@[simp] theorem Mod.freeTokens_tread (m : Mod) : (Mod.freeTokens m).tread = m.tread := by unfold Mod.freeTokens; simp
@[simp] theorem Mod.cutLoads_tread (m : Mod) : (Mod.cutLoads m).tread = m.tread := by unfold Mod.cutLoads; simp
@[simp] theorem Mod.dropLogic_tread (m : Mod) : (Mod.dropLogic m).tread = m.tread := by
  unfold Mod.dropLogic
  extract_lets a1 a2 a3
  have h1 : a1.tread = m.tread := by simp [a1]
  have h2 : a2.tread = m.tread := (over_tread _ _ _ (fun m s => by split <;> simp)).trans h1
  have h3 : a3.tread = m.tread := by simp [a3, h2]
  clear_value a3
  exact h3
@[simp] theorem Mod.endStandby_tread (m : Mod) : (Mod.endStandby m).tread = m.tread := by unfold Mod.endStandby; simp
@[simp] theorem Mod.pfailFall_tread (m : Mod) (us : Nat) : (Mod.pfailFall m us).tread = m.tread := by unfold Mod.pfailFall; simp
@[simp] theorem Mod.pfailRise_tread (m : Mod) (us : Nat) : (Mod.pfailRise m us).tread = m.tread := by
  (unfold Mod.pfailRise; repeat' split) <;> (first | with_reducible rfl | simp)
@[simp] theorem Mod.countTiles_tread (m : Mod) : (Mod.countTiles m).tread = m.tread := by unfold Mod.countTiles; simp
@[simp] theorem Mod.tileMaps_tread (m : Mod) (tile : Nat) (t : Tread) : (Mod.tileMaps m tile t).tread = m.tread := by unfold Mod.tileMaps; simp
@[simp] theorem Mod.linkMap_tread (m : Mod) (tile : Nat) (t : Tread) : (Mod.linkMap m tile t).tread = m.tread := by unfold Mod.linkMap; simp
@[simp] theorem Mod.sleepTile_tread (m : Mod) (t : Nat) : (Mod.sleepTile m t).tread = m.tread := by unfold Mod.sleepTile; simp
@[simp] theorem Mod.gateTiles_tread (m : Mod) (mask : Nat) : (Mod.gateTiles m mask).tread = m.tread := by unfold Mod.gateTiles; simp
@[simp] theorem Mod.gateEarly_tread (m : Mod) : (Mod.gateEarly m).tread = m.tread := by unfold Mod.gateEarly; simp
@[simp] theorem Mod.gateLinks_tread (m : Mod) : (Mod.gateLinks m).tread = m.tread := by unfold Mod.gateLinks; simp
@[simp] theorem Mod.wakePass_tread (m : Mod) : (Mod.wakePass m).tread = m.tread := by unfold Mod.wakePass; simp
@[simp] theorem Mod.wakeTile_tread (m : Mod) (t : Nat) : (Mod.wakeTile m t).tread = m.tread := by unfold Mod.wakeTile; simp
@[simp] theorem Mod.powerPass_tread (m : Mod) : (Mod.powerPass m).tread = m.tread := by unfold Mod.powerPass; simp
@[simp] theorem Mod.portsDown_tread (m : Mod) : (Mod.portsDown m).tread = m.tread := by unfold Mod.portsDown; simp
@[simp] theorem Mod.repeatImage_tread (m : Mod) : (Mod.repeatImage m).tread = m.tread := by unfold Mod.repeatImage; simp
@[simp] theorem Mod.renewHall_tread (m : Mod) (n : Tread) : (Mod.renewHall m n).tread = m.tread := by unfold Mod.renewHall; simp
@[simp] theorem Mod.wakeServices_tread (m : Mod) : (Mod.wakeServices m).tread = m.tread := by unfold Mod.wakeServices; simp
@[simp] theorem Mod.writeRecord_tread (m : Mod) (d : GalDue) : (Mod.writeRecord m d).tread = m.tread := by unfold Mod.writeRecord; simp
@[simp] theorem Mod.writeCounted_tread (m : Mod) (d : GalDue) : (Mod.writeCounted m d).tread = m.tread := by unfold Mod.writeCounted; simp
@[simp] theorem Mod.galleryRecord_tread (m : Mod) : (Mod.galleryRecord m).tread = m.tread := by
  (unfold Mod.galleryRecord; repeat' split) <;> (first | with_reducible rfl | simp)
@[simp] theorem Mod.setRoOf_tread (m : Mod) (a idx sub v : Nat) : (Mod.setRoOf m a idx sub v).tread = m.tread := by unfold Mod.setRoOf; simp
@[simp] theorem Mod.grant_tread (m : Mod) (a mask code : Nat) : (Mod.grant m a mask code).tread = m.tread := by
  unfold Mod.grant; generalize List.find? _ _ = o; cases o <;> simp
@[simp] theorem Mod.endGrant_tread (m : Mod) (slot : Nat) : (Mod.endGrant m slot).tread = m.tread := by unfold Mod.endGrant; simp
@[simp] theorem Mod.freeLost_tread (m : Mod) : (Mod.freeLost m).tread = m.tread := by unfold Mod.freeLost; simp
@[simp] theorem Mod.holderLeaves_tread (m : Mod) (a : Nat) : (Mod.holderLeaves m a).tread = m.tread := by unfold Mod.holderLeaves; simp
@[simp] theorem Mod.galleryClear_tread (m : Mod) (a role : Nat) : (Mod.galleryClear m a role).tread = m.tread := by unfold Mod.galleryClear; simp
@[simp] theorem Mod.galleryClearEnd_tread (m : Mod) (snap : List Nat) : (Mod.galleryClearEnd m snap).tread = m.tread := by unfold Mod.galleryClearEnd; simp
@[simp] theorem Mod.validationEnd_tread (m : Mod) : (Mod.validationEnd m).tread = m.tread := by unfold Mod.validationEnd; simp
@[simp] theorem Mod.startPulse_tread (m : Mod) (o us : Nat) : (Mod.startPulse m o us).tread = m.tread := by unfold Mod.startPulse; simp
@[simp] theorem Mod.endPulse_tread (m : Mod) (before after : Nat) : (Mod.endPulse m before after).tread = m.tread := by
  (unfold Mod.endPulse; repeat' split) <;> (first | with_reducible rfl | simp)
@[simp] theorem Mod.setFw_tread (m : Mod) (f : FirmwareSt) : (Mod.setFw m f).tread = m.tread := by unfold Mod.setFw; simp
@[simp] theorem Mod.fwBegin_tread (m : Mod) : (Mod.fwBegin m).tread = m.tread := by unfold Mod.fwBegin; simp
@[simp] theorem Mod.fwChunk_tread (m : Mod) (len data : Nat) : (Mod.fwChunk m len data).tread = m.tread := by unfold Mod.fwChunk; simp
@[simp] theorem Mod.fwCancel_tread (m : Mod) : (Mod.fwCancel m).tread = m.tread := by unfold Mod.fwCancel; simp
@[simp] theorem Mod.fwVerified_tread (m : Mod) (orderOk formatOk : Bool) (version : Nat) : (Mod.fwVerified m orderOk formatOk version).tread = m.tread := by unfold Mod.fwVerified; simp
@[simp] theorem Mod.fwRecord_tread (m : Mod) : (Mod.fwRecord m).tread = m.tread := by unfold Mod.fwRecord; simp
@[simp] theorem Mod.activate_tread (m : Mod) : (Mod.activate m).tread = m.tread := by unfold Mod.activate; simp
@[simp] theorem Mod.runSlot_tread (m : Mod) (slot : Nat) : (Mod.runSlot m slot).tread = m.tread := by unfold Mod.runSlot; simp
@[simp] theorem Mod.hkStart_tread (m : Mod) : (Mod.hkStart m).tread = m.tread := by unfold Mod.hkStart; simp
@[simp] theorem Mod.confirmFw_tread (m : Mod) : (Mod.confirmFw m).tread = m.tread := by unfold Mod.confirmFw; simp
@[simp] theorem Mod.trialTimeout_tread (m : Mod) (failed : Bool) : (Mod.trialTimeout m failed).tread = m.tread := by
  (unfold Mod.trialTimeout; repeat' split) <;> (first | with_reducible rfl | simp)
@[simp] theorem Mod.enterBlock_tread (m : Mod) (b : Nat) : (Mod.enterBlock m b).tread = m.tread := by unfold Mod.enterBlock; simp
@[simp] theorem Mod.blockReset_tread (m : Mod) (mask : Nat) : (Mod.blockReset m mask).tread = m.tread := by unfold Mod.blockReset; simp
@[simp] theorem Mod.leaveBlock_tread (m : Mod) (b : Nat) : (Mod.leaveBlock m b).tread = m.tread := by unfold Mod.leaveBlock; simp
@[simp] theorem Mod.setPartner_tread (m : Mod) (a : Nat) (p : Partner) : (Mod.setPartner m a p).tread = m.tread := by unfold Mod.setPartner; simp
@[simp] theorem Mod.fillSnaps_tread (m : Mod) : (Mod.fillSnaps m).tread = m.tread := by unfold Mod.fillSnaps; simp
@[simp] theorem Mod.overlay_tread (m : Mod) (a : Nat) (e : Entry) : (Mod.overlay m a e).tread = m.tread := by unfold Mod.overlay; simp
@[simp] theorem Mod.overlayIn_tread (m : Mod) (a : Nat) (e : Entry) (dead : Bool) (later : List Entry) : (Mod.overlayIn m a e dead later).tread = m.tread := by unfold Mod.overlayIn; simp
@[simp] theorem Mod.depart_tread (m : Mod) (a why : Nat) (sealed_ : Tread) : (Mod.depart m a why sealed_).tread = m.tread := by
  (unfold Mod.depart; repeat' split) <;> (first | with_reducible rfl | simp)
@[simp] theorem Mod.send_tread (m : Mod) (r : Reply) : (Mod.send m r).tread = m.tread := by
  (unfold Mod.send; repeat' split) <;> (first | with_reducible rfl | simp)
@[simp] theorem Mod.finalReply_tread (m : Mod) (r : Reply) (journalled : Bool) : (Mod.finalReply m r journalled).tread = m.tread := by unfold Mod.finalReply; simp
@[simp] theorem Mod.releaseHeld_tread (n : Nat) (m : Mod) : (Mod.releaseHeld n m).tread = m.tread := by
  induction n generalizing m with
  | zero => rfl
  | succ n ih =>
    unfold Mod.releaseHeld
    split
    · rw [ih]; simp
    · rfl
@[simp] theorem Mod.flush_tread (m : Mod) : (Mod.flush m).tread = m.tread := by
  unfold Mod.flush; exact Mod.releaseHeld_tread _ _
@[simp] theorem Mod.imageFailed_tread (m : Mod) (a map status pos : Nat) : (Mod.imageFailed m a map status pos).tread = m.tread := by
  (unfold Mod.imageFailed; dsimp only []; repeat' (first | with_reducible rfl | assumption | (refine (over_tread _ _ _ (fun _ _ => ?_)).trans ?_) | (refine ite_tread _ _ _ _ ?_ ?_) | split | (simp; done)))
@[simp] theorem Mod.refuseIsolated_tread (m : Mod) (sealed_ : Tread) : (Mod.refuseIsolated m sealed_).tread = m.tread := by
  unfold Mod.refuseIsolated
  extract_lets w r m1 m2
  have h2 : m2.tread = m.tread := by
    refine (over_tread _ _ _ (fun m s => ?_)).trans rfl
    extract_lets pos
    split <;> simp
  rw [Mod.flush_tread]
  exact (over_tread _ _ _ (fun m s => by simp)).trans h2
@[simp] theorem Mod.loseSatellites_tread (m : Mod) (a : Nat) : (Mod.loseSatellites m a).tread = m.tread := by unfold Mod.loseSatellites; simp
@[simp] theorem Mod.leaveHall_tread (m : Mod) (a : Nat) : (Mod.leaveHall m a).tread = m.tread := by unfold Mod.leaveHall; simp
@[simp] theorem Mod.canJoin_tread (m : Mod) (p : Nat) : (Mod.canJoin m p).tread = m.tread := by
  (unfold Mod.canJoin; repeat' split) <;> (first | with_reducible rfl | simp)
@[simp] theorem Mod.canLeave_tread (m : Mod) (p : Nat) : (Mod.canLeave m p).tread = m.tread := by unfold Mod.canLeave; simp
@[simp] theorem Mod.canService_tread (m : Mod) (p v : Nat) : (Mod.canService m p v).tread = m.tread := by
  (unfold Mod.canService; dsimp only []; repeat' (first | with_reducible rfl | assumption | (refine (over_tread _ _ _ (fun _ _ => ?_)).trans ?_) | (refine ite_tread _ _ _ _ ?_ ?_) | split | (simp; done)))
@[simp] theorem Mod.store_tread (m : Mod) (who a : Nat) (e : Entry) : (Mod.store m who a e).tread = m.tread := by unfold Mod.store; simp
@[simp] theorem Mod.warnHold_tread (m : Mod) : (Mod.warnHold m).tread = m.tread := by unfold Mod.warnHold; simp
@[simp] theorem Mod.writeTable_tread (m : Mod) (who j data : Nat) : (Mod.writeTable m who j data).tread = m.tread := by unfold Mod.writeTable; simp
@[simp] theorem Mod.actLoop_tread (m : Mod) (who a : Nat) (e : Entry) (p : Place) (later : List Entry) : (Mod.actLoop m who a e p later).tread = m.tread := by
  (unfold Mod.actLoop; repeat' split) <;> (first | with_reducible rfl | simp)
@[simp] theorem Mod.actField_tread (m : Mod) (who a : Nat) (e : Entry) (p : Place) : (Mod.actField m who a e p).tread = m.tread := by
  (unfold Mod.actField; repeat' split) <;> (first | with_reducible rfl | simp)
@[simp] theorem Mod.actSafety_tread (m : Mod) (who a : Nat) (e : Entry) (p : Place) : (Mod.actSafety m who a e p).tread = m.tread := by
  (unfold Mod.actSafety; repeat' split) <;> (first | with_reducible rfl | simp)
@[simp] theorem Mod.actCan_tread (m : Mod) (who a : Nat) (e : Entry) (p : Place) : (Mod.actCan m who a e p).tread = m.tread := by
  (unfold Mod.actCan; repeat' split) <;> (first | with_reducible rfl | simp)
@[simp] theorem Mod.actRecord_tread (m : Mod) (who a : Nat) (e : Entry) (p : Place) : (Mod.actRecord m who a e p).tread = m.tread := by
  (unfold Mod.actRecord; repeat' split) <;> (first | with_reducible rfl | simp)
@[simp] theorem Mod.swapNow_tread (m : Mod) : (Mod.swapNow m).tread = m.tread := by unfold Mod.swapNow; simp
@[simp] theorem Mod.actStair_tread (m : Mod) (who a : Nat) (e : Entry) (p : Place) (all later : List Entry) : (Mod.actStair m who a e p all later).tread = m.tread := by
  (unfold Mod.actStair; repeat' split) <;> (first | with_reducible rfl | simp)
@[simp] theorem Mod.actService_tread (m : Mod) (who a : Nat) (e : Entry) (p : Place) : (Mod.actService m who a e p).tread = m.tread := by
  unfold Mod.actService
  extract_lets v m1
  have h : m1.tread = m.tread := by simp [m1]
  clear_value m1 v
  cases p.fam <;> simp only <;> (repeat' split) <;> simp [h]
@[simp] theorem Mod.actHouse_tread (m : Mod) (who a : Nat) (e : Entry) (p : Place) : (Mod.actHouse m who a e p).tread = m.tread := by
  (unfold Mod.actHouse; repeat' split) <;> (first | with_reducible rfl | simp)
@[simp] theorem Mod.commitEntry_tread (m : Mod) (who a : Nat) (e : Entry) (all later : List Entry) : (Mod.commitEntry m who a e all later).tread = m.tread := by
  unfold Mod.commitEntry
  split
  · rfl
  · rename_i p _
    cases p.fam <;> simp
@[simp] theorem Mod.applyEntries_tread (m : Mod) (who a : Nat) (all pend l : List Entry) :
    (m.applyEntries who a all pend l).tread = m.tread := by
  induction l generalizing m with
  | nil => rfl
  | cons e l ih => unfold Mod.applyEntries; rw [ih]; simp
@[simp] theorem Chk.noteRefusal_tread (c : Chk) (status : Nat) (m : Mod) : (Chk.noteRefusal c status m).tread = m.tread := by
  (unfold Chk.noteRefusal; repeat' split) <;> (first | with_reducible rfl | simp)
@[simp] theorem Mod.commitCommand_tread (m : Mod) (who : Nat) (s : Staged) (e : Entry) (dead : Bool) : (Mod.commitCommand m who s e dead).1.tread = m.tread := by
  unfold Mod.commitCommand
  extract_lets t code st m1
  have h : m1.tread = m.tread := by simp [m1]
  clear_value m1 st
  split
  · rfl
  · split; (· exact h); split <;> simp [h]
@[simp] theorem Mod.commitEntries_tread (m : Mod) (who a : Nat) (all : List Entry) (dead : Nat → Bool) (ks : List Nat) :
    (m.commitEntries who a all dead ks).tread = m.tread := by
  unfold Mod.commitEntries; extract_lets live m1; split <;> simp [m1]
@[simp] theorem Mod.commitTxn_tread (m : Mod) (who : Nat) (s : Staged) (dead : Nat → Bool) (remote : Bool) : (Mod.commitTxn m who s dead remote).1.tread = m.tread := by
  unfold Mod.commitTxn
  split
  · rfl
  · extract_lets bad ks
    split
    · rfl
    · split
      · rfl
      · clear_value bad
        cases bad with
        | some x => simp
        | none =>
          dsimp only []
          split <;> simp
@[simp] theorem Mod.commitFrom_tread (m : Mod) (barred : List (Nat × Nat)) (failed : List Nat) (i : Nat) (l : List Staged) :
    (m.commitFrom barred failed i l).1.tread = m.tread := by
  induction l generalizing m i with
  | nil => rfl
  | cons s l ih => unfold Mod.commitFrom; extract_lets after remote r; rw [ih]; simp only [r]; split <;> simp
theorem Mod.settle_tread (m : Mod) (after : Mod → Mod) (h : ∀ m, (after m).tread = m.tread) (set : List Staged) (n : Nat)
    (barred : List (Nat × Nat)) (failed : List Nat) : (m.settle after set n barred failed).1.tread = m.tread := by
  induction n generalizing barred failed with
  | zero => unfold Mod.settle; simp [h]
  | succ n ih =>
    unfold Mod.settle
    extract_lets r now e
    split
    · split
      · exact ih _ _
      · simp [e, r, h]
    · exact ih _ _
theorem Mod.commitSealed_tread (m : Mod) (after : Mod → Mod) (h : ∀ m, (after m).tread = m.tread) :
    (m.commitSealed after).1.tread = m.tread := by
  unfold Mod.commitSealed; exact Mod.settle_tread _ _ h _ _ _ _
@[simp] theorem Mod.answer_tread (m : Mod) (keysOf : List Nat) (x : Staged × Nat × Nat × Nat) : (Mod.answer m keysOf x).tread = m.tread := by
  (unfold Mod.answer; dsimp only []; repeat' (first | with_reducible rfl | assumption | (refine (over_tread _ _ _ (fun _ _ => ?_)).trans ?_) | (refine ite_tread _ _ _ _ ?_ ?_) | split | (simp; done)))
@[simp] theorem Mod.answerAll_tread (m : Mod) (l : List (Staged × Nat × Nat × Nat)) : (Mod.answerAll m l).tread = m.tread := by unfold Mod.answerAll; simp
@[simp] theorem Mod.refuse_tread (m : Mod) (x : Txn) (status pos : Nat) : (Mod.refuse m x status pos).tread = m.tread := by
  (unfold Mod.refuse; repeat' split) <;> (first | with_reducible rfl | simp)
@[simp] theorem Mod.stage_tread (m : Mod) (x : Txn) (due : Tread) : (Mod.stage m x due).tread = m.tread := by unfold Mod.stage; simp
@[simp] theorem Mod.arriveWrite_tread (m : Mod) (x : Txn) (off : Offset) : (Mod.arriveWrite m x off).tread = m.tread := by
  (unfold Mod.arriveWrite; dsimp only []; repeat' (first | with_reducible rfl | assumption | (refine (over_tread _ _ _ (fun _ _ => ?_)).trans ?_) | (refine ite_tread _ _ _ _ ?_ ?_) | split | (simp; done)))
@[simp] theorem Mod.arriveRead_tread (m : Mod) (x : Txn) (off : Offset) : (Mod.arriveRead m x off).tread = m.tread := by
  (unfold Mod.arriveRead; repeat' split) <;> (first | with_reducible rfl | simp)
@[simp] theorem Mod.arrive_tread (m : Mod) (x : Txn) (authOk versionOk : Bool) (off : Offset) : (Mod.arrive m x authOk versionOk off).tread = m.tread := by unfold Mod.arrive; simp
@[simp] theorem Mod.takeValues_tread (m : Mod) (a : Nat) (l : List Entry) : (Mod.takeValues m a l).1.tread = m.tread := by
  unfold Mod.takeValues
  exact foldl_tread _ _ _ (fun r e => by
    split
    · extract_lets q; simp [q]
    · rfl)
@[simp] theorem Mod.beginRead_tread (m : Mod) (r : ReadSt) : (Mod.beginRead m r).tread = m.tread := by
  (unfold Mod.beginRead; dsimp only []; repeat' (first | with_reducible rfl | assumption | (refine (over_tread _ _ _ (fun _ _ => ?_)).trans ?_) | (refine ite_tread _ _ _ _ ?_ ?_) | split | (simp; done)))
@[simp] theorem Mod.readService_tread (m : Mod) (a seq : Nat) : (Mod.readService m a seq).tread = m.tread := by
  (unfold Mod.readService; repeat' split) <;> (first | with_reducible rfl | simp)
@[simp] theorem Mod.readServiceEnd_tread (m : Mod) (a seq : Nat) (delivered : Bool) : (Mod.readServiceEnd m a seq delivered).tread = m.tread := by
  (unfold Mod.readServiceEnd; dsimp only []; repeat' (first | with_reducible rfl | assumption | (refine (over_tread _ _ _ (fun _ _ => ?_)).trans ?_) | (refine ite_tread _ _ _ _ ?_ ?_) | split | (simp; done)))
@[simp] theorem Mod.journalledReply_tread (m : Mod) (a seq : Nat) : (Mod.journalledReply m a seq).tread = m.tread := by unfold Mod.journalledReply; simp
@[simp] theorem Mod.answerTo_tread (m : Mod) (dest : Src) (kind assoc : Nat) (body : List Nat) : (Mod.answerTo m dest kind assoc body).tread = m.tread := by unfold Mod.answerTo; simp
@[simp] theorem Mod.sendFrame_tread (m : Mod) (dest : Src) (version : Nat × Nat) (kind assoc tag flags : Nat) (body : List Nat) : (Mod.sendFrame m dest version kind assoc tag flags body).tread = m.tread := by unfold Mod.sendFrame; simp
@[simp] theorem Mod.reply__tread (m : Mod) (dest : Src) (version : Nat × Nat) (kind assoc tag : Nat) (body : List Nat) : (Mod.reply_ m dest version kind assoc tag body).tread = m.tread := by unfold Mod.reply_; simp
@[simp] theorem Mod.helloNow_tread (m : Mod) (src : Src) (hd : FrameHead) : (Mod.helloNow m src hd).tread = m.tread := by unfold Mod.helloNow; simp
@[simp] theorem Mod.helloAnnounce_tread (m : Mod) : (Mod.helloAnnounce m).tread = m.tread := by unfold Mod.helloAnnounce; simp
@[simp] theorem Mod.lapse_tread (m : Mod) : (Mod.lapse m).tread = m.tread := by unfold Mod.lapse; simp
@[simp] theorem Mod.lapseOne_tread (m : Mod) (k : Nat) : (Mod.lapseOne m k).tread = m.tread := by
  (unfold Mod.lapseOne; repeat' split) <;> (first | with_reducible rfl | simp)
@[simp] theorem Mod.drawNonce_tread (m : Mod) (auth : Nat) : (Mod.drawNonce m auth).2.tread = m.tread := by
  (unfold Mod.drawNonce; repeat' split) <;> (first | with_reducible rfl | simp)
@[simp] theorem Mod.negotiateNow_tread (m0 : Mod) (src : Src) (r : NegReq) (hd : FrameHead) : (Mod.negotiateNow m0 src r hd).tread = m0.tread := by
  (unfold Mod.negotiateNow; dsimp only []; repeat' (first | with_reducible rfl | assumption | (refine (over_tread _ _ _ (fun _ _ => ?_)).trans ?_) | (refine ite_tread _ _ _ _ ?_ ?_) | split | (simp; done)))
@[simp] theorem Mod.associateNow_tread (m : Mod) (src : Src) (r : AssocReq) (hd : FrameHead) : (Mod.associateNow m src r hd).tread = m.tread := by
  (unfold Mod.associateNow; repeat' split) <;> (first | with_reducible rfl | simp)
@[simp] theorem Mod.dropFrame_tread (m : Mod) : (Mod.dropFrame m).tread = m.tread := by unfold Mod.dropFrame; simp
@[simp] theorem Mod.ask_tread (m : Mod) (x : Ask) : (Mod.ask m x).tread = m.tread := by
  unfold Mod.ask
  split
  · rfl
  · split
    · simp
    · split
      · rfl
      · split
        · simp
        · split <;> simp
        · simp
@[simp] theorem Mod.serveAsks_tread (m : Mod) : (Mod.serveAsks m).tread = m.tread := by unfold Mod.serveAsks; simp
@[simp] theorem Mod.heartbeats_tread (m : Mod) : (Mod.heartbeats m).tread = m.tread := by unfold Mod.heartbeats; simp
@[simp] theorem Mod.declareLost_tread (m : Mod) (a : Nat) (off : Offset) : (Mod.declareLost m a off).tread = m.tread := by
  (unfold Mod.declareLost; repeat' split) <;> (first | with_reducible rfl | simp)
@[simp] theorem Mod.tellLost_tread (m : Mod) (p : Partner) : (Mod.tellLost m p).tread = m.tread := by unfold Mod.tellLost; simp
@[simp] theorem Mod.lossAction_tread (m : Mod) (p : Partner) : (Mod.lossAction m p).tread = m.tread := by unfold Mod.lossAction; simp
@[simp] theorem Mod.enterHall_tread (m : Mod) : (Mod.enterHall m).tread = m.tread := by unfold Mod.enterHall; simp
@[simp] theorem Mod.abortAction_tread (m : Mod) (x : Nat) : (Mod.abortAction m x).tread = m.tread := by unfold Mod.abortAction; simp
theorem Mod.setMapped_tread (m m' : Mod) (who tgt v : Nat) : m.setMapped who tgt v = some m' → m'.tread = m.tread := by
  intro h; revert h; unfold Mod.setMapped
  (repeat' split) <;> intro h <;> (first | (cases h; done) | (cases h; simp; done)  | (simp only [] at h; (repeat' split at h) <;> (first | (cases h; done) | (cases h; simp; done) )))
theorem Mod.startAction_tread (m m' : Mod) (t x entry : Nat) : m.startAction t x entry = some m' → m'.tread = m.tread := by
  intro h; revert h; unfold Mod.startAction
  (repeat' split) <;> intro h <;> (first | (cases h; done) | (cases h; simp; done)  | (simp only [] at h; (repeat' split at h) <;> (first | (cases h; done) | (cases h; simp; done) )))
theorem Mod.stepAction_tread (m m' : Mod) (t step op tgt v : Nat) : m.stepAction t step op tgt v = some m' → m'.tread = m.tread := by
  intro h; revert h; unfold Mod.stepAction
  (repeat' split) <;> intro h <;> (first | (cases h; done) | (cases h; simp; done) | exact Mod.setMapped_tread _ _ _ _ _ h | exact Mod.startAction_tread _ _ _ _ _ h | exact Mod.simpleAction_tread _ _ _ _ _ _ _ _ _ h | (simp only [] at h; (repeat' split at h) <;> (first | (cases h; done) | (cases h; simp; done) | exact Mod.setMapped_tread _ _ _ _ _ h | exact Mod.startAction_tread _ _ _ _ _ h | exact Mod.simpleAction_tread _ _ _ _ _ _ _ _ _ h)))
@[simp] theorem Mod.applyAction_tread (m : Mod) (b : Bank) (t step i : Nat) : (Mod.applyAction m b t step i).tread = m.tread := by
  unfold Mod.applyAction
  extract_lets e
  split
  · rfl
  · split
    · rename_i m1 h
      split at h
      · exact Mod.stepAction_tread _ _ _ _ _ _ _ h
      · cases h
    · simp
@[simp] theorem Mod.clearEvents_tread (m : Mod) (who mask : Nat) : (Mod.clearEvents m who mask).tread = m.tread := by unfold Mod.clearEvents; simp
@[simp] theorem Mod.entryEffects_tread (m : Mod) (b : Bank) (t step clear : Nat) : (Mod.entryEffects m b t step clear).tread = m.tread := by unfold Mod.entryEffects; simp
@[simp] theorem Mod.entryRecord_tread (m : Mod) (t step : Nat) : (Mod.entryRecord m t step).tread = m.tread := by unfold Mod.entryRecord; simp
@[simp] theorem Mod.enterStep_tread (m : Mod) (t step exit : Nat) : (Mod.enterStep m t step exit).tread = m.tread := by unfold Mod.enterStep; simp
@[simp] theorem Mod.transit_tread (m : Mod) (t : Nat) : (Mod.transit m t).tread = m.tread := by
  (unfold Mod.transit; repeat' split) <;> (first | with_reducible rfl | simp)
@[simp] theorem Mod.transitions_tread (m : Mod) : (Mod.transitions m).tread = m.tread := by unfold Mod.transitions; simp
@[simp] theorem Mod.enterAll_tread (m : Mod) (b : Bank) (l : List (Nat × Nat × Nat)) : (Mod.enterAll m b l).tread = m.tread := by unfold Mod.enterAll; simp
@[simp] theorem Mod.delayedUpTo_tread (m : Mod) (t lim : Nat) : (Mod.delayedUpTo m t lim).tread = m.tread := by unfold Mod.delayedUpTo; simp
@[simp] theorem Mod.delayedNow_tread (m : Mod) (t : Nat) : (Mod.delayedNow m t).tread = m.tread := by unfold Mod.delayedNow; simp
@[simp] theorem Mod.delayedAll_tread (m : Mod) (b : Bank) (due : List (Nat × Nat × Nat × List Nat)) : (Mod.delayedAll m b due).tread = m.tread := by unfold Mod.delayedAll; simp
@[simp] theorem Mod.stepEffects_tread (m : Mod) (b : Bank) (entered : List (Nat × Nat × Nat)) (due : List (Nat × Nat × Nat × List Nat)) : (Mod.stepEffects m b entered due).tread = m.tread := by unfold Mod.stepEffects; simp
@[simp] theorem Mod.pulseEnd_tread (m : Mod) (o : Nat) : (Mod.pulseEnd m o).tread = m.tread := by unfold Mod.pulseEnd; simp
@[simp] theorem Mod.pulseEnds_tread (m : Mod) : (Mod.pulseEnds m).tread = m.tread := by unfold Mod.pulseEnds; simp
@[simp] theorem Mod.landAll_tread (m : Mod) (b : Bank) (decided now : List (Nat × Nat × Nat)) : (Mod.landAll m b decided now).tread = m.tread := by unfold Mod.landAll; simp
@[simp] theorem Mod.axisParts_tread (m : Mod) : (Mod.axisParts m).tread = m.tread := by
  unfold Mod.axisParts
  extract_lets m1
  have h : m1.tread = m.tread := over_tread _ _ _ (fun m t => by
    split
    · split
      · extract_lets l; split <;> simp
      · simp
    · split <;> simp
    · rfl)
  clear_value m1
  exact (over_tread _ _ _ (fun m t => by split <;> simp)).trans h
@[simp] theorem Mod.axisRefusals_tread (m : Mod) : (Mod.axisRefusals m).tread = m.tread := by unfold Mod.axisRefusals; simp
@[simp] theorem Mod.takeFrame_tread (m : Mod) (kind : Nat) (f : Frame) : (Mod.takeFrame m kind f).1.tread = m.tread := by
  unfold Mod.takeFrame
  (repeat' split) <;> simp
@[simp] theorem Mod.takeImage_tread (m : Mod) (a : Nat) (x : Msg) (k : Nat) (data : List Nat) (off : Offset) : (Mod.takeImage m a x k data off).tread = m.tread := by unfold Mod.takeImage; simp
@[simp] theorem Mod.take_tread (m : Mod) (a : Nat) (x : Msg) (off : Offset) : (Mod.take m a x off).tread = m.tread := by
  (unfold Mod.take; repeat' split) <;> (first | with_reducible rfl | simp)
@[simp] theorem Mod.duplicate_tread (m : Mod) (a : Nat) (p : Partner) (seq : Nat) : (Mod.duplicate m a p seq).tread = m.tread := by
  (unfold Mod.duplicate; repeat' split) <;> (first | with_reducible rfl | simp)
@[simp] theorem Mod.drainHeld_tread (m : Mod) (a : Nat) (off : Offset) (n : Nat) : (m.drainHeld a off n).tread = m.tread := by
  induction n generalizing m with
  | zero => rfl
  | succ n ih =>
    unfold Mod.drainHeld
    split
    · rfl
    · split
      · rfl
      · rw [ih]; simp
@[simp] theorem Mod.sequenceGap_tread (m : Mod) (a : Nat) (off : Offset) (n : Nat) : (m.sequenceGap a off n).tread = m.tread := by
  induction n generalizing m with
  | zero => rfl
  | succ n ih =>
    unfold Mod.sequenceGap
    split
    · rfl
    · split
      · rfl
      · split
        · rfl
        · extract_lets m1; rw [ih]; simp [m1]
@[simp] theorem Mod.sequence_tread (m : Mod) (a : Nat) (x : Msg) (now : Bool) (off : Offset) : (Mod.sequence m a x now off).tread = m.tread := by
  unfold Mod.sequence
  split
  · rfl
  · rename_i p _
    extract_lets e p2 d full m1 m2
    have h1 : m1.tread = m.tread := by simp [m1]
    have h2 : m2.tread = m.tread := by simp [m2]
    clear_value m1 m2
    split
    · rw [Mod.drainHeld_tread]
      split <;> simp [h1]
    · split
      · split
        · simp
        · split
          · split <;> simp [h2]
          · simp
      · split <;> simp
@[simp] theorem Mod.received_tread (m : Mod) (a : Nat) (q : Partial) (off : Offset) : (Mod.received m a q off).tread = m.tread := by unfold Mod.received; simp
@[simp] theorem Mod.dropPartial_tread (m : Mod) (a : Nat) (p : Partner) : (Mod.dropPartial m a p).tread = m.tread := by
  (unfold Mod.dropPartial; repeat' split) <;> (first | with_reducible rfl | simp)
@[simp] theorem Mod.segment_tread (m : Mod) (p : Partner) (f : Frame) (authOk : Bool) : (Mod.segment m p f authOk).tread = m.tread := by
  (unfold Mod.segment; dsimp only []; repeat' (first | with_reducible rfl | assumption | (refine (over_tread _ _ _ (fun _ _ => ?_)).trans ?_) | (refine ite_tread _ _ _ _ ?_ ?_) | split | (simp; done)))
@[simp] theorem Mod.transact_tread (m : Mod) (f : Frame) : (Mod.transact m f).tread = m.tread := by
  unfold Mod.transact
  split
  · rename_i m' p b h
    have hm : m'.tread = m.tread := by have := Mod.takeFrame_tread m 4 f; rw [h] at this; exact this
    clear h
    simp [hm]
  · rename_i m' h
    have := Mod.takeFrame_tread m 4 f; rw [h] at this; exact this
@[simp] theorem Mod.segmentDiscard_tread (m : Mod) (a : Nat) : (Mod.segmentDiscard m a).tread = m.tread := by
  (unfold Mod.segmentDiscard; repeat' split) <;> (first | with_reducible rfl | simp)
@[simp] theorem Mod.imageFrame_tread (m : Mod) (f : Frame) : (Mod.imageFrame m f).tread = m.tread := by
  unfold Mod.imageFrame
  split
  · rename_i m' p b h
    have hm : m'.tread = m.tread := by have := Mod.takeFrame_tread m 5 f; rw [h] at this; exact this
    clear h
    extract_lets k data data2
    split
    · simp [hm]
    · rw [Mod.sequence_tread]; exact hm
  · rename_i m' h
    have := Mod.takeFrame_tread m 5 f; rw [h] at this; exact this
@[simp] theorem Mod.heartbeatFrame_tread (m : Mod) (f : Frame) : (Mod.heartbeatFrame m f).tread = m.tread := by unfold Mod.heartbeatFrame; simp
@[simp] theorem Mod.byeFrame_tread (m : Mod) (f : Frame) : (Mod.byeFrame m f).tread = m.tread := by
  unfold Mod.byeFrame
  split
  · rename_i m' b h
    have hm : m'.tread = m.tread := by have := Mod.takeFrame_tread m 8 f; rw [h] at this; exact this
    clear h
    split
    · simp [hm]
    · split <;> simp [hm]
  · rename_i m' h
    have := Mod.takeFrame_tread m 8 f; rw [h] at this; exact this
@[simp] theorem Mod.imageSend_tread (m : Mod) (k : Nat) (late : Bool) : (Mod.imageSend m k late).tread = m.tread := by
  (unfold Mod.imageSend; dsimp only []; repeat' (first | with_reducible rfl | assumption | (refine (over_tread _ _ _ (fun _ _ => ?_)).trans ?_) | (refine ite_tread _ _ _ _ ?_ ?_) | split | (simp; done)))
@[simp] theorem Mod.partner_tread (m : Mod) (h : Hdr) (write : Bool) (l : List Entry) : (Mod.partner m h write l).tread = m.tread := by
  (unfold Mod.partner; repeat' split) <;> (first | with_reducible rfl | simp)
@[simp] theorem Mod.write1_tread (m : Mod) (h : Hdr) (idx sub len val : Nat) : (Mod.write1 m h idx sub len val).tread = m.tread := by unfold Mod.write1; simp
@[simp] theorem Mod.serveNow_tread (m : Mod) (a seq : Nat) : (Mod.serveNow m a seq).tread = m.tread := by
  (unfold Mod.serveNow; repeat' split) <;> (first | with_reducible rfl | simp)
@[simp] theorem Mod.queueRead_tread (m : Mod) (h : Hdr) (p : Nat) : (Mod.queueRead m h p).tread = m.tread := by unfold Mod.queueRead; simp
@[simp] theorem Mod.accessRequest_tread (m : Mod) (p : Nat) (f : CanFrame) (off : Offset) : (Mod.accessRequest m p f off).tread = m.tread := by unfold Mod.accessRequest; simp
@[simp] theorem Mod.setSwitch_tread (m : Mod) (s : SwitchSt) : (Mod.setSwitch m s).tread = m.tread := by unfold Mod.setSwitch; simp
@[simp] theorem Mod.fill_tread (m : Mod) (port : Nat) (high : Bool) (len : Nat) : (Mod.fill m port high len).1.tread = m.tread := by
  (unfold Mod.fill; dsimp only []; repeat' (first | with_reducible rfl | assumption | (refine (over_tread _ _ _ (fun _ _ => ?_)).trans ?_) | (refine ite_tread _ _ _ _ ?_ ?_) | split | (simp; done)))
@[simp] theorem Mod.enqueue_tread (m : Mod) (f : SwFrame) (port : Nat) : (Mod.enqueue m f port).tread = m.tread := by unfold Mod.enqueue; simp
@[simp] theorem Mod.clockFrame_tread (m : Mod) (f : SwFrame) : (Mod.clockFrame m f).1.tread = m.tread := by
  (unfold Mod.clockFrame; repeat' split) <;> (first | with_reducible rfl | simp)
@[simp] theorem Mod.peerDelay_tread (m : Mod) (port d : Nat) : (Mod.peerDelay m port d).tread = m.tread := by unfold Mod.peerDelay; simp
@[simp] theorem Mod.forwardTo_tread (m : Mod) (f : SwFrame) (corrections : List Nat) (p : Nat) : (Mod.forwardTo m f corrections p).tread = m.tread := by unfold Mod.forwardTo; simp
@[simp] theorem Mod.forward_tread (m : Mod) (f : SwFrame) : (Mod.forward m f).tread = m.tread := by unfold Mod.forward; simp
@[simp] theorem Mod.queueOwn_tread (m : Mod) : (Mod.queueOwn m).tread = m.tread := by unfold Mod.queueOwn; simp
@[simp] theorem Mod.switchFrame_tread (m : Mod) (f : SwFrame) : (Mod.switchFrame m f).tread = m.tread := by unfold Mod.switchFrame; simp
@[simp] theorem Mod.ageOut_tread (m : Mod) (mac : Nat) : (Mod.ageOut m mac).tread = m.tread := by unfold Mod.ageOut; simp
@[simp] theorem Mod.drainQueues_tread (m : Mod) : (Mod.drainQueues m).tread = m.tread := by unfold Mod.drainQueues; simp
@[simp] theorem Mod.ringFlight_tread (m : Mod) : (Mod.ringFlight m).tread = m.tread := by unfold Mod.ringFlight; simp
@[simp] theorem Mod.ringOpens_tread (m : Mod) : (Mod.ringOpens m).tread = m.tread := by unfold Mod.ringOpens; simp
@[simp] theorem Mod.ringCloses_tread (m : Mod) : (Mod.ringCloses m).tread = m.tread := by unfold Mod.ringCloses; simp
@[simp] theorem Mod.arp_tread (m : Mod) (port ip mac : Nat) : (Mod.arp m port ip mac).tread = m.tread := by unfold Mod.arp; simp
@[simp] theorem Mod.followUpTimeout_tread (m : Mod) (id_ : Nat) : (Mod.followUpTimeout m id_).tread = m.tread := by
  (unfold Mod.followUpTimeout; repeat' split) <;> (first | with_reducible rfl | simp)
@[simp] theorem Mod.portLink_tread (m : Mod) (port speed : Nat) : (Mod.portLink m port speed).tread = m.tread := by unfold Mod.portLink; simp
@[simp] theorem Mod.shiftControl_tread (m : Mod) (d : Nat) : (Mod.shiftControl m d).tread = m.tread := by unfold Mod.shiftControl; simp
@[simp] theorem Mod.shiftLink_tread (m : Mod) (d : Nat) : (Mod.shiftLink m d).tread = m.tread := by unfold Mod.shiftLink; simp
@[simp] theorem Mod.refuseNamed_tread (m : Mod) : (Mod.refuseNamed m).tread = m.tread := by unfold Mod.refuseNamed; simp
@[simp] theorem Mod.newConfig_tread (m : Mod) (n : Tread) : (Mod.newConfig m n).tread = m.tread := by unfold Mod.newConfig; simp
@[simp] theorem Mod.closeTread_tread (m : Mod) : (Mod.closeTread m).tread = m.tread := by unfold Mod.closeTread; simp
@[simp] theorem Mod.recordEdges_tread (m : Mod) : (Mod.recordEdges m).tread = m.tread := by unfold Mod.recordEdges; simp
@[simp] theorem Mod.loseSources_tread (m : Mod) : (Mod.loseSources m).tread = m.tread := by unfold Mod.loseSources; simp
@[simp] theorem Mod.departures_tread (m : Mod) : (Mod.departures m).tread = m.tread := by unfold Mod.departures; simp
@[simp] theorem Mod.clearSent_tread (m : Mod) : (Mod.clearSent m).tread = m.tread := by unfold Mod.clearSent; simp
@[simp] theorem Mod.fieldBoundary_tread (m : Mod) (i : TreadIn) : (Mod.fieldBoundary m i).tread = m.tread := by unfold Mod.fieldBoundary; simp
@[simp] theorem Mod.afterSet_tread (m : Mod) (b : Bank) (entered : List (Nat × Nat × Nat)) (due : List (Nat × Nat × Nat × List Nat)) (decided : List (Nat × Nat × Nat)) : (Mod.afterSet m b entered due decided).tread = m.tread := by unfold Mod.afterSet; simp
@[simp] theorem Mod.commitBoundary_tread (m : Mod) : (Mod.commitBoundary m).1.tread = m.tread := by
  unfold Mod.commitBoundary
  exact (Mod.commitSealed_tread _ _ (fun m => by simp)).trans (by simp)
@[simp] theorem Mod.fixBoundary_tread (m : Mod) (set : List (Staged × Nat × Nat × Nat)) : (Mod.fixBoundary m set).tread = m.tread := by unfold Mod.fixBoundary; simp
@[simp] theorem Mod.tilePass_tread (m : Mod) : (Mod.tilePass m).tread = m.tread := by unfold Mod.tilePass; simp
@[simp] theorem Mod.commitRo_tread (m : Mod) : (Mod.commitRo m).tread = m.tread := by unfold Mod.commitRo; simp
@[simp] theorem Mod.setEach_tread (m : Mod) (idx sub : Nat) (l : List Nat) : (Mod.setEach m idx sub l).tread = m.tread := by unfold Mod.setEach; simp
@[simp] theorem Mod.measure_tread (m : Mod) (i : FlightIn) : (Mod.measure m i).tread = m.tread := by unfold Mod.measure; simp
@[simp] theorem Mod.ringRate_tread (m : Mod) (f : Nat) : (Mod.ringRate m f).tread = m.tread := by unfold Mod.ringRate; simp
@[simp] theorem Mod.flight_tread (m : Mod) (i : FlightIn) : (Mod.flight m i).tread = m.tread := by unfold Mod.flight; simp
@[simp] theorem Mod.restartServo_tread (m : Mod) : (Mod.restartServo m).tread = m.tread := by unfold Mod.restartServo; simp
@[simp] theorem Mod.storedOptions_tread (m : Mod) : (Mod.storedOptions m).tread = m.tread := by
  (unfold Mod.storedOptions; repeat' split) <;> (first | with_reducible rfl | simp)
@[simp] theorem Mod.minimalOptions_tread (m : Mod) (b : BringUp) : (Mod.minimalOptions m b).tread = m.tread := by unfold Mod.minimalOptions; simp
@[simp] theorem Mod.loadOptions_tread (m : Mod) (b : BringUp) : (Mod.loadOptions m b).tread = m.tread := by unfold Mod.loadOptions; simp
@[simp] theorem Mod.blank_tread (m : Mod) : (Mod.blank m).tread = m.tread := by unfold Mod.blank; simp
@[simp] theorem Mod.coldStart_tread (m : Mod) (n : Tread) : (Mod.coldStart m n).tread = m.tread := by unfold Mod.coldStart; simp
@[simp] theorem Mod.endRuns_tread (m : Mod) : (Mod.endRuns m).tread = m.tread := by unfold Mod.endRuns; simp
@[simp] theorem Mod.load__tread (m : Mod) (r : Restore) : (Mod.load_ m r).tread = m.tread := by unfold Mod.load_; simp
@[simp] theorem Mod.setOutputs_tread (m : Mod) (img : Img) : (Mod.setOutputs m img).tread = m.tread := by
  (unfold Mod.setOutputs; dsimp only []; repeat' (first | with_reducible rfl | assumption | (refine (over_tread _ _ _ (fun _ _ => ?_)).trans ?_) | (refine ite_tread _ _ _ _ ?_ ?_) | split | (simp; done)))
@[simp] theorem Mod.allOutputsOff_tread (m : Mod) : (Mod.allOutputsOff m).tread = m.tread := by
  (unfold Mod.allOutputsOff; dsimp only []; repeat' (first | with_reducible rfl | assumption | (refine (over_tread _ _ _ (fun _ _ => ?_)).trans ?_) | (refine ite_tread _ _ _ _ ?_ ?_) | split | (simp; done)))
@[simp] theorem Mod.carryOn_tread (m : Mod) (t : Nat) (n g : Tread) : (Mod.carryOn m t n g).tread = m.tread := by unfold Mod.carryOn; simp
@[simp] theorem Mod.landTracks_tread (m : Mod) (effects : Bool) : (Mod.landTracks m effects).tread = m.tread := by unfold Mod.landTracks; simp
@[simp] theorem Mod.outcomeState_tread (m : Mod) (out : Nat) (off : Bool) (r : Restore) (n : Tread) : (Mod.outcomeState m out off r n).tread = m.tread := by unfold Mod.outcomeState; simp
@[simp] theorem Mod.outcomeObjects_tread (m : Mod) (out why r n g : Nat) (diff : List Nat) : (Mod.outcomeObjects m out why r n g diff).tread = m.tread := by unfold Mod.outcomeObjects; simp
@[simp] theorem Mod.announceReset_tread (m : Mod) : (Mod.announceReset m).tread = m.tread := by
  (unfold Mod.announceReset; dsimp only []; repeat' (first | with_reducible rfl | assumption | (refine (over_tread _ _ _ (fun _ _ => ?_)).trans ?_) | (refine ite_tread _ _ _ _ ?_ ?_) | split | (simp; done)))
@[simp] theorem Mod.recordReset_tread (m : Mod) : (Mod.recordReset m).tread = m.tread := by unfold Mod.recordReset; simp
@[simp] theorem Mod.takePhases_tread (m : Mod) (n : Tread) : (Mod.takePhases m n).tread = m.tread := by
  (unfold Mod.takePhases; repeat' split) <;> (first | with_reducible rfl | simp)
@[simp] theorem Mod.bufferFrom_tread (m : Mod) (n : Tread) : (Mod.bufferFrom m n).tread = m.tread := by unfold Mod.bufferFrom; simp
@[simp] theorem Mod.writeObject_tread (m : Mod) (h : Hdr) (idx sub v : Nat) : (Mod.writeObject m h idx sub v).tread = m.tread := by unfold Mod.writeObject; simp
@[simp] theorem Mod.trackCommand_tread (m : Mod) (h : Hdr) (t code entry : Nat) : (Mod.trackCommand m h t code entry).tread = m.tread := by unfold Mod.trackCommand; simp
@[simp] theorem Mod.dutyStart_tread (m : Mod) (o k : Nat) : (Mod.dutyStart m o k).tread = m.tread := by unfold Mod.dutyStart; simp
end Sys2Proof.Machine
end

