-- ==== Sys2Proof/Machine/Connectors.lean ====
section
/-! DEFINITION. The contacts of the connectors X1 to X8 and X9 to X12 (20): which signal a contact carries. -/

namespace Sys2Proof.Machine

/-- What a contact carries (R428 to R440). -/
inductive Pin where
  | vlog | ground | vhu | earth | resetN | pfailN | alive | strapHi
  | bootsel (i : Nat) | clkmode (i : Nat)
  | ai (x : Nat) (neg : Bool) | tileGround (t : Nat)
  | ao (a : Nat) | aoGround (g : Nat) | refin | refinGround | trg (k : Nat) | trgGround (k : Nat) | tpo (k : Nat) | tpoGround
  | di (i : Nat) | dout (o : Nat) | vb (b : Nat) | bankGround (b : Nat)
  | si (i : Nat) | ts (i : Nat) | so (p : Nat) (b : Bool) | vso | safetyGround
  | cmd (k : Nat) (neg : Bool) | rsp (k : Nat) (neg : Bool) | linkGround (k : Nat)
  | can (p : Nat) (low : Bool) | canGround (p : Nat) | term (p : Nat) | shield
  | pair (lane : Nat) (neg : Bool)
deriving DecidableEq, Repr

/-- Contacts of X1 (R428). -/
def pinX1 : Nat → Option Pin
  | 1 | 2 => some .vlog
  | 3 | 4 | 6 | 16 => some .ground
  | 5 => some .vhu
  | 7 => some .earth
  | 8 => some .resetN
  | 9 => some .pfailN
  | 10 => some .alive
  | 11 => some .strapHi
  | 12 => some (.bootsel 0)
  | 13 => some (.bootsel 1)
  | 14 => some (.clkmode 0)
  | 15 => some (.clkmode 1)
  | _ => none

/-- Contacts of X2 and X3 (R430): inputs from `base` and tiles from `tile`; 261 to 264 are not connected. -/
def pinAnalogIn (base tile c : Nat) : Option Pin :=
  if 1 ≤ c ∧ c ≤ 256 then some (.ai (base + (c - 1) / 2) (decide (c % 2 = 0)))
  else if 257 ≤ c ∧ c ≤ 260 then some (.tileGround (tile + (c - 257))) else none

/-- Contacts of X4 (R432); 111 to 120 are not connected. -/
def pinX4 (c : Nat) : Option Pin :=
  if 1 ≤ c ∧ c ≤ 80 then
    let g := (c - 1) / 10
    let i := (c - 1) % 10
    some (if i < 8 then .ao (8 * g + i) else .aoGround g)
  else if c = 81 then some .refin
  else if c = 82 then some .refinGround
  else if 83 ≤ c ∧ c ≤ 90 then some (if c % 2 = 1 then .trg ((c - 83) / 2) else .trgGround ((c - 83) / 2))
  else if 91 ≤ c ∧ c ≤ 106 then some (.tpo (c - 91))
  else if 107 ≤ c ∧ c ≤ 110 then some .tpoGround
  else none

/-- Contacts of X5 and X6 (R434): blocks of 72 contacts, one for each bank from `bank`. -/
def pinBanks (bank c : Nat) : Option Pin :=
  if c = 0 ∨ 216 < c then none else
  let b := bank + (c - 1) / 72
  let i := (c - 1) % 72
  some (if i < 32 then .di (32 * b + i) else if i < 64 then .dout (32 * b + i - 32) else if i < 68 then .vb b else .bankGround b)

/-- Contacts of X7 (R436); 73 to 80 are not connected. -/
def pinX7 (c : Nat) : Option Pin :=
  if 1 ≤ c ∧ c ≤ 32 then some (.si (c - 1))
  else if 33 ≤ c ∧ c ≤ 48 then some (.ts (c - 33))
  else if 49 ≤ c ∧ c ≤ 64 then some (.so ((c - 49) / 2) (decide (c % 2 = 0)))
  else if 65 ≤ c ∧ c ≤ 68 then some .vso
  else if 69 ≤ c ∧ c ≤ 72 then some .safetyGround
  else none

/-- Contacts of X8 (R438). -/
def pinX8 (c : Nat) : Option Pin :=
  if 1 ≤ c ∧ c ≤ 20 then
    let k := (c - 1) / 5
    match (c - 1) % 5 with
    | 0 => some (.cmd k false)
    | 1 => some (.cmd k true)
    | 2 => some (.rsp k false)
    | 3 => some (.rsp k true)
    | _ => some (.linkGround k)
  else match c with
    | 21 => some (.can 0 false)
    | 22 => some (.can 0 true)
    | 23 => some (.canGround 0)
    | 24 => some (.can 1 false)
    | 25 => some (.can 1 true)
    | 26 => some (.canGround 1)
    | 27 => some (.term 0)
    | 28 => some (.term 1)
    | 29 | 30 | 31 | 32 => some .shield
    | _ => none

/-- Contacts of the jacks X9 to X12 (R440): BI_DA to BI_DD as lanes 0 to 3. -/
def pinJack : Nat → Option Pin
  | 1 => some (.pair 0 false)
  | 2 => some (.pair 0 true)
  | 3 => some (.pair 1 false)
  | 6 => some (.pair 1 true)
  | 4 => some (.pair 2 false)
  | 5 => some (.pair 2 true)
  | 7 => some (.pair 3 false)
  | 8 => some (.pair 3 true)
  | _ => none

/-- The signal of a contact of a connector (R428 to R440); none where it is not connected or there is no such contact. -/
def pinOf (x c : Nat) : Option Pin :=
  match x with
  | 1 => pinX1 c
  | 2 => pinAnalogIn 0 0 c
  | 3 => pinAnalogIn 128 4 c
  | 4 => pinX4 c
  | 5 => pinBanks 0 c
  | 6 => pinBanks 3 c
  | 7 => pinX7 c
  | 8 => pinX8 c
  | 9 | 10 | 11 | 12 => pinJack c
  | _ => none

/-- How a readback of a digital output reads at a voltage in mV (R435): between 5 V and 12 V as it read before. -/
def readsBack (mV : Nat) (prev : Bool) : Bool := decide (12000 < mV) || (prev && !decide (mV < 5000))

end Sys2Proof.Machine
end

