-- ==== Sys2Proof/Tests/Slice0.lean ====
section
/-! SUPPORT. Tests: a term that each check of well-formedness refuses, small facts of the spec, and for every statement
states and operands that meet its hypotheses. -/

namespace Sys2Proof.Tests

open Sys2Proof Sys2Proof.Machine

set_option Elab.async false

/-! ### Small states -/

/-- A partner of the highest role with every feature. -/
def host : Partner :=
  { id := 1, agreed := { src := { port := 0 }, profile := 3, features := 0xFF }, role := 3, lossAction := 0, heartbeat := 1,
    state := 1, since := 0, last := 0 }

/-- A module in service at tread 1000 with that partner, changed by `f`. -/
def running (f : Mod → Mod) : State := { m := f { life := .run, tread := 1000, hall := [(1, host)] }, pending := [] }

/-- The first message of the partner. -/
def first : Hdr := { assoc := 1, seq := 1 }

/-- The first message, for a named tread. -/
def named (t off : Nat) : Hdr := { assoc := 1, seq := 1, off := off, named := some t }

/-! ### The block and its stores -/

theorem test_witness_StepRunsFrontCommand : State.reset.pending = [] := by decide
theorem test_witness_UnsuppliedDrivesNothing :
    ∃ t, ({ State.reset with pending := [.holdUpExhausted] } : State).inv = true ∧
      step { State.reset with pending := [.holdUpExhausted] } = .next t := ⟨_, by decide, rfl⟩
theorem test_witness_LifeTransitions : ∃ t, exec (.resetN 50) (running id) = .next t := ⟨_, rfl⟩
theorem test_witness_OutOfServiceSilent :
    written (.skewCalibration first) = some (first, objectWrite 0x3190 1 1) ∧ State.reset.m.life ≠ .run := by decide +kernel
theorem test_witness_TreadAdvances_run : (running id).m.life = .run ∧ (running id).m.leaves = false := by decide
theorem test_witness_TreadAdvances_prepared : (running fun m => { m with life := .prepared }).m.life = .prepared := by decide
theorem test_witness_GalleryKept : ∃ t, exec (.brownout 3000) (running id) = .next t := ⟨_, rfl⟩
theorem test_witness_ResetLeavesSafety :
    (∃ t, exec .preparationTread State.reset = .next t) ∧
    tb ((running fun m => m.setRo 0x1400 0x2F 0).m.rov 0x1400 0x2F) 1 = false := by
  exact ⟨⟨_, rfl⟩, by decide +kernel⟩
theorem test_witness_StoresReadBack :
    okey 0 0x2200 2 ≠ okey 0 0x2200 1 ∧ ((running id).m.setCfg 0x2200 1 3).storesWf = true := by decide +kernel

/-! ### Writes of partners -/

theorem test_witness_WriteIsStaged :
    written (.bankEnable first 0 1) = some (first, objectWrite 0x34C0 2 1) ∧
    (running id).m.inTurn first host (objectWrite 0x34C0 2 1) = true ∧
    ((running id).m.turned 1 host 1).validateFrom 1 ((running id).m.now + 0) ((running id).m.dueOfWrite none 0).2
      (objectWrite 0x34C0 2 1) 0 (objectWrite 0x34C0 2 1) = none ∧
    ((running id).m.dueOfWrite none 0).1 = 0 ∧
    ((running id).m.turned 1 host 1).deltaFull 1 ((running id).m.dueOfWrite none 0).2 (objectWrite 0x34C0 2 1) = false := by
  decide +kernel
theorem test_witness_WriteIsRefusedWhole :
    written (.evict first 77) = some (first, objectWrite 0x1100 0xD 77) ∧
    (running id).m.inTurn first host (objectWrite 0x1100 0xD 77) = true ∧
    (((running id).m.turned 1 host 1).validateFrom 1 ((running id).m.now + 0) ((running id).m.dueOfWrite none 0).2
      (objectWrite 0x1100 0xD 77) 0 (objectWrite 0x1100 0xD 77)).isSome = true := by decide +kernel

/-- A bank enable that names a tread, at offset `off`: written, in turn, valid. -/
def namedWrite (t off : Nat) : Prop :=
  written (.bankEnable (named t off) 0 1) = some (named t off, objectWrite 0x34C0 2 1) ∧
  (running id).m.inTurn (named t off) host (objectWrite 0x34C0 2 1) = true ∧ (named t off).named = some t ∧
  ((running id).m.turned 1 host 1).validateFrom 1 ((running id).m.now + off) t
    (objectWrite 0x34C0 2 1) 0 (objectWrite 0x34C0 2 1) = none

theorem test_witness_NamedWritesInTime_past : namedWrite 1000 0 ∧ 1000 < (running id).m.tread + 1 := by
  unfold namedWrite; decide +kernel
theorem test_witness_NamedWritesInTime_sealed : namedWrite 1001 9601 ∧ 1001 = (running id).m.tread + 1 ∧ 9600 < 9601 := by
  unfold namedWrite; decide +kernel
theorem test_witness_NamedWritesInTime_last :
    namedWrite 1001 9600 ∧ 1001 = (running id).m.tread + 1 ∧ 1001 ≤ (running id).m.tread + (running id).m.cfg 0x1200 6 ∧
    ((running id).m.turned 1 host 1).deltaFull 1 1001 (objectWrite 0x34C0 2 1) = false := by
  unfold namedWrite; decide +kernel
theorem test_witness_NamedWritesInTime_horizon :
    namedWrite 90000000 0 ∧ (running id).m.tread + 1 < 90000000 ∧
    (running id).m.tread + (running id).m.cfg 0x1200 6 < 90000000 := by unfold namedWrite; decide +kernel
theorem test_witness_FactoryRangeIsClosed :
    0xF000 ≤ ({ idx := 0xF000, sub := 1, len := 1 } : Entry).idx ∧
    (running id).m.inTurn first host [{ idx := 0xF000, sub := 1, len := 1 }] = true := by decide +kernel
theorem test_witness_SubindexZero :
    famOf 0x6001 = some (.imageMap, 1) ∧ famProf .imageMap ≤ (running id).m.profOf 1 := by decide +kernel
theorem test_witness_TrackCommandsAct :
    (running id).m.outcomeOf 3 1 = 0 ∧
    ((running id).m.setTrack 3 { state := 3 }).outcomeOf 3 2 = 0 ∧
    ((running id).m.setTrack 3 { state := 1 }).outcomeOf 3 3 = 0 ∧ ((running id).m.setTrack 3 { state := 1 }).outcomeOf 3 4 = 0 ∧
    ((running id).m.setTrack 3 { state := 2 }).outcomeOf 3 5 = 0 ∧ ((running id).m.setTrack 3 { state := 3 }).outcomeOf 3 6 = 0 ∧
    (running id).m.outcomeOf 3 4 ≠ 0 := by decide +kernel

/-! ### The module's rhythm and the stairwell -/

/-- The words of a table entry that are not 0, by their numbers. -/
def words (l : List (Nat × Nat)) : Nat := l.foldl (fun n x => n + x.2 * 2 ^ (32 * x.1)) 0

/-- The module with one step in its active bank, step 5. -/
def withStep (l : List (Nat × Nat)) (m : Mod) : Mod := { m.setRo 0x4020 1 0 with bankA := { steps := [(5, words l)] } }

theorem test_witness_ResynchronisationEnds :
    (running fun m => m.setRo 0x2000 3 1).m.rov 0x2000 (3 + 0) = 1 ∧
    (running fun m => m.setRo 0x2000 4 1).m.rov 0x2000 (3 + 1) = 1 := by decide +kernel
theorem test_witness_FlightRunsOnce :
    let s := running fun m => { m with journal := { m.journal with ending := some ({}, []), finalDue := true } }
    s.m.tread % 100 = 0 ∧ s.m.flown ≠ some (s.m.tread / 100) ∧ s.m.journal.ending = some ({}, []) ∧ s.m.leaves = false := by
  decide
theorem test_witness_JournalWrites :
    (running fun m => { m with journal := { m.journal with writing := some { flight := 9, saved := {} } } }).m.journal.writing =
      some { flight := 9, saved := {} } ∧
    (running fun m => { m with journal := { m.journal with cfgFlight := 9 } }).m.journal.cfgFlight ≠ 0 := by decide +kernel
theorem test_witness_TilesAndEntries_wakes : tb (running fun m => { m with tiles := { waking := 4 } }).m.tiles.waking 2 = true := by
  decide
theorem test_witness_TilesAndEntries_waits :
    let s := running fun m => (withStep [(0, 0x10000), (11, 1)] m).setTrack 2 { state := 1, next := some (.enter 5 1 0) }
    (s.m.track 2).next = some (.enter 5 1 0) ∧ s.m.mustWait (.enter 5 1 0) = true := by decide +kernel
theorem test_witness_TilesAndEntries_goes :
    let s := running fun m => (withStep [(0, 0x10000)] m).setTrack 2 { state := 1, wait := some (.enter 5 1 0) }
    (s.m.track 2).next = none ∧ (s.m.track 2).wait = some (.enter 5 1 0) ∧ s.m.mustWait (.enter 5 1 0) = false := by
  decide +kernel

/-- Track 2 in step 5 at a timer value: a duration of 7, a timeout of 9, settle time 2 in both groups, other words as
given; host event flag 0 is clear, so that a term on it is true inverted. -/
def inStepWith (timer : Nat) (l : List (Nat × Nat)) : State := running fun m =>
  (withStep ([(0, 0x10000), (1, 7), (2, 9)] ++ l) m).setTrack 2
    { state := 1, step := 5, timer := timer, countA := 1, countB := 1 }
/-- The same with no group armed. -/
def inStepAt (timer : Nat) : State := inStepWith timer [(12, 0x200C0)]
/-- The same with a fault source of the track enabled, and standing. -/
def faulted (s : State) : State := s.withMod { s.m.setCfg 0x4002 0xC 1 with snapFault := 1 }

theorem test_witness_StepExits_duration :
    let s := inStepAt 7
    s.m.toEvaluate 2 = true ∧ (s.m.track 2).wait = none ∧ s.m.durationDue 2 = true ∧ s.m.frozen.faultOf 2 = false ∧
    s.m.qualifies s.m.frozen 2 0 = false ∧ s.m.qualifies s.m.frozen 2 1 = false := by decide +kernel
theorem test_witness_StepExits_timeout :
    let s := inStepAt 9
    s.m.toEvaluate 2 = true ∧ s.m.timeoutDue 2 = true ∧ s.m.durationDue 2 = false ∧ s.m.frozen.faultOf 2 = false ∧
    s.m.qualifies s.m.frozen 2 0 = false ∧ s.m.qualifies s.m.frozen 2 1 = false := by decide +kernel
theorem test_witness_StepExits_waiting :
    let s := (inStepAt 9).withMod ((inStepAt 9).m.setTrack 2 { (inStepAt 9).m.track 2 with wait := some (.enter 6 1 0) })
    s.m.toEvaluate 2 = true ∧ s.m.timeoutDue 2 = true ∧ (s.m.track 2).wait ≠ none ∧ s.m.frozen.faultOf 2 = false := by
  decide +kernel
theorem test_witness_StepExits_groupA :
    let s := inStepWith 8 [(5, 0xB608), (12, 0x201C0)]
    s.m.toEvaluate 2 = true ∧ (s.m.track 2).wait = none ∧ s.m.settles s.m.frozen 2 0 = true ∧ s.m.frozen.faultOf 2 = false := by
  decide +kernel
theorem test_witness_StepExits_groupB :
    let s := inStepWith 8 [(6, 0xB608), (12, 0x202C2)]
    s.m.toEvaluate 2 = true ∧ (s.m.track 2).wait = none ∧ s.m.settles s.m.frozen 2 1 = true ∧
    s.m.qualifies s.m.frozen 2 0 = false ∧ s.m.frozen.faultOf 2 = false := by decide +kernel
theorem test_witness_StepExits_fault :
    (faulted (inStepAt 7)).m.frozen.faultOf 2 = true ∧ (faulted (inStepAt 7)).m.durationDue 2 = true ∧
    (faulted (inStepAt 9)).m.timeoutDue 2 = true ∧ (faulted (inStepAt 9)).m.toEvaluate 2 = true := by decide +kernel
theorem test_witness_DecisionsWait_enters :
    let m := (running (withStep [(0, 0x10005), (15, stepCrc (words [(0, 0x10005)]))])).m
    bits (wordOf (m.stepE 5) 15) 0 16 = stepCrc (m.stepE 5) := by decide +kernel
theorem test_witness_DecisionsWait_lands :
    let m := (running (withStep [(0, 0x10005)])).m
    bits (wordOf (m.stepE 5) 15) 0 16 ≠ stepCrc (m.stepE 5) := by decide +kernel
theorem test_witness_PatternsApply :
    let m := (running fun m => { m.setRo 0x4020 1 0 with bankA := { patterns := [(4, 2 + 6 * 2 ^ 192)] } }).m
    4 ≠ 0xFFFF ∧ tb (patternMask (lookD m.bank.patterns 4 0)) 1 = true ∧
    (∀ o, o < 192 → tb (patternMask (lookD m.bank.patterns 4 0)) o = true →
      okey 0 0x3400 1 ≠ okey 0 (0x3400 + m.lead o) 1) := by decide +kernel
theorem test_witness_StairwellEvents_wait :
    let s := running fun m => (withStep [(0, 0x20000), (1, 3), (5, 0xB608), (12, 0x100)] m).setTrack 2 { state := 1, step := 5, timer := 4 }
    s.m.toEvaluate 2 = true ∧ s.m.kindOf (s.m.track 2).step = 2 ∧
    wordOf (s.m.stepE (s.m.track 2).step) 1 < (s.m.track 2).timer ∧ s.m.frozen.faultOf 2 = false ∧
    (s.m.track 2).wait = none ∧ s.m.qualifies s.m.frozen 2 0 = true ∧ (faulted s).m.frozen.faultOf 2 = true := by
  decide +kernel
theorem test_witness_StairwellEvents_waitTarget :
    let e := [(0, 0x20005), (1, 3), (4, 5), (5, 0xB608), (12, 0x100)]
    let s := running (withStep (e ++ [(15, stepCrc (words e))]))
    s.m.stepOk (bits (wordOf (s.m.stepE 5) 4) 0 16) = true := by decide +kernel
theorem test_witness_StairwellEvents_acts :
    let s := (inStepWith 8 [(9, 0x10003)]).withMod { (inStepWith 8 [(9, 0x10003)]).m with
      bankA := { (inStepWith 8 [(9, 0x10003)]).m.bankA with actions := [(3, 0xD + 0xB62 * 2 ^ 8 + 4 * 2 ^ 20)] } }
    (s.m.track 2).inStep = true ∧ s.m.actsUpTo 2 ((s.m.track 2).timer - 1) = [3] ∧ actOp (s.m.bank.action 3) = 0xD ∧
    actTgt (s.m.bank.action 3) = 0xB60 + 2 ∧ s.m.bank.operandGood (s.m.bank.action 3) = true := by decide +kernel
theorem test_witness_StairwellEvents_pulse :
    let s := running fun m => { m with pulses := [{ out := 7, ends := 1000 }] }
    7 < 192 ∧ (s.m.pulses.any fun p => decide (p.out = s.m.lead 7 ∧ p.ends ≤ s.m.tread)) = true := by decide +kernel
theorem test_witness_StairwellEvents_validation :
    let s := running fun m => m.setRo 0x4020 7 2
    s.m.blockIn 16 = false ∧ s.m.shadowState = 2 := by decide +kernel

/-! ### The link -/

/-- A frame of the partner. -/
def frame (body : List Nat) : Frame := { src := { port := 0 }, major := 1, minor := 0, assoc := 1, seq := 1, body := body }

theorem test_witness_FramesAreTaken_heartbeat : (running id).m.validFrom 7 (frame (List.replicate 16 0)) host = true := by
  decide +kernel
theorem test_witness_FramesAreTaken_bye :
    (running id).m.validFrom 8 (frame [1, 0, 0, 0]) host = true ∧ (frame [1, 0, 0, 0]).body = [1, 0, 0, 0] := by decide +kernel
theorem test_witness_FramesAreTaken_segments :
    (running id).m.validFrom 4 { frame [0] with flags := 0x20 } host = true ∧ host.part = none ∧
    bits 0x20 5 3 + 1 ≤ (running id).m.segmentLimit 1 ∧ bits 0x20 5 3 ≠ 0 := by decide +kernel
theorem test_witness_FramesAreTaken_whole :
    (running id).m.validFrom 4 (frame [0]) host = true ∧ bits (frame [0]).flags 5 3 + 1 ≤ (running id).m.segmentLimit 1 ∧
    bits (frame [0]).flags 5 3 = 0 := by decide +kernel
theorem test_witness_FramesAreTaken_image :
    let f := frame ([3, 0, 1, 0] ++ List.replicate 16 0 ++ [9])
    (running id).m.validFrom 5 f host = true ∧ 3 < 64 ∧ f.body.headD 0 = 3 ∧ f.body.drop 20 = [9] ∧
    ofLe ((f.body.drop 2).take 2) = [9].length ∧ 20 ≤ f.body.length := by decide +kernel

/-- A read of the tread number, due now. -/
def aRead : ReadSt := { assoc := 1, seq := 4, tag := 0, due := 1000, entries := [{ idx := 0x1200, sub := 1 }] }

theorem test_witness_ReadsAreServed_begins :
    let s := running fun m => { m with reads := [aRead] }
    s.m.readOf 1 4 = some aRead ∧ aRead.begun = false ∧ aRead.due ≤ s.m.tread ∧ (aRead.named = true → s.m.tread = aRead.due) ∧
    (aRead.entries.findIdx? fun e => s.m.readBarred 1 e.idx e.sub) = none ∧
    (s.m.takeValues 1 aRead.entries).2.foldl (fun n v => n + v.1) 0 ≤ 4096 ∧
    replyBytes (s.m.takeValues 1 aRead.entries).2 ≤ s.m.replyLimit 1 ∧ s.m.readsBefore aRead = [] := by decide +kernel
theorem test_witness_ReadsAreServed_fails :
    let r := { aRead with begun := true, fail := some (0x14, 0) }
    (running fun m => { m with reads := [r] }).m.readOf 1 4 = some r ∧ r.begun = true ∧ r.fail = some (0x14, 0) := by
  decide +kernel
theorem test_witness_ReadsAreServed_gives :
    let r := { aRead with begun := true, vals := [(8, 1000)] }
    (running fun m => { m with reads := [r] }).m.readOf 1 4 = some r ∧ r.begun = true ∧ r.fail = none ∧
    (running id).m.blockIn 16 = false := by decide +kernel
theorem test_witness_JournalFreesReplies : (running id).m.life = .run := rfl
theorem test_witness_WaitsRunOut_segments :
    let q : Partial := { seq := 1, tag := 0, count := 2, since := 900 }
    let p := { host with part := some q }
    (running fun m => m.setPartner 1 p).m.inHall 1 = some p ∧ p.part = some q ∧ q.since + 100 ≤ 1000 ∧ q.refused = false := by
  decide +kernel
theorem test_witness_WaitsRunOut_gap :
    let p := { host with held := [{ seq := 3, tag := 0, req := .done, since := 900 }] }
    (running fun m => m.setPartner 1 p).m.inHall 1 = some p ∧ p.firstHeld = some 900 ∧ 900 + 100 ≤ 1000 := by decide +kernel
theorem test_witness_WaitsRunOut_reservation :
    let g : Agreed := { src := { port := 0 }, at_ := 0 }
    let s := running fun m => { m with tread := 100000, reserved := [(9, g)] }
    look s.m.reserved 9 = some g ∧ g.at_ + 100000 ≤ s.m.tread := by decide +kernel
theorem test_witness_WaitsRunOut_silence :
    (running id).m.inHall 1 = some host ∧ host.agreed.cls ≠ 2 ∧ 300 * host.heartbeat ≤ (running id).m.tread - host.last := by
  decide +kernel
theorem test_witness_Associating_waits :
    let s := running fun m => m.setRo 0x1410 2 0x10000
    s.m.blockIn 16 = true ∧ s.m.spoken { port := 0 } = true ∧ flagsOk 0 = true := by decide +kernel
theorem test_witness_Associating_discards :
    (running id).m.spoken { port := 0, proto := some 0x0800 } = false ∧ flagsOk 0x200 = false := by decide +kernel

/-- A NEGOTIATE for version 1.0. -/
def anOffer : NegReq := { versions := 1 }
/-- What it reserves. -/
def anAgreement : Agreed := { src := { port := 0 }, at_ := 1000 }

theorem test_witness_Associating_negotiate :
    (running id).m.blockIn 16 = false ∧ negWf anOffer = true ∧ (commonVersion anOffer.versions).isSome = true ∧
    (running id).m.lapse.freeId = some 2 ∧ (running id).m.lapse.negStatus anOffer = 0 := by decide +kernel
theorem test_witness_Associating_associate :
    let s := running fun m => { m with reserved := [(2, anAgreement)] }
    let r : AssocReq := { reserved := 2, role := 0 }
    look s.m.reserved 2 = some anAgreement ∧ sameSrc anAgreement.src { port := 0 } = true ∧
    s.m.assocStatus { port := 0 } r = 0 := by decide +kernel
theorem test_witness_Associating_announce :
    let s := running fun m => (m.setCfg 0x1100 3 1).setReset { m.reset with first := 1000 }
    s.m.blockIn 16 = false ∧ s.m.cfg 0x1100 3 ≠ 0 ∧ s.m.reset.first ≤ s.m.tread ∧
    (s.m.tread - s.m.reset.first) % 100000 = 0 ∧ s.m.out = [] := by
  decide +kernel
theorem test_witness_Associating_arp :
    let s := running fun m => m.setCfg 0x1100 9 0x0100000A
    (0 : Nat) ≤ 4 ∧ 0x0100000A ≠ 0 ∧ s.m.ownIp 0 = 0x0100000A := by decide +kernel
theorem test_witness_SwitchEvents_opens :
    let s := running fun m => { m.setRo 0x1100 0x12 1 with switch := { silentFlights := 3 } }
    s.m.rov 0x1100 0x12 = 1 ∧ 3 ≤ s.m.switch.silentFlights := by decide +kernel
theorem test_witness_SwitchEvents_closes :
    let s := running fun m => { m.setRo 0x1100 0x12 2 with switch := { goodFlights := 3 } }
    s.m.rov 0x1100 0x12 = 2 ∧ 3 ≤ s.m.switch.goodFlights := by decide +kernel
theorem test_witness_SwitchEvents_frame :
    let f : SwFrame := { port := 2, dst := 0, src := 0, len := 1522, cls := 7 }
    let s := running fun m => m.setCfg 0x1300 9 2
    s.m.switching = true ∧ f.port < 3 ∧ f.len ≤ 1522 ∧ f.fcsOk = true ∧ ¬(f.cls = 6 ∧ f.own = true) ∧
    (f.cls = 7 ∧ s.m.cfg 0x1300 9 = 2) ∧ ¬(f.cls = 7 ∧ (running id).m.cfg 0x1300 9 = 2) ∧ (running id).m.ringClosed = false := by
  decide +kernel
theorem test_witness_SwitchEvents_blocked :
    (running fun m => m.setRo 0x1100 0x12 1).m.ringClosed = true ∧ (running fun m => m.setRo 0x1100 0x12 1).m.switching = true := by
  decide +kernel
theorem test_witness_SwitchEvents_port : (running id).m.life ≠ .off ∧ (1 : Nat) < 2 := by decide
theorem test_witness_ImagesAreSent :
    let s := running fun m => (((m.setCfg 0x6003 2 1).setCfg 0x6003 6 1).setCfg 0x6003 3 1).setCfg 0x6003 1 0
    3 < 64 ∧ s.m.inHall (s.m.mapPartner 3) = some host ∧ s.m.mapState 3 = 1 ∧ s.m.cfg (0x6000 + 3) 1 = 0 ∧
    s.m.cfg (0x6000 + 3) 3 ≠ 0 ∧ s.m.phaseTread % s.m.cfg (0x6000 + 3) 3 = s.m.cfg (0x6000 + 3) 4 ∧ s.m.out = [] := by
  decide +kernel
theorem test_witness_LockIsLost :
    (running fun m => (m.setCfg 0x2A05 2 3).setLoop 5 { rep := { locked := true, period := 10, lastEdge := some 0 } }).m.lockOver 5 =
      true := by decide +kernel

/-! ### Analog inputs and outputs -/

/-- The module with converter 2's tile awake, one regular slot in force beside slot 0, one injected slot, and injection
by TRG0. -/
def converting (m : Mod) : Mod :=
  { m with tiles := { awake := 0x7FFF }, eff := [(okey 0 0x3142 1, 2), (okey 0 0x3142 3, 1), (okey 0 0x3142 0x12, 1),
    (okey 0 0x3142 0x13, 0), (okey 0 0x3142 0x17, 1)] }

theorem test_witness_ConversionsRun_slots :
    let s := running converting
    2 < 64 ∧ s.m.tileAwake 2 = true ∧ s.m.convCal 2 = false ∧ 0 < 1 ∧ 1 < s.m.regLen 2 ∧ s.m.regSlot 2 1 < 4 ∧
    0 < s.m.injLen 2 ∧ s.m.injSlot 2 0 < 4 ∧ s.m.calIn 2 1000 = false ∧ s.m.injCal 2 1000 = false ∧
    s.m.asOf 1000 = s.m := by decide +kernel
theorem test_witness_ConversionsRun_before :
    let s := running fun m => { m with tiles := { awake := 0x7FFF }, effAt := 1000, effWas := (converting m).eff }
    100 < 639 * 125 / 8 ∧ 999 < s.m.effAt ∧ 1 < (s.m.asOf 999).regLen 2 ∧ (s.m.asOf 999).regSlot 2 1 < 4 ∧
    s.m.regLen 2 ≤ 1 ∧ s.m.calIn 2 999 = false := by decide +kernel
theorem test_witness_ConversionsRun_sums :
    let s := running fun m => { converting m with eff := (okey 0 0x3009 2, 4) :: (converting m).eff }
    let x := 4 * 2 + s.m.regSlot 2 1
    let w := s.m.winAt x (windowEnd (s.m.windowLen x) (s.m.inForce (0x3000 + x) 4) 1000)
    x = 9 ∧ s.m.biased x 1000 = false ∧ w.got + 1 + w.missed < s.m.inForce (0x3000 + x) 2 := by decide +kernel
theorem test_witness_ConversionsRun_fires :
    let s := running fun m => { converting m with tread := 1050 }
    5000 < 10000 ∧ s.m.firingMeets 2 0 false = true ∧ 0 < s.m.injLen 2 ∧ (s.m.conv 2).asked = [] ∧
    (s.m.conv 2).reqAt ≠ some (cycleOf 5000) ∧ s.m.checkRuns 2 5000 = false ∧ (s.m.convTo 2 5000).inj = 0 ∧
    125 * (s.m.convTo 2 5000).free ≤ 8 * 5000 ∧ firstEdge 5000 + 32 * s.m.injLen 2 ≤ 608 := by decide +kernel
theorem test_witness_ConversionsRun_deferred : (running fun m => (converting m).setConv 2 { inj := 4 }).m.tileAwake 2 = true ∧
    ((running fun m => (converting m).setConv 2 { inj := 4 }).m.conv 2).inj = 4 := by decide +kernel
theorem test_witness_ConversionsRun_window :
    let s := running fun m => m.setInp 8 { wins := [{ ends := 999, got := 1 }] }
    8 < 256 ∧ s.m.dueWin 8 = some { ends := 999, got := 1 } ∧ (s.m.inp 8).since + s.m.windowLen 8 ≤ 999 + 1 ∧
    (s.m.inp 8).pend = none := by decide +kernel
theorem test_witness_CalibrationsEnd_skew : (running fun m => m.setRo 0x3190 2 1).m.rov 0x3190 2 = 1 := by decide +kernel
theorem test_witness_CalibrationsEnd_own :
    ((running fun m => m.setConv 2 { calSince := some 900 }).m.conv 2).calSince.isSome = true := by decide +kernel
theorem test_witness_CalibrationsEnd_scan :
    let s := running fun m => { m with tread := 1091, scans := [(1, 36, 10)] }
    look s.m.scans 1 = some (36, s.m.tread / 100) ∧ 90 ≤ s.m.tread % 100 ∧ s.m.tread % 100 ≤ 92 ∧ s.m.dacManual 1 = false := by
  decide +kernel
theorem test_witness_BackgroundChecksJudge :
    let s := running fun m => { converting m with tread := 1020 }
    2 < 64 ∧ 10 * (2 % 8) ≤ s.m.tread % 100 ∧ s.m.tread % 100 ≤ 10 * (2 % 8) + 9 ∧
    (s.m.conv 2).checked ≠ some (s.m.tread / 100) ∧ (s.m.conv 2).abandoned ≠ some s.m.tread ∧ s.m.dacManual 0 = false ∧
    s.m.tileAwake 2 = true ∧ s.m.convCal 2 = false := by decide +kernel

/-! ### Field side -/

/-- The module with its field side changed. -/
def fieldAt (f : FieldSt → FieldSt) : State := running fun m => { m with field := f m.field }

theorem test_witness_PathsAndInputs_debounce :
    (fieldAt id).m.field.powered = true ∧ 191 < 192 ∧ tb (fieldAt id).m.field.di 191 ≠ decide (1 = 1) ∧
    (fieldAt id).m.inForce (0x3300 + 191) 1 ≤ (fieldAt id).m.heldSamples 191 10010 := by decide +kernel
theorem test_witness_PathsAndInputs_duty :
    let s := running fun m => { (m.setCfg 0x3405 2 1).setCfg 0x3405 4 10 with field := { m.field with image := { dos := 32 } } }
    5 < 192 ∧ s.m.isDuty 5 = true ∧ s.m.field.fallOut = false ∧ tb s.m.field.image.dos 5 = true ∧
    s.m.phaseTread % Max.max 1 (s.m.cfg (0x3400 + 5) 4) = 0 := by decide +kernel
theorem test_witness_PathsAndInputs_falls :
    let s := fieldAt fun f => { f with badOut := 3, badIn := 3 }
    s.m.field.fallOut = false ∧ 3 ≤ s.m.field.badOut ∧ s.m.field.fallIn = false ∧ 3 ≤ s.m.field.badIn := by decide
theorem test_witness_PathsAndInputs_returns :
    let s := fieldAt fun f => { f with fallOut := true, goodOut := 999, fallIn := true, goodIn := 999 }
    s.m.field.fallOut = true ∧ 999 ≤ s.m.field.goodOut ∧ s.m.field.fallIn = true ∧ 999 ≤ s.m.field.goodIn := by decide
theorem test_witness_HoldRunsOut_expires :
    let s := running fun m => { m with life := .held }
    s.m.field.powered = true ∧ s.m.holdOver 20000 = true ∧ s.m.aoOver 20000 = true := by decide +kernel
theorem test_witness_HoldRunsOut_banks :
    let s := running fun m => { m with field := { m.field with doHeld := 1 } }
    s.m.field.powered = true ∧ s.m.holdOver 20000 = true ∧ s.m.aoOver 20000 = false := by decide +kernel
theorem test_witness_HoldRunsOut_standby :
    let s := running fun m => { m with life := .standby }
    s.m.field.powered = true ∧ (s.m.life = .standby ∨ s.m.life = .waking) := by decide
theorem test_witness_BankSupplies :
    let s := running fun m => m.setFbank 5 { hot := 1 }
    s.m.field.powered = true ∧ 5 < 6 ∧ (s.m.fbank 5).state ≠ 2 ∧ tb (s.m.fbank 5).hot 0 = true := by decide +kernel
theorem test_witness_BankSupplies_retries :
    let s := running fun m => (m.setCfg 0x34C5 3 1).setFbank 5 { state := 1 }
    tb 0x20 5 = true ∧ s.m.cfg (0x34C0 + 5) 3 = 1 ∧ (s.m.fbank 5).state = 1 ∧ (s.m.fbank 5).qualified = true ∧
    (s.m.fbank 5).byCut = false := by decide +kernel
theorem test_witness_DarkTests_starts :
    let s := running fun m => { (m.setCfg 0x3421 7 1).setFbank 1 { darkLast := some 900 } with
      field := { m.field with image := { dos := 2 ^ 33 } } }
    s.m.field.powered = true ∧ s.m.beating = true ∧ 1 < 6 ∧ (s.m.fbank 1).state = 0 ∧ (s.m.fbank 1).darkOut = none ∧ s.m.field.fallOut = false ∧
    tb s.m.field.doFailed 1 = false ∧ (s.m.fbank 1).darkLast = some 900 ∧ 900 + 100 ≤ s.m.tread ∧ s.m.darkNext 1 = some 33 := by decide +kernel
theorem test_witness_DarkTests_ends :
    let s := running fun m => m.setFbank 1 { darkOut := some 33, darkSince := 0 }
    (s.m.fbank 1).darkOut = some 33 ∧ s.m.cfg (0x34C0 + 1) 9 < (s.m.tread - (s.m.fbank 1).darkSince + 1) * 10 := by
  decide +kernel

/-! ### Safety -/

theorem test_witness_SafetyDomainStates :
    let s := running fun m => { m with safety := { m.safety with dom := 1, disagree := 1, arm := some ⟨1, 7, 10001⟩ } }
    s.m.life ≠ .off ∧ s.m.safety.dom ≠ 3 ∧ s.m.safety.dom = 1 ∧ 1 ≤ s.m.safety.disagree ∧
    s.m.safety.arm = some ⟨1, 7, 10001⟩ ∧ 10000 < 10001 := by decide
theorem test_witness_SafetyDomainStates_starts :
    let s := fun ok : Bool => running fun m => { m with safety := { m.safety with dom := 0, storedOk := ok } }
    ((s true).m.safety.dom = 0 ∧ (s true).m.safety.storedOk = true) ∧
    ((s false).m.safety.dom = 0 ∧ (s false).m.safety.storedOk = false) := by decide

/-- The module with input pair 15 in use. -/
def guarded (m : Mod) : Mod := { m with safety := { m.safety with active := [(okey 0 0x351F 1, 1), (okey 0 0x351F 2, 5), (okey 0 0x351F 3, 20)] } }

theorem test_witness_SafetyPairEvents_debounce :
    let s := running fun m => (guarded m).setSafIn 15 { b := { held := some 5 } }
    31 < 32 ∧ s.m.act (0x3510 + 31 / 2) 1 ≠ 0 ∧ ((s.m.safIn (31 / 2)).ch (31 % 2)).held = some 5 ∧
    s.m.act (0x3510 + 31 / 2) 2 ≤ 5 := by decide +kernel
theorem test_witness_SafetyPairEvents_discrepancy :
    let s := running fun m => (guarded m).setSafIn 15 { a := { demand := false }, discrepancy := 21 }
    15 < 16 ∧ s.m.act (0x3510 + 15) 1 ≠ 0 ∧ (s.m.safIn 15).latched = false ∧
    (s.m.safIn 15).a.demand ≠ (s.m.safIn 15).b.demand ∧ s.m.act (0x3510 + 15) 3 < (s.m.safIn 15).discrepancy := by
  decide +kernel
theorem test_witness_SafetyPairEvents_outputs :
    let s := running fun m => m.setSafOut 7 { on := true, delay := some 0, b := { low := 2 } }
    7 < 8 ∧ 1 < 2 ∧ (s.m.safOut 7).on = true ∧ (s.m.safOut 7).delay = some 0 ∧ (s.m.safOut 7).latched = false ∧
    2 ≤ ((s.m.safOut 7).ch 1).low ∧ ((s.m.safOut 7).ch 1).fault = false := by decide +kernel
theorem test_witness_SafetyPairEvents_darkTest :
    let s := running fun m => { m.setSafOut 7 { on := true } with
      safety := { (m.setSafOut 7 { on := true }).safety with active := [(okey 0 0x3537 8, 400)] } }
    (s.m.safOut 7).on = true ∧ ((s.m.safOut 7).ch 0).fault = false ∧
    (s.m.safOut 7).testDue 0 (s.m.act (0x3530 + 7) 7 * 1000) s.m.safety.cycle = true ∧
    s.m.safety.lastTest ≠ some s.m.safety.cycle ∧ 399 < s.m.act (0x3530 + 7) 8 := by decide +kernel
theorem test_witness_SafetyPairEvents_windows :
    let s := running fun m => (m.setSafIn 15 { a := { fault := true } }).setSafOut 7 { b := { fault := true } }
    (s.m.safIn 15).latched = false ∧ (s.m.safIn 15).left = 0 ∧ (s.m.safIn 15).faulted = true ∧
    (s.m.safOut 7).latched = false ∧ (s.m.safOut 7).left = 0 ∧ (s.m.safOut 7).faulted = true := by decide +kernel

/-! ### Axes and recording -/

theorem test_witness_AxisEvents_stage :
    let s := running fun m => { m.setCfg 0x3643 1 0x81 with tiles := { awake := 0x7FFF } }
    let w := 0x95 + 2 ^ 24 * crc8 [24, 0, 0]
    31 < 32 ∧ tb (s.m.cfg (0x3640 + 31 / 8) 1) (31 % 8) = true ∧ tb s.m.tiles.awake (8 + 31 / 8) = true ∧
    s.m.blockIn (8 + 31 / 8) = false ∧ 24 % 8 ≠ lastStage (s.m.cfg (0x3640 + 24 / 8) 1) ∧ returnStatus 24 w = some 0 ∧
    s.m.tread % 2 = b2n (slotLate (24 % 8)) := by decide +kernel
theorem test_witness_AxisEvents_plan :
    let s := running fun m => m.setAxis 3 { state := 2, clock := 1 }
    (s.m.axis 3).state = 2 ∧ (s.m.axis 3).replan = false ∧
    planTime (s.m.axis 3).plan - planSlack ≤ treadTime (s.m.axis 3).clock := by decide +kernel
theorem test_witness_AxisEvents_hold :
    let s := running fun m => { m.setAxis 3 { state := 1, still := 7 } with tread := 2 ^ 32 }
    (look s.m.axes 3).isSome = true ∧ (s.m.axis 3).state = 1 ∧ (s.m.axis 3).moving = false ∧
    (s.m.axis 3).still + s.m.cfg (0x3600 + 3) 0x10 * 100 ≤ s.m.tread := by decide +kernel

/-- A block of stream 1. -/
def aBlock : Block := { stream := 1, first := 900, span := 100, gap := 0, cause := 0, bytes := 0, next := 1000 }

theorem test_witness_RecordingEvents_full :
    let s := running fun m => m.setStream 0 { first := some 900, groups := [{ tread := 900, kind := 1, words := List.replicate 1020 0 }] }
    0 ≤ 6 ∧ (s.m.stream 0).first = some 900 ∧ s.m.blockFull 0 = true := by decide +kernel
theorem test_witness_RecordingEvents_spans :
    let s := running fun m => (m.setCfg 0x3800 5 1).setStream 0 { first := some 899 }
    (s.m.stream 0).first = some 899 ∧ s.m.blockEnd 0 899 + lagOf 0 ≤ s.m.tread + 1 := by decide +kernel
theorem test_witness_RecordingEvents_drains :
    let s := running fun m => m.setStream 0 { drain := some aBlock }
    0 ≤ 6 ∧ aBlock.stream < 6 ∧ (s.m.stream 0).drain = some aBlock ∧ s.m.drainsTo aBlock.no = [0] := by decide +kernel

/-- The data port running, with one block in the ring. -/
def porting (m : Mod) : Mod :=
  { (m.setCfg 0x3838 1 1).setRo 0x3838 0xE 1 with record := { m.record with ring := [(0, aBlock)], next := 1 } }

theorem test_witness_DataPortSends_block :
    (running porting).m.portRuns = true ∧ (running porting).m.ringOldest ≤ (running porting).m.rov 0x3838 0xF ∧
    look (running porting).m.record.ring ((running porting).m.rov 0x3838 0xF) = some aBlock := by decide +kernel
theorem test_witness_DataPortSends_gap :
    let s := running fun m => { porting m with record := { m.record with ring := [(1966080, aBlock)], next := 1966081 } }
    s.m.portRuns = true ∧ s.m.rov 0x3838 0xF < s.m.ringOldest := by decide +kernel
theorem test_witness_DataPortSends_status :
    let s := running fun m => { porting m with tread := 20000 }
    s.m.portRuns = true ∧ s.m.tread / 100 % 100 = 0 ∧ s.m.record.status ≠ some (s.m.tread / 100) := by decide +kernel
theorem test_witness_DataPortSends_pause : (running fun m => m.setCfg 0x3838 0xB 1).m.cfg 0x3838 0xB = 1 := by decide +kernel
theorem test_witness_TriggerEvents_fires :
    let s := running fun m => (((m.setCfg 0x3847 1 5).setCfg 0x3847 4 2).setRo 0x3847 0xF 1)
    7 < 8 ∧ s.m.blockIn 14 = false ∧ (s.m.trig 7).fired ≠ some s.m.tread ∧ s.m.trigMeets 7 none false = true ∧ s.m.trigState 7 = 1 := by decide +kernel
theorem test_witness_TriggerEvents_holdOff :
    let s := running fun m => (((m.setCfg 0x3847 0xB 1).setCfg 0x3847 0xC 100).setRo 0x3847 0xF 3)
    s.m.trigState 7 = 3 ∧ s.m.trigCfg 7 0xB = 1 ∧ (s.m.trig 7).holdFrom + s.m.trigCfg 7 0xC ≤ s.m.tread := by decide +kernel
theorem test_witness_TriggerEvents_window :
    let w : Window := { trig := 7, slot := 5, first := 900, last := 999 }
    let s := running fun m => { m with record := { m.record with windows := [w] } }
    (s.m.record.windows.find? fun w => decide (w.trig = 7 ∧ w.last < s.m.tread)) = some w := by decide +kernel

/-! ### Resets, bring-up, timebase -/

theorem test_witness_ResetsHold :
    let s := running fun m => m.setReset { m.reset with request := some (6, 1, 999) }
    s.m.life ≠ .off ∧ s.m.life = .run ∧ s.m.switching = true ∧ s.m.reset.request = some (6, 1, 999) ∧ s.m.tread % 100 = 0 ∧
    999 < s.m.tread := by decide

theorem test_witness_ResetsHold_brownout :
    tb ((running fun m => m.setRo 0x1400 0x2F 0).m.rov 0x1400 0x2F) 1 = false ∧ tb ((running fun m => m.setRo 0x1400 0x2F 2).m.rov 0x1400 0x2F) 1 = true := by
  decide +kernel
theorem test_witness_ResetsHold_pairs :
    let s := fun pair => running fun m => m.setRo 0x2000 (3 + pair) 1
    ((running id).m.rov 0x2000 (3 + 0) = 0 ∧ (running id).m.rov 0x2000 (4 - 0) = 0) ∧ (s 0).m.rov 0x2000 (3 + 0) ≠ 0 ∧
    ((s 1).m.rov 0x2000 (3 + 0) = 0 ∧ (s 1).m.rov 0x2000 (4 - 0) ≠ 0) := by decide +kernel

/-- The module in a phase of the bring-up. -/
def rising (l : Life) (r : ResetSt → ResetSt) : State := running fun m => { m with life := l, reset := r m.reset }

theorem test_witness_BringUpProceeds :
    (rising .held id).m.reset.needP3 = false ∧ (rising .held id).m.reset.bootsel ≠ 1 ∧
    (rising .held fun r => { r with bootsel := 1 }).m.reset.bootsel = 1 ∧ factoryOptions { now := 7 } = false ∧
    (rising .held fun r => { r with needP3 := true }).m.reset.needP3 = true ∧ (rising .ready id).m.life = .ready := by decide
theorem test_witness_SupplyAndBlocks :
    let s := running fun m => { m.setRo 0x1410 2 0x20000 with journal := { m.journal with pfail := some 900 } }
    (running id).m.journal.pfail = none ∧ s.m.journal.pfail = some 900 ∧ s.m.blockIn 16 = false ∧ s.m.switching = true ∧
    17 < 18 ∧ s.m.blockIn 17 = true := by decide +kernel

/-- The module on PTP, its master 9. -/
def onPtp (f : TimeSt → TimeSt) : State := running fun m =>
  { m.setCfg 0x1300 0xF 7 with time := f { m.time with clkmode := 2, master := some 9, heard := some 9 } }

theorem test_witness_TimebaseEvents_sync :
    let s := onPtp id
    let i : SyncIn := { port := 2, t1 := 500, t2 := 100, master := 9 }
    s.m.ptpTakes i.port i.domain i.udp = true ∧ -7 ≤ i.interval ∧ i.interval ≤ 1 ∧ s.m.time.heard = some i.master ∧
    s.m.time.timeSet = false ∧ s.m.cfg 0x1300 9 ≠ 2 ∧ (i.t2 : Int) - i.t1 - i.correction - i.pathDelay < 0 := by
  decide +kernel
theorem test_witness_TimebaseEvents_behind :
    (onPtp fun t => { t with timeSet := true }).m.time.timeSet = true ∧ (1000000000 : Int) < (2000000000 : Nat) - (0 : Nat) - 0 - (0 : Nat) := by
  decide
theorem test_witness_TimebaseEvents_announce :
    let i : AnnounceIn := { port := 2, identity := 9 }
    (onPtp id).m.ptpTakes i.port i.domain i.udp = true ∧ -3 ≤ i.interval ∧ i.interval ≤ 4 := by decide +kernel
theorem test_witness_TimebaseEvents_masterLost :
    let s := running fun m => { m.setRo 0x1300 1 3 with tread := 10000000, time := { m.time with
      clkmode := 2, master := some 9, masters := [({ port := 2, identity := 9 }, 0)] } }
    s.m.time.master = some 9 ∧ s.m.rov 0x1300 1 ≠ 0 ∧ s.m.rov 0x1300 1 ≠ 4 ∧
    (∀ x ∈ s.m.time.masters, x.2 + announceSpan x.1 ≤ s.m.tread) := by decide +kernel
theorem test_witness_TimebaseEvents_followUp :
    let s := running fun m => { m with tread := 100000, switch := { ptp := [{ id := 4 }] } }
    (s.m.switch.ptp.find? fun e => decide (e.id = 4 ∧ e.at_ + 100000 ≤ s.m.tread)) = some { id := 4 } := by decide +kernel
theorem test_witness_TimebaseEvents_refin :
    let s := fun lost => running fun m => { m.setRo 0x1300 1 4 with time := { m.time with clkmode := 1, refLost := lost } }
    ((s false).m.time.refLost = false ∧ (s false).m.time.clkmode = 1 ∧ (s false).m.rov 0x1300 1 ≠ 0) ∧
    ((s true).m.time.refLost = true ∧ (s true).m.rov 0x1300 1 = 4) := by decide +kernel
theorem test_witness_TimeOutputsPulse :
    let s := running fun m => m.setTpo 15 { next := some 10009999, ends := some 10009999 }
    10009999 < (s.m.tread + 1) * 10000 ∧ (s.m.tpoFrom 15 (s.m.tpo 15) s.m.now).next = some 10009999 ∧ s.m.now ≤ 10009999 ∧
    (s.m.tpo 15).ends = some 10009999 := by decide +kernel

/-! ### CAN ports -/

/-- A port that takes part, its tile awake. -/
def canOn (f : Mod → Mod) : State := running fun m =>
  f { (m.setCfg 0x3780 1 1).setRo 0x3780 7 2 with tiles := { awake := 0x7FFF } }

/-- A data frame with identifier 5. -/
def aFrame : CanFrame := { id := 5, data := [1, 2] }

theorem test_witness_CanHears_buffer :
    let s := canOn fun m => (m.setCfg 0x3701 1 2).setCfg 0x3701 2 5
    s.m.hears 0 = true ∧ aFrame.remote = false ∧ s.m.isRequest 0 aFrame = false ∧
    ((s.m.mos 0).find? fun k => s.m.moMatches k aFrame) = some 1 ∧ s.m.canCfg 1 1 = 2 := by decide +kernel
theorem test_witness_CanHears_queue :
    let s := canOn fun m => (m.setCfg 0x3701 1 3).setCfg 0x3701 2 5
    ((s.m.mos 0).find? fun k => s.m.moMatches k aFrame) = some 1 ∧ s.m.canCfg 1 1 = 3 ∧ s.m.portState 0 ≠ 0 := by
  decide +kernel
theorem test_witness_CanHears_leaving :
    (canOn fun m => (m.setRo 0x3780 7 0).setCanPort 0 { offAt := some 1000 }).m.hears 0 { aFrame with began := 1 }.began = true := by
  decide +kernel
theorem test_witness_CanHears_stale :
    let s := canOn fun m => ((m.setCfg 0x3701 1 2).setCfg 0x3701 0xD 10).setCanObj 1 { stale := false }
    1 < 128 ∧ s.m.canCfg (1 + 128 * 0) 1 = 2 ∧ s.m.canCfg (1 + 128 * 0) 0xD ≠ 0 ∧ (s.m.canObj (1 + 128 * 0)).stale = false ∧
    (s.m.canObj (1 + 128 * 0)).since + s.m.canCfg (1 + 128 * 0) 0xD ≤ s.m.tread := by decide +kernel
theorem test_witness_CanHears_states :
    (running fun m => m.setRo 0x3781 7 1).m.portState 1 = 1 ∧ (running fun m => m.setRo 0x3781 7 5).m.portState 1 = 5 ∧
    (running fun m => (m.setRo 0x3781 7 4).setCfg 0x3781 5 1).m.portState 1 = 4 ∧
    (running fun m => (m.setRo 0x3781 7 4).setCfg 0x3781 5 1).m.cfg (0x3780 + 1) 5 = 1 := by decide +kernel
theorem test_witness_CanSends_periodic :
    let s := canOn fun m => (m.setCfg 0x3701 1 1).setCfg 0x3701 0xA 100
    s.m.canCfg (1 + 128 * 0) 0xA ≠ 0 ∧ s.m.phaseTread % s.m.canCfg (1 + 128 * 0) 0xA = 0 ∧
    (s.m.canObj (1 + 128 * 0)).sentAt ≠ some s.m.tread ∧ s.m.canCfg (1 + 128 * 0) 1 = 1 := by decide +kernel
theorem test_witness_CanSends_offer :
    let s := fun tec => canOn fun m => ((m.setCfg 0x3701 1 1).setCanObj 1 { pend := true, tries := 1 }).setCanPort 0 { tec := tec }
    (s 0).m.transmits 0 = true ∧ (s 0).m.offer 0 = .mo 1 ∧ (s 0).m.attempt 0 0 = (.mo 1, (s 0).m.moFrame 1, true) ∧
    (s 0).m.tecAfter 0 false ≤ 255 ∧ (s 248).m.attempt 0 0 = (.mo 1, (s 248).m.moFrame 1, true) ∧
    255 < (s 248).m.tecAfter 0 false := by decide +kernel
theorem test_witness_CanSends_began :
    let s := fun pend => canOn fun m => ((m.setCfg 0x3701 1 1).setCanObj 1 { pend := pend, tries := 1 }).setCanPort 0
      { offers := [(999, .mo 1, aFrame)] }
    (s true).m.transmits 0 1 = true ∧ (s true).m.attempt 0 1 = (.mo 1, aFrame, true) ∧
    (s false).m.attempt 0 1 = (.mo 1, aFrame, false) := by decide +kernel
theorem test_witness_CanSends_response :
    let r : CanResp := { bytes := [1], tries := 2 }
    let s := canOn fun m => m.setCanPort 0 { resp := [r] }
    s.m.transmits 0 = true ∧ s.m.offer 0 = .resp ∧ (s.m.canPort 0).resp = r :: [] ∧
    s.m.attempt 0 0 = (.resp, s.m.respFrame 0 r, true) := by decide +kernel
theorem test_witness_CanAccessRequests :
    let f : CanFrame := { id := 5, fd := true, data := [0, 7, 0, 0x12, 1, 0, 0, 0] }
    let s := canOn fun m => { ((m.setCfg 0x3780 0xD 1).setCfg 0x3780 0xE 5).setCanPort 0 { assoc := 1 } with
      hall := [(1, { host with agreed := { host.agreed with cls := 2 } })] }
    s.m.hears 0 = true ∧ f.remote = false ∧ s.m.isRequest 0 f = true ∧ (s.m.canPort 0).assoc ≠ 0 ∧ s.m.full 1 = false ∧
    requestOk (f.data.take 64) = true ∧ requestOk [2] = false ∧ serviceReaches 0x1200 1 = true ∧
    exists_ 3 0x4023 2 = 0 ∧ serviceReaches 0x4023 2 = false ∧ (canOn fun m => m.setCfg 0x1200 8 0).m.full 1 = true := by
  decide +kernel

/-- The queue of port 0 with an entry that no one owns and one of the partner. -/
def queued (l : List CanRx) : State := running fun m => m.setCanPort 0 { queue := l }
/-- An entry of the queue. -/
def anEntry (owner : Nat) : CanRx := { seq := 7, id := 5, mo := 1, len := 1, dropped := 0, tread := 990, data := 9, owner := owner }

theorem test_witness_QueueWindowIsRead :
    let s := queued [anEntry 0]
    let l : List Entry := [{ idx := 0x3780 + 0, sub := 0x10 }]
    let u := s.m.turned 1 host 1
    0 < 2 ∧ first.early = false ∧ first.journalled = false ∧ s.m.inTurn first host l = true ∧ s.m.reads = [] ∧
    u.readFail 1 0 l = none ∧ u.dueOfRead 1 first.named first.off = (0, s.m.tread) ∧
    u.readsBefore { assoc := 1, seq := 1, tag := 0, due := 1000, entries := l } = [] ∧
    ((s.m.canPort 0).queue.find? fun e => decide (e.owner = 1)) = none ∧
    ((s.m.canPort 0).queue.find? fun e => decide (e.owner = 0)) = some (anEntry 0) := by decide +kernel
theorem test_witness_QueueWindowIsRead_owned :
    (((queued [anEntry 1]).m.canPort 0).queue.find? fun e => decide (e.owner = 1)) = some (anEntry 1) ∧
    (((queued []).m.canPort 0).queue.find? fun e => decide (e.owner = 0)) = none := by decide +kernel

/-! ### Gallery, power states, maintenance -/

/-- A record that is due. -/
def aRecord : GalDue := { tread := 999, code := 1, source := 0, words := [] }

theorem test_witness_GalleryEvents_record :
    let s := fun full => running fun m => { m.setRo 0x1500 5 full with gal := { m.gal with queue := [aRecord], flight := 10, wrote := 63 } }
    let w := running fun m => { m with gal := { m.gal with queue := [aRecord], flight := 10, wrote := 64 } }
    let d := { aRecord with snap := some [] }
    (s 0).m.rov 0x1500 5 = 0 ∧ (s 1).m.rov 0x1500 5 = 1 ∧ (s 0).m.blockIn 17 = false ∧ (s 0).m.fillSnaps.gal.queue = d :: [] ∧
    (if (s 0).m.gal.flight = (s 0).m.tread / 100 then (s 0).m.gal.wrote else 0) < 64 ∧
    64 ≤ (if w.m.gal.flight = w.m.tread / 100 then w.m.gal.wrote else 0) ∧
    ((s 0).m.rateWindow d.code (d.tread / 100)).2 < (s 0).m.galSet d.code 2 := by decide +kernel
theorem test_witness_GalleryEvents_limited :
    let s := running fun m => { m with objs := [(codeKey 1 2, 0)] }
    s.m.galSet 1 2 ≤ (s.m.rateWindow 1 9).2 := by decide +kernel
theorem test_witness_GalleryEvents_clear : (running fun m => m.setRo 0x1500 5 2).m.rov 0x1500 5 = 2 := by decide +kernel
theorem test_witness_StandbyAndWake_enters :
    let s := running fun m => { m with power := { m.power with standby := some 999 } }
    s.m.power.standby = some 999 ∧ s.m.tread % 100 = 0 ∧ 999 < s.m.tread ∧ s.m.resetsNow = false ∧ s.m.power.early = none := by
  decide
theorem test_witness_StandbyAndWake_early :
    let s := running fun m => { m.setCfg 0x1400 0x23 2 with power := { m.power with standby := some 999, early := some (2, 5) } }
    s.m.power.standby = some 999 ∧ s.m.resetsNow = false ∧ s.m.power.early = some (2, 5) ∧
    tb (s.m.cfg 0x1400 0x23) (2 - 1) = true := by decide +kernel
theorem test_witness_StandbyAndWake_wakes :
    let s := running fun m => { ((m.setCfg 0x1400 0x23 7).setCfg 0x1400 0x24 8).setCfg 0x1400 0x25 (2 ^ 191) with life := .standby }
    s.m.life = .standby ∧ tb (s.m.cfg 0x1400 0x24) 3 = true ∧ tb (s.m.cfg 0x1400 0x23) 0 = true ∧ 191 < 192 ∧
    tb (s.m.cfg 0x1400 0x25) 191 = true ∧ tb (s.m.cfg 0x1400 0x23) 1 = true ∧ tb (s.m.cfg 0x1400 0x23) 2 = true := by
  decide +kernel
theorem test_witness_StandbyAndWake_completes : (running fun m => { m with life := .waking }).m.life = .waking := rfl
theorem test_witness_MaintenanceEvents_pulse :
    let s := fieldAt fun f => { f with pulse := some (3, 300, 0) }
    s.m.field.powered = true ∧ s.m.field.pulse = some (3, 300, 0) ∧ 300 < (s.m.tread - 0 + 1) * 10 := by decide
theorem test_witness_MaintenanceEvents_firmware :
    let s := running fun m => m.setRo 0x1620 6 2
    s.m.fwState = 2 ∧ s.m.blockIn 16 = false := by decide +kernel
theorem test_witness_MaintenanceEvents_trial :
    let s := running fun m => { m with tread := 60000000, firmware := { m.firmware with trial := some 0 } }
    s.m.firmware.trial = some 0 ∧ 0 + 60000000 ≤ s.m.tread := by decide

/-! ### Well-formedness -/

theorem test_wf_good :
    [Instr.start first 15 255, .registerWrite first { idx := 0xFFFF, sub := 0xFF, len := 1, val := 255 }, .transact (frame [255]),
     .canFrameReceived 1 aFrame, .degradedWindowExpiry 1 7, .resultLands 63 15 true (-131072) 639 9999].all Instr.wf = true := by
  decide +kernel
theorem test_wf_refuses_1 :
    [Instr.treadBoundary { slot0 := [(64, 0)] },
     .treadBoundary { slot0 := [(0, 131072)] },
     .treadBoundary { raw := [(192, 0)] },
     .treadBoundary { strobes := 64 },
     .resynchronisationComplete 2 true,
     .tileWakeComplete 15,
     .stepTimeout 16,
     .pulseDoEnd 192,
     .start { assoc := 0, seq := 1 } 0 0,
     .start { assoc := 255, seq := 1 } 0 0,
     .start { first with seq := 2 ^ 32 } 0 0,
     .start { first with tag := 2 ^ 32 } 0 0].any Instr.wf = false := by decide +kernel
theorem test_wf_refuses_2 :
    [Instr.start { first with off := 10000 } 0 0,
     .start { first with named := some (2 ^ 64) } 0 0,
     .start first 16 0,
     .start first 0 256,
     .abort first 16,
     .transact { frame [] with src := { port := 4 } },
     .transact { frame [] with src := { port := 0, mac := 2 ^ 48 } },
     .transact { frame [] with src := { port := 0, ip := 2 ^ 32 } },
     .transact { frame [] with src := { port := 0, udpPort := 65536 } },
     .transact { frame [] with assoc := 256 },
     .transact { frame [] with seq := 2 ^ 32 },
     .transact { frame [] with tag := 2 ^ 32 }].any Instr.wf = false := by decide +kernel
theorem test_wf_refuses_3 :
    [Instr.transact { frame [] with off := 10000 },
     .transact (frame [256]),
     .transact { frame [] with trailer := [256] },
     .readService 0 1,
     .hello { port := 4 },
     .negotiate { port := 0 } { versions := 1, nonce := 2 ^ 128 },
     .associate { port := 0 } { reserved := 0, role := 0 },
     .imageSend 64 false,
     .evict first 255,
     .mapEnable first 64,
     .switchFrame { port := 4, dst := 0, src := 0, len := 64 },
     .addressAgeOut (2 ^ 48)].any Instr.wf = false := by decide +kernel
theorem test_wf_refuses_4 :
    [Instr.arpRequest 5 0 0,
     .arpRequest 0 (2 ^ 32) 0,
     .portLinkState 5 0,
     .portLinkState 0 3,
     .loopModeWrite first 512 0,
     .destinationWrite first 0 4096,
     .coefficientWrite first 0 0 0x18 0,
     .coefficientWrite first 0 0 1 (2 ^ 32),
     .tableWindowWrite first 0 (256 ^ 256),
     .lockTimeout 512,
     .resultLands 64 0 false 0 0 0,
     .resultLands 0 16 false 0 0 0].any Instr.wf = false := by decide +kernel
theorem test_wf_refuses_5 :
    [Instr.resultLands 0 0 false 131072 0 0,
     .resultLands 0 0 false 0 640 0,
     .injectedFiring 0 4 false 0,
     .injectedDeferredStart 64,
     .calibrate first 64,
     .averageWindowComplete 256,
     .skewCalibrationEnd [(64, 0)] [],
     .skewCalibrationEnd [] [(64, 0)],
     .openWireScan 8 0,
     .aoReadback 8 0,
     .debounceChange 0 { level := 2, samples := 10 },
     .fallbackSwitch 2].any Instr.wf = false := by decide +kernel
theorem test_wf_refuses_6 :
    [Instr.supplySag 6,
     .bankEnable first 0 256,
     .faultAcknowledge first 6,
     .safetyCycle { chans := [(32, {})] },
     .safetyCycle { readback := [(16, true)] },
     .safetyDebounce 16 0,
     .discrepancyFault 16,
     .offDelayExpiry 8,
     .safeOutputDarkTest 0 2 none,
     .degradedWindowExpiry 1 8,
     .degradedWindowExpiry 2 0,
     .registerWrite first { idx := 65536, sub := 0 }].any Instr.wf = false := by decide +kernel
theorem test_wf_refuses_7 :
    [Instr.registerWrite first { idx := 0, sub := 256 },
     .registerWrite first { idx := 0, sub := 0, len := 1, val := 256 },
     .resetConfirm first 65536,
     .restart first 8,
     .hostRequest first 8 0,
     .faultReset first 0 16,
     .stageReturn 0 (some (2 ^ 32)),
     .planComplete 32,
     .axisMove first 0 3 0,
     .axisStop first 32,
     .axisEnable first 0 256,
     .setPosition first 0 (2 ^ 32)].any Instr.wf = false := by decide +kernel
theorem test_wf_refuses_8 :
    [Instr.blockClose 7,
     .chainPacket 3 [],
     .chainPacket 2 [2 ^ 32],
     .pauseFrame 65536,
     .triggerFire 8 0 none false,
     .triggerArm first 0 2,
     .holdOffEnd 8,
     .powerOnReset { bootsel := 4, clkmode := 0 } {},
     .softwareFullReset first 4,
     .blockReset first (2 ^ 32),
     .blockResetEnd 18,
     .pllLockLoss 9].any Instr.wf = false := by decide +kernel
theorem test_wf_refuses_9 :
    [Instr.setTime first (2 ^ 64),
     .sync { port := 3, t1 := 0, t2 := 0, master := 0 },
     .announce { port := 3, identity := 0 },
     .tpoArm first 16,
     .tpoPulse 16,
     .canEnable first 2,
     .queueAcknowledge first 0 (2 ^ 32),
     .accessServiceEnable first 0 256,
     .canFrameReceived 2 aFrame,
     .canFrameReceived 0 { id := 2 ^ 32 },
     .canFrameReceived 0 { id := 0, data := List.replicate 9 0 },
     .canFrameReceived 0 { id := 0, data := [256] }].any Instr.wf = false := by decide +kernel
theorem test_wf_refuses_10 :
    [Instr.stale 0 128,
     .canSend first 0 128,
     .transmissionComplete 2,
     .wakeLinkFrame 4 true,
     .wakeDiEdge 192,
     .tokenRequest first 0 256,
     .tokenRelease first 17,
     .pulseTest first 192 10,
     .loadOffset first (2 ^ 32),
     .loadData first 1 256,
     .swap first (2 ^ 32),
     .patch first [(256, 0, 0)]].any Instr.wf = false := by decide +kernel

/-! ### Small facts of the spec -/

/-- The CRC of the nine ASCII bytes 123456789 (R57). -/
theorem test_crc16 : crc16 [0x31, 0x32, 0x33, 0x34, 0x35, 0x36, 0x37, 0x38, 0x39] = 0x29B1 := by decide +kernel
/-- The check value of CRC-32C that Stairwell Images gives for the trailer (R95). -/
theorem test_crc32c : crc32c [0x31, 0x32, 0x33, 0x34, 0x35, 0x36, 0x37, 0x38, 0x39] = 0xE3069283 := by decide +kernel
/-- No row of the table gives bits, so no word spells a command. -/
theorem test_decode (n w : Nat) : decodeTableWord n w = none := rfl
/-- A block that idles stays as it is. -/
theorem test_idle : step State.reset = .next State.reset := rfl

/-- The module after a command, where it goes on. -/
def after (c : Instr) (s : State) : Mod :=
  match exec c s with
  | .next t => t.m
  | _ => s.m

/-- A first reset is a power-on reset: reset reason 1 (R284). -/
theorem test_powerOn : (after (.powerOnReset { bootsel := 2, clkmode := 3 } {}) State.reset).rov 0x1400 1 = 1 := by decide +kernel
/-- Released at tread 12 345, the module is in service from a flight boundary on (R294, R295). -/
theorem test_bringUp :
    let s := fun c m => ({ m := after c m, pending := [] } : State)
    let m := (s (.treadBoundary {}) (s .preparationTread (s (.resetRelease { now := 12345 }) State.reset))).m
    m.life = .run ∧ m.tread % 100 = 0 ∧ 12345 < m.tread := by decide +kernel
/-- A RESET_N of 49 samples is no reset, of 50 is one (R285). -/
theorem test_resetN : (after (.resetN 49) (running id)).life = .run ∧ (after (.resetN 50) (running id)).life = .held := by
  decide +kernel
/-- A bank enable written now stands after the next boundary and not before (R26, R33). -/
theorem test_staged_invisible :
    let m := after (.bankEnable first 0 1) (running id)
    m.cfg 0x34C0 2 = (running id).m.cfg 0x34C0 2 ∧ m.staged.length = 1 := by decide +kernel
/-- Out of service the same command does nothing. -/
theorem test_silent : after (.bankEnable first 0 1) State.reset = State.reset.m := by decide +kernel

end Sys2Proof.Tests
end

section
/-! PROOFS. A partner's write that names a tread (R37): what a write taken in its turn comes to at its arrival, what the
module's reply to it leaves alone, and the statement. -/

namespace Sys2Proof.Machine

/-! ### What a final reply changes -/

/-- A reply changes nothing, or a CAN port's queue, or the queue of replies and the replies kept for its partner (R55,
R320, R373). -/
theorem send_cases (m : Mod) (r : Reply) :
    m.send r = m ∨ (∃ c s, m.send r = m.setCanPort c s) ∨
      ∃ p rs cache, m.inHall r.assoc = some p ∧
        m.send r = ({ m with replies := rs } : Mod).setPartner r.assoc { p with cache := cache } := by
  unfold Mod.send
  cases hp : m.inHall r.assoc with
  | none => exact .inl rfl
  | some p =>
    cases m.canPortOf r.assoc with
    | some c => exact .inr (.inl ⟨_, _, rfl⟩)
    | none => exact .inr (.inr ⟨p, m.replies ++ [r], (p.cache ++ [r]).drop ((p.cache ++ [r]).length - 16), rfl, rfl⟩)

theorem send_frame (m : Mod) (r : Reply) :
    (m.send r).staged = m.staged ∧ (m.send r).objs = m.objs ∧ (m.send r).tracks = m.tracks ∧ (m.send r).ro = m.ro := by
  obtain h | ⟨c, s, h⟩ | ⟨p, rs, cache, -, h⟩ := send_cases m r <;> rw [h] <;> exact ⟨rfl, rfl, rfl, rfl⟩

theorem rov_send (m : Mod) (r : Reply) (idx sub : Nat) : (m.send r).rov idx sub = m.rov idx sub := by
  obtain ⟨-, -, -, h⟩ := send_frame m r
  simp only [Mod.rov, h]

/-! ### What taking a message in its turn changes -/

/-- The module once a message has been taken in its turn: the partner's entry changes, and where an incomplete message
was discarded the count of discarded frames (R318, R320). -/
theorem turned_cases (m : Mod) (a : Nat) (p : Partner) (n : Nat) :
    ∃ q, m.turned a p n = m.setPartner a q ∨ m.turned a p n = m.dropFrame.setPartner a q := by
  refine ⟨{ p with last := m.tread, part := none, expect := (n + 1) % 2 ^ 32, resync := false }, ?_⟩
  unfold Mod.turned Mod.cleared Mod.dropPartial
  dsimp only []
  split
  · exact .inl (by simp [Mod.seen, Mod.setPartner])
  · split
    · exact .inl (by simp [Mod.seen, Mod.setPartner])
    · exact .inr (by simp [Mod.seen, Mod.setPartner, Mod.dropFrame, Mod.bump, Mod.bumpBy, Mod.setRo, Mod.rov])

theorem turned_frame (m : Mod) (a : Nat) (p : Partner) (n : Nat) :
    (m.turned a p n).staged = m.staged ∧ (m.turned a p n).objs = m.objs ∧ (m.turned a p n).tracks = m.tracks ∧
      (m.turned a p n).tread = m.tread := by
  obtain ⟨q, h | h⟩ := turned_cases m a p n <;> rw [h] <;> exact ⟨rfl, rfl, rfl, rfl⟩

theorem rov_turned (m : Mod) (a : Nat) (p : Partner) (n idx sub : Nat) (hk : okey 0 0x1100 0xB ≠ okey 0 idx sub) :
    (m.turned a p n).rov idx sub = m.rov idx sub := by
  obtain ⟨q, h | h⟩ := turned_cases m a p n <;> rw [h]
  · rfl
  · exact rov_bumpBy_ne m _ _ _ _ _ hk

theorem turned_now (m : Mod) (a : Nat) (p : Partner) (n : Nat) : (m.turned a p n).now = m.now := by
  obtain ⟨-, -, -, h⟩ := turned_frame m a p n
  simp only [Mod.now, h]

theorem turned_dueOfWrite (m : Mod) (a : Nat) (p : Partner) (n : Nat) (named : Option Tread) (off : Offset) :
    (m.turned a p n).dueOfWrite named off = m.dueOfWrite named off := by
  obtain ⟨-, ho, -, ht⟩ := turned_frame m a p n
  unfold Mod.dueOfWrite Mod.cfg
  rw [ho, ht]

/-! ### Messages held ahead of their turn -/

/-- Nothing of an association is held ahead of its turn (R320). -/
def Mod.holdsNone (m : Mod) (a : Nat) : Prop := ∀ p, m.inHall a = some p → p.held = []

theorem drainHeld_of_holdsNone (m : Mod) (a : Nat) (off : Offset) (n : Nat) (h : m.holdsNone a) :
    m.drainHeld a off n = m := by
  cases n with
  | zero => rfl
  | succ n =>
    unfold Mod.drainHeld
    cases hp : m.inHall a with
    | none => rfl
    | some p => simp [h p hp]

theorem holdsNone_setPartner (m : Mod) (a : Nat) (p : Partner) (hs : p.state = 1) (hh : p.held = []) :
    (m.setPartner a p).holdsNone a := by
  intro q hq
  rw [inHall_setPartner m a p hs, Option.some.injEq] at hq
  rw [← hq, hh]

theorem holdsNone_turned (m : Mod) (a : Nat) (p : Partner) (n : Nat) (hs : p.state = 1) (hh : p.held = []) :
    (m.turned a p n).holdsNone a :=
  holdsNone_setPartner _ a _ hs hh

theorem holdsNone_bump {m : Mod} {a : Nat} (idx sub : Nat) (h : m.holdsNone a) : (m.bump idx sub).holdsNone a := h

theorem holdsNone_send {m : Mod} {a : Nat} (r : Reply) (h : m.holdsNone a) : (m.send r).holdsNone a := by
  obtain e | ⟨c, s, e⟩ | ⟨p, rs, cache, hp, e⟩ := send_cases m r <;> rw [e]
  · exact h
  · exact h
  · obtain ⟨-, hstate⟩ := inHall_some hp
    by_cases ha : r.assoc = a
    · subst ha
      exact holdsNone_setPartner _ _ _ hstate (h p hp)
    · intro q hq
      rw [inHall_setPartner_ne _ _ _ _ ha] at hq
      exact h q hq

theorem holdsNone_refuse {m : Mod} {x : Txn} {a : Nat} (st pos : Nat) (hx : x.origin = .message) (h : m.holdsNone a) :
    (m.refuse x st pos).holdsNone a := by
  unfold Mod.refuse
  rw [hx]
  refine holdsNone_send _ ?_
  split
  · exact holdsNone_bump _ _ h
  · split
    · exact holdsNone_bump _ _ h
    · exact h

/-! ### A write taken in its turn -/

/-- A list of entries that a message can have makes a transaction (R28, R29). -/
theorem reqOf_write (h : Hdr) (l : List Entry) (hsome : l.isEmpty = false) (hcount : l.length ≤ 256)
    (hbytes : l.foldl (fun n e => n + e.len) 0 ≤ 4096) :
    reqOf true h.named h.early h.journalled l = .txn true h.named h.early h.journalled l := by
  unfold reqOf
  rw [if_neg (by simp [hsome]), if_neg (by simp; omega)]

/-- A write that uses agreed features alone is validated (R31, R330). -/
theorem arrive_txnOf (m : Mod) (h : Hdr) (l : List Entry) (off : Offset) (hfeat : m.featureBad (txnOf h l) = false) :
    m.arrive (txnOf h l) true true off = m.arriveWrite (txnOf h l) off := by
  unfold Mod.arrive
  rw [if_neg (by simp), if_neg (by simp [hfeat])]
  exact if_pos rfl

/-- A write taken in its turn arrives at the commit unit, and then what was held behind it is taken (R320). -/
theorem partner_inTurn (m : Mod) (h : Hdr) (p : Partner) (l : List Entry) (hin : m.inTurn h p l = true) :
    m.partner h true l =
      ((m.turned h.assoc p h.seq).arriveWrite (txnOf h l) h.off).drainHeld h.assoc h.off 1024 := by
  simp only [Mod.inTurn, Bool.and_eq_true, decide_eq_true_eq, Bool.not_eq_true', Bool.or_eq_true] at hin
  obtain ⟨⟨⟨⟨⟨⟨⟨⟨⟨hserv, hlook⟩, hstate, hcls⟩, -⟩, hnext⟩, hroom⟩, hsome⟩, hcount⟩, hbytes⟩, hfeat⟩ := hin
  have hexp : (if p.resync = true then h.seq else p.expect) = h.seq := by
    rcases hnext with hnext | hnext <;> simp [hnext]
  have hgap : (h.seq + 2 ^ 32 - h.seq) % 2 ^ 32 = 0 := by
    rw [Nat.add_sub_cancel_left, Nat.mod_self]
  unfold Mod.partner
  rw [if_neg (by simp [hserv]), hlook]
  dsimp only []
  rw [if_neg (by omega), if_neg (by simp [hstate, hcls])]
  change (m.cleared h.assoc p).sequence h.assoc _ _ _ = _
  unfold Mod.sequence
  rw [cleared_inHall m h.assoc p hstate]
  dsimp only []
  rw [hexp, if_pos hgap, hroom, reqOf_write h l hsome hcount hbytes, if_neg (by simp), ← arrive_txnOf _ h l h.off hfeat]
  rfl

/-- Where a write is in turn, nothing of its partner is held (R320). -/
theorem holdsNone_of_inTurn (m : Mod) (h : Hdr) (p : Partner) (l : List Entry) (hin : m.inTurn h p l = true) :
    (m.turned h.assoc p h.seq).holdsNone h.assoc := by
  simp only [Mod.inTurn, Bool.and_eq_true, decide_eq_true_eq] at hin
  obtain ⟨⟨⟨⟨⟨⟨⟨⟨-, hstate, -⟩, hheld⟩, -⟩, -⟩, -⟩, -⟩, -⟩, -⟩ := hin
  exact holdsNone_turned m _ p _ hstate (by simpa using hheld)

/-- A valid write in its turn whose tread cannot be is refused as a whole, and nothing else happens (R37). -/
theorem partner_refused (m : Mod) (h : Hdr) (p : Partner) (l : List Entry) (hin : m.inTurn h p l = true)
    (hv : (m.turned h.assoc p h.seq).validateFrom h.assoc (m.now + h.off) (m.dueOfWrite h.named h.off).2 l 0 l = none)
    (hd : (m.dueOfWrite h.named h.off).1 ≠ 0) :
    m.partner h true l = (m.turned h.assoc p h.seq).refuse (txnOf h l) (m.dueOfWrite h.named h.off).1 0xFFFF := by
  have harrive : (m.turned h.assoc p h.seq).arriveWrite (txnOf h l) h.off =
      (m.turned h.assoc p h.seq).refuse (txnOf h l) (m.dueOfWrite h.named h.off).1 0xFFFF := by
    unfold Mod.arriveWrite
    simp only [txnOf, turned_dueOfWrite, turned_now, hv]
    exact if_pos hd
  rw [partner_inTurn m h p l hin, harrive]
  exact drainHeld_of_holdsNone _ _ _ _ (holdsNone_refuse _ _ rfl (holdsNone_of_inTurn m h p l hin))

/-! ### The boundary that a write names (R37) -/

/-- A tread that can still be reached is not one whose set is sealed. -/
theorem not_late_of_inTime {n t off : Nat} (h : n + 1 < t ∨ (t = n + 1 ∧ off ≤ 9600)) :
    ¬(t < n + 1 ∨ (t = n + 1 ∧ 9600 < off)) := by omega

theorem dueOfWrite_late (m : Mod) (t : Tread) (off : Offset) (h : t < m.tread + 1 ∨ (t = m.tread + 1 ∧ 9600 < off)) :
    m.dueOfWrite (some t) off = (stLate, t) := by
  simp only [Mod.dueOfWrite, if_pos h]

theorem dueOfWrite_beyond (m : Mod) (t : Tread) (off : Offset) (h : m.tread + 1 < t ∨ (t = m.tread + 1 ∧ off ≤ 9600))
    (hb : m.tread + m.cfg 0x1200 6 < t) : m.dueOfWrite (some t) off = (stRange, t) := by
  simp only [Mod.dueOfWrite, if_neg (not_late_of_inTime h), if_pos hb]

theorem dueOfWrite_inTime (m : Mod) (t : Tread) (off : Offset) (h : m.tread + 1 < t ∨ (t = m.tread + 1 ∧ off ≤ 9600))
    (hb : t ≤ m.tread + m.cfg 0x1200 6) : m.dueOfWrite (some t) off = (0, t) := by
  simp only [Mod.dueOfWrite, if_neg (not_late_of_inTime h), if_neg (Nat.not_lt.mpr hb)]

theorem refuse_late (m : Mod) (h : Hdr) (l : List Entry) :
    m.refuse (txnOf h l) stLate 0xFFFF = (m.bump 0x1200 0xA).send (lateReply h) := rfl

theorem refuse_range (m : Mod) (h : Hdr) (l : List Entry) :
    m.refuse (txnOf h l) stRange 0xFFFF = m.send (horizonReply h) := rfl

/-- What stands staged once a write is: what stood before, and the write for its boundary (R32, R33). -/
theorem stage_staged (m : Mod) (h : Hdr) (l : List Entry) (due : Tread) :
    ∃ x, (m.stage (txnOf h l) due).staged = m.staged ++ [x] ∧ x.due = due ∧ x.entries = l ∧ x.assoc = h.assoc ∧
      x.named = h.named.isSome := by
  unfold Mod.stage
  dsimp only []
  split <;> exact ⟨_, rfl, rfl, rfl, rfl, rfl⟩

theorem stage_objs (m : Mod) (x : Txn) (due : Tread) : (m.stage x due).objs = m.objs := by
  unfold Mod.stage
  dsimp only []
  split <;> rfl

/-- The late count is a U32 and wraps at its width (R416). -/
theorem counterBits_late : counterBits 0x1200 0xA = 32 := by decide +kernel

/-- Nothing of a late write takes effect: it raises the late count alone (R37). -/
theorem late_frame (m : Mod) (h : Hdr) (p : Partner) :
    let n := ((m.turned h.assoc p h.seq).bump 0x1200 0xA).send (lateReply h)
    n.staged = m.staged ∧ n.objs = m.objs ∧ n.tracks = m.tracks ∧ n.rov 0x1200 0xA = (m.rov 0x1200 0xA + 1) % 2 ^ 32 := by
  obtain ⟨hst, hob, htr, -⟩ := send_frame ((m.turned h.assoc p h.seq).bump 0x1200 0xA) (lateReply h)
  obtain ⟨hst', hob', htr', -⟩ := turned_frame m h.assoc p h.seq
  refine ⟨hst.trans hst', hob.trans hob', htr.trans htr', ?_⟩
  rw [rov_send, Mod.bump, rov_bumpBy, counterBits_late, rov_turned _ _ _ _ _ _ (by decide)]

/-- Nothing of a write beyond the horizon takes effect (R37). -/
theorem horizon_frame (m : Mod) (h : Hdr) (p : Partner) :
    let n := (m.turned h.assoc p h.seq).send (horizonReply h)
    n.staged = m.staged ∧ n.objs = m.objs ∧ n.tracks = m.tracks := by
  obtain ⟨hst, hob, htr, -⟩ := send_frame (m.turned h.assoc p h.seq) (horizonReply h)
  obtain ⟨hst', hob', htr', -⟩ := turned_frame m h.assoc p h.seq
  exact ⟨hst.trans hst', hob.trans hob', htr.trans htr'⟩

/-! ### The statement -/

/-- Settles O14: the boundary that the write names decides among LATE, RANGE and staging, and a write in its turn comes
to that alone. -/
theorem namedWritesInTime : Obligations.NamedWritesInTime := by
  intro c s h p l t hw hin hn hv
  rw [exec_written c s h l hw]
  refine ⟨fun hlate => ?_, fun htime => ⟨fun hbeyond => ?_, fun hwithin hroom => ?_⟩⟩
  · have hd := dueOfWrite_late s.m t h.off hlate
    rw [← hn] at hd
    rw [partner_refused s.m h p l hin (by rwa [hd]) (by rw [hd]; simp [stLate]), hd, refuse_late]
    exact ⟨_, rfl, rfl, late_frame s.m h p⟩
  · have hd := dueOfWrite_beyond s.m t h.off htime hbeyond
    rw [← hn] at hd
    rw [partner_refused s.m h p l hin (by rwa [hd]) (by rw [hd]; simp [stRange]), hd, refuse_range]
    exact ⟨_, rfl, rfl, horizon_frame s.m h p⟩
  · have hd := dueOfWrite_inTime s.m t h.off htime hwithin
    rw [← hn] at hd
    rw [partner_staged s.m h p l hin (by rwa [hd]) (by rw [hd]) (by rwa [hd]), hd]
    obtain ⟨x, hst, hdue, hent, hassoc, hnamed⟩ := stage_staged (s.m.turned h.assoc p h.seq) h l t
    obtain ⟨hst', hob', -, -⟩ := turned_frame s.m h.assoc p h.seq
    refine ⟨_, x, rfl, ?_, hdue, hent, hassoc, by rw [hnamed, hn]; rfl, ?_⟩
    · rw [State.withMod_m, hst, hst']
    · rw [State.withMod_m, stage_objs, hob']

end Sys2Proof.Machine
end

section
/-! PROOFS. A decision to enter a step (R61, R74): what a landing decided for a track comes to, and the statement. -/

namespace Sys2Proof.Machine

/-! ### What a count of CRC failures leaves as it is -/

theorem counterBits_crcFailures : counterBits 0x4010 4 = 32 := by decide +kernel

theorem rov_bump_crcFailures (m : Mod) : (m.bump 0x4010 4).rov 0x4010 4 = (m.rov 0x4010 4 + 1) % 2 ^ 32 := by
  rw [Mod.bump, rov_bumpBy, counterBits_crcFailures]

theorem bankNo_bump (m : Mod) (idx sub n : Nat) : (m.bump idx sub).bankNo n = m.bankNo n := by
  unfold Mod.bankNo
  split <;> rfl

/-- A count that is not the number of the active bank leaves the active bank as it is. -/
theorem bank_bump (m : Mod) (idx sub : Nat) (h : okey 0 idx sub ≠ okey 0 0x4020 1) : (m.bump idx sub).bank = m.bank := by
  unfold Mod.bank
  rw [bankNo_bump, Mod.bump, rov_bumpBy_ne _ _ _ _ _ _ h]

theorem landingOf_bump (m : Mod) (t step : Nat) : (m.bump 0x4010 4).landingOf t step = m.landingOf t step := by
  unfold Mod.landingOf Mod.stepE
  rw [bank_bump m 0x4010 4 (by decide)]
  rfl

theorem landingOk_bump (m : Mod) (l : Nat) : (m.bump 0x4010 4).landingOk l = m.landingOk l := by
  unfold Mod.landingOk Mod.landingE
  rw [bank_bump m 0x4010 4 (by decide)]

/-! ### A landing decided (R74, R76) -/

/-- The track waits for its landing: only its decision and what it waited for change. -/
theorem track_decideLand (m : Mod) (t cause : Nat) :
    (m.decideLand t cause).track t =
      { m.track t with
        next := some (.land (m.landingOf t (m.track t).step) cause (m.landingOk (m.landingOf t (m.track t).step))),
        wait := none } :=
  track_setTrack _ _ _

theorem track_decideLand_ne (m : Mod) (t cause x : Nat) (h : x ≠ t) : (m.decideLand t cause).track x = m.track x := by
  unfold Mod.decideLand
  rw [track_setTrack_ne _ _ _ _ h.symm]
  split <;> rfl

theorem rov_decideLand (m : Mod) (t cause : Nat) :
    (m.decideLand t cause).rov 0x4010 4 =
      if m.landingOk (m.landingOf t (m.track t).step) then m.rov 0x4010 4 else (m.rov 0x4010 4 + 1) % 2 ^ 32 := by
  rw [← rov_bump_crcFailures m, ← apply_ite (Mod.rov · 0x4010 4)]
  rfl

/-! ### The two ways of a decision to enter, and the statement -/

theorem decideEnter_good (m : Mod) (t step exit clear : Nat) (h : m.stepOk step = true) :
    m.decideEnter t step exit clear =
      m.setTrack t { m.track t with next := some (.enter step exit clear), wait := none } :=
  if_pos h

theorem decideEnter_bad (m : Mod) (t step exit clear : Nat) (h : m.stepOk step = false) :
    m.decideEnter t step exit clear = (m.bump 0x4010 4).decideLand t 8 :=
  if_neg (by simp [h])

/-- Settles O25: where the entry's CRC fails, the decision is a landing decided after the failure was counted, and the
count touches neither the tracks nor the active bank. -/
theorem decisionsWait : Obligations.DecisionsWait := by
  intro m k step exit clear
  refine ⟨fun h => decideEnter_good m k step exit clear (decide_eq_true h), fun h => ?_⟩
  have htrack : ∀ x, (m.bump 0x4010 4).track x = m.track x := fun _ => rfl
  rw [decideEnter_bad m k step exit clear (decide_eq_false h), track_decideLand, rov_decideLand, htrack,
    landingOf_bump, landingOk_bump, rov_bump_crcFailures]
  refine ⟨rfl, rfl, ?_, fun x hx => track_decideLand_ne _ _ _ _ hx⟩
  split <;> omega

end Sys2Proof.Machine
end

section
/-! PROOFS. A valve pattern applied (R70): the lead of a group, what one group's turn changes, the pattern as a whole, and
the statement, which fails for a conflict count that does not fit its 32 bits. -/

namespace Sys2Proof.Machine

/-! ### The lead of a group (R191) -/

theorem le_leadGo (map base i : Nat) : base ≤ leadGo map base i := by
  induction i with
  | zero => exact Nat.le_refl _
  | succ i ih => unfold leadGo; split <;> omega

theorem leadGo_le (map base i : Nat) : leadGo map base i ≤ base + i := by
  induction i with
  | zero => exact Nat.le_refl _
  | succ i ih => unfold leadGo; split <;> omega

/-- The lead of a group leads itself. -/
theorem leadGo_leadGo (map base i : Nat) : leadGo map base (leadGo map base i - base) = leadGo map base i := by
  induction i with
  | zero => simp [leadGo]
  | succ i ih =>
    by_cases h : tb map (i + 1) = true
    · simpa [leadGo, h] using ih
    · have hlead : leadGo map base (i + 1) = base + (i + 1) := if_neg h
      rw [hlead, Nat.add_sub_cancel_left, hlead]

theorem lead_lead (m : Mod) (o : Nat) : m.lead (m.lead o) = m.lead o := by
  have hlow : o / 32 * 32 ≤ m.lead o := le_leadGo _ _ _
  have hhigh : m.lead o ≤ o / 32 * 32 + o % 32 := leadGo_le _ _ _
  have hdiv : m.lead o / 32 = o / 32 := by omega
  have hmod : m.lead o % 32 = m.lead o - o / 32 * 32 := by omega
  rw [Mod.lead, hdiv, hmod]
  exact leadGo_leadGo _ _ _

theorem lead_congr {m n : Mod} (h : n.field = m.field) (o : Nat) : n.lead o = m.lead o := by
  simp only [Mod.lead, h]

theorem group_congr {m n : Mod} (h : n.field = m.field) (o : Nat) : n.group o = m.group o := by
  simp only [Mod.group, lead_congr h]

/-- The object that holds an output's state is the output's own. -/
theorem okey_doState_inj {a b : Nat} (h : okey 0 (0x3400 + a) 1 = okey 0 (0x3400 + b) 1) : a = b := by
  simp only [okey] at h
  omega

/-! ### One group's turn -/

/-- Whether the members of the group that `l` leads differ in their bits of a pattern. -/
def Mod.groupDiffers (m : Mod) (p l : Nat) : Bool := (m.group l).any fun o => decide (tb p o ≠ tb p l)

/-- One group's turn in a pattern: its lead's bit is written, and members that differ are counted. -/
def Mod.patternTurn (p who : Nat) (m : Mod) (l : Nat) : Mod :=
  if m.groupDiffers p l then (m.setDo who l (b2n (tb p l))).bump 0x4010 3 else m.setDo who l (b2n (tb p l))

theorem patternTurn_field (m : Mod) (p who l : Nat) : (m.patternTurn p who l).field = m.field := by
  unfold Mod.patternTurn
  split <;> rfl

theorem patternTurn_objs (m : Mod) (p who l : Nat) (h : m.lead l = l) :
    (m.patternTurn p who l).objs = stPut m.objs (okey 0 (0x3400 + l) 1) (b2n (tb p l)) := by
  have hwrite : (m.setDo who l (b2n (tb p l))).objs = stPut m.objs (okey 0 (0x3400 + l) 1) (b2n (tb p l)) := by
    simp only [Mod.setDo, h]
    rfl
  unfold Mod.patternTurn
  split <;> exact hwrite

theorem patternTurn_cfg_same (m : Mod) (p who l : Nat) (h : m.lead l = l) :
    (m.patternTurn p who l).cfg (0x3400 + l) 1 = b2n (tb p l) := by
  rw [Mod.cfg, patternTurn_objs m p who l h, stGet_stPut]

theorem patternTurn_cfg_ne (m : Mod) (p who l idx sub : Nat) (h : m.lead l = l)
    (hk : okey 0 (0x3400 + l) 1 ≠ okey 0 idx sub) : (m.patternTurn p who l).cfg idx sub = m.cfg idx sub := by
  rw [Mod.cfg, patternTurn_objs m p who l h, stGet_stPut_ne _ _ _ _ hk, Mod.cfg]

theorem counterBits_conflicts : counterBits 0x4010 3 = 32 := by decide +kernel

theorem patternTurn_rov_conflicts (m : Mod) (p who l : Nat) :
    (m.patternTurn p who l).rov 0x4010 3 =
      if m.groupDiffers p l then (m.rov 0x4010 3 + 1) % 2 ^ 32 else m.rov 0x4010 3 := by
  have hwrite : (m.setDo who l (b2n (tb p l))).rov 0x4010 3 = m.rov 0x4010 3 := rfl
  unfold Mod.patternTurn
  split
  · rw [Mod.bump, rov_bumpBy, counterBits_conflicts, hwrite]
  · exact hwrite

theorem patternTurn_rov_ne (m : Mod) (p who l idx sub : Nat) (hk : okey 0 0x4010 3 ≠ okey 0 idx sub) :
    (m.patternTurn p who l).rov idx sub = m.rov idx sub := by
  unfold Mod.patternTurn
  split
  · exact rov_bumpBy_ne _ _ _ _ _ _ hk
  · rfl

/-! ### The turns of several groups -/

theorem patternTurn_lead (m : Mod) (p who l o : Nat) : (m.patternTurn p who l).lead o = m.lead o :=
  lead_congr (patternTurn_field m p who l) o

theorem patternTurn_groupDiffers (m : Mod) (p who l : Nat) :
    (m.patternTurn p who l).groupDiffers p = m.groupDiffers p := by
  funext o
  rw [Mod.groupDiffers, group_congr (patternTurn_field m p who l), Mod.groupDiffers]

theorem turns_cfg_ne (ls : List Nat) (m : Mod) (p who idx sub : Nat) (hlead : ∀ l ∈ ls, m.lead l = l)
    (hk : ∀ l ∈ ls, okey 0 (0x3400 + l) 1 ≠ okey 0 idx sub) :
    (ls.foldl (Mod.patternTurn p who) m).cfg idx sub = m.cfg idx sub := by
  induction ls generalizing m with
  | nil => rfl
  | cons l ls ih =>
    obtain ⟨hl, hls⟩ := List.forall_mem_cons.mp hlead
    obtain ⟨hkl, hkls⟩ := List.forall_mem_cons.mp hk
    rw [List.foldl_cons, ih _ (by simpa only [patternTurn_lead] using hls) hkls,
      patternTurn_cfg_ne m p who l idx sub hl hkl]

/-- Every group that had its turn stands at its lead's bit: no later turn writes that lead's object with anything else. -/
theorem turns_cfg_mem (ls : List Nat) (m : Mod) (p who l : Nat) (hlead : ∀ x ∈ ls, m.lead x = x) (hl : l ∈ ls) :
    (ls.foldl (Mod.patternTurn p who) m).cfg (0x3400 + l) 1 = b2n (tb p l) := by
  induction ls generalizing m with
  | nil => simp at hl
  | cons x ls ih =>
    obtain ⟨hx, hls⟩ := List.forall_mem_cons.mp hlead
    have hls' : ∀ y ∈ ls, (m.patternTurn p who x).lead y = y := by simpa only [patternTurn_lead] using hls
    by_cases hmem : l ∈ ls
    · exact ih _ hls' hmem
    · obtain rfl : l = x := (List.mem_cons.mp hl).resolve_right hmem
      rw [List.foldl_cons, turns_cfg_ne ls _ p who _ _ hls' ?_, patternTurn_cfg_same m p who l hx]
      rintro y hy hk
      exact hmem (okey_doState_inj hk ▸ hy)

theorem turns_rov_conflicts (ls : List Nat) (m : Mod) (p who : Nat) (hfits : m.rov 0x4010 3 < 2 ^ 32) :
    (ls.foldl (Mod.patternTurn p who) m).rov 0x4010 3 =
      (m.rov 0x4010 3 + (ls.filter (m.groupDiffers p)).length) % 2 ^ 32 := by
  induction ls generalizing m with
  | nil => exact (Nat.mod_eq_of_lt hfits).symm
  | cons l ls ih =>
    have hcount := patternTurn_rov_conflicts m p who l
    have hfits' : (m.patternTurn p who l).rov 0x4010 3 < 2 ^ 32 := by
      rw [hcount]
      split <;> omega
    rw [List.foldl_cons, ih _ hfits', patternTurn_groupDiffers, hcount, List.filter_cons]
    split
    · rw [List.length_cons]
      omega
    · rfl

theorem turns_rov_ne (ls : List Nat) (m : Mod) (p who idx sub : Nat) (hk : okey 0 0x4010 3 ≠ okey 0 idx sub) :
    (ls.foldl (Mod.patternTurn p who) m).rov idx sub = m.rov idx sub := by
  induction ls generalizing m with
  | nil => rfl
  | cons l ls ih => rw [List.foldl_cons, ih, patternTurn_rov_ne m p who l idx sub hk]

/-! ### A whole pattern -/

/-- The leads of the groups that a pattern masks, each once. -/
def Mod.maskedLeads (m : Mod) (p : Nat) : List Nat := ((onBits 192 (patternMask p)).map m.lead).eraseDups

theorem mem_onBits {n w o : Nat} : o ∈ onBits n w ↔ o < n ∧ tb w o = true := by
  unfold onBits
  split
  · simp_all [tb]
  · simp

theorem mem_maskedLeads {m : Mod} {p l : Nat} :
    l ∈ m.maskedLeads p ↔ ∃ o, (o < 192 ∧ tb (patternMask p) o = true) ∧ m.lead o = l := by
  rw [Mod.maskedLeads, List.mem_eraseDups, List.mem_map]
  simp only [mem_onBits]

theorem lead_of_mem_maskedLeads (m : Mod) (p : Nat) : ∀ l ∈ m.maskedLeads p, m.lead l = l := by
  intro l hl
  obtain ⟨o, -, rfl⟩ := mem_maskedLeads.mp hl
  exact lead_lead m o

/-- What O26 says of a pattern, for a conflict count that fits its 32 bits, as every count that the module raises does
(R416). -/
theorem applyPattern_of_countFits (m : Mod) (b : Bank) (who pat : Nat) (hpat : pat ≠ 0xFFFF)
    (hfits : m.rov 0x4010 3 < 2 ^ 32) :
    let p := lookD b.patterns pat 0
    (∀ o, o < 192 → tb (patternMask p) o = true →
      (m.applyPattern b who pat).cfg (0x3400 + m.lead o) 1 = b2n (tb p (m.lead o))) ∧
    (∀ idx sub, (∀ o, o < 192 → tb (patternMask p) o = true → okey 0 idx sub ≠ okey 0 (0x3400 + m.lead o) 1) →
      (m.applyPattern b who pat).cfg idx sub = m.cfg idx sub) ∧
    (m.applyPattern b who pat).rov 0x4010 3 =
      (m.rov 0x4010 3 + ((m.maskedLeads p).filter (m.groupDiffers p)).length) % 2 ^ 32 ∧
    (∀ idx sub, okey 0 idx sub ≠ okey 0 0x4010 3 → (m.applyPattern b who pat).rov idx sub = m.rov idx sub) := by
  intro p
  have hlead := lead_of_mem_maskedLeads m p
  have hturns : m.applyPattern b who pat = (m.maskedLeads p).foldl (Mod.patternTurn p who) m := if_neg hpat
  rw [hturns]
  refine ⟨fun o ho hmask => ?_, fun idx sub hk => ?_, ?_, fun idx sub hk => ?_⟩
  · exact turns_cfg_mem _ m p who _ hlead (mem_maskedLeads.mpr ⟨o, ⟨ho, hmask⟩, rfl⟩)
  · refine turns_cfg_ne _ m p who idx sub hlead fun l hl => ?_
    obtain ⟨o, ⟨ho, hmask⟩, rfl⟩ := mem_maskedLeads.mp hl
    exact (hk o ho hmask).symm
  · exact turns_rov_conflicts _ m p who hfits
  · exact turns_rov_ne _ m p who idx sub hk.symm

/-! ### The statement -/

/-- A module whose conflict count holds 2^32, which 32 bits do not hold. -/
def overfullCount : Mod := ({} : Mod).setRo 0x4010 3 (2 ^ 32)
/-- A bank whose pattern 4 masks output 1 alone and sets it. -/
def oneOutputBank : Bank := { patterns := [(4, 2 + 2 * 2 ^ 192)] }

/-- A pattern without a conflict leaves the count as it stands. -/
theorem overfullCount_kept : (overfullCount.applyPattern oneOutputBank 0 4).rov 0x4010 3 = 2 ^ 32 := by decide +kernel

/-- Refutes O26: the statement takes the conflict count modulo 2^32 even where no group's bits differ, but a pattern
without a conflict writes no count. A count that does not fit its 32 bits, which the statement does not shut out, then
stays above 2^32 - 1, and no sum modulo 2^32 equals it. For every count that fits, all that the statement says holds:
`applyPattern_of_countFits`. -/
theorem not_patternsApply : ¬ Obligations.PatternsApply := by
  intro h
  obtain ⟨-, -, hcount, -⟩ := h overfullCount oneOutputBank 0 4 (by decide)
  rw [overfullCount_kept] at hcount
  exact (Nat.ne_of_lt (Nat.mod_lt _ (Nat.two_pow_pos 32))).symm hcount

end Sys2Proof.Machine
end

section
/-! PROOFS. A background check judged (R178, R179): what marking a converter's fault and recording it leave of the
converters, the three ends of a check that is due, and the statement. -/

namespace Sys2Proof.Machine

/-! ### Changes beside the converters -/

/-- A change that touches no partner's object, no track, no converter and no object at a converter's index. -/
structure Mod.KeepsConverters (m n : Mod) : Prop where
  objs : n.objs = m.objs
  tracks : n.tracks = m.tracks
  convs : n.convs = m.convs
  rov : ∀ c sub, c < 64 → n.rov (0x3100 + c) sub = m.rov (0x3100 + c) sub

theorem Mod.KeepsConverters.refl (m : Mod) : m.KeepsConverters m := ⟨rfl, rfl, rfl, fun _ _ _ => rfl⟩

theorem Mod.KeepsConverters.trans {m n k : Mod} (h : m.KeepsConverters n) (g : n.KeepsConverters k) :
    m.KeepsConverters k :=
  ⟨g.objs.trans h.objs, g.tracks.trans h.tracks, g.convs.trans h.convs,
    fun c sub hc => (g.rov c sub hc).trans (h.rov c sub hc)⟩

theorem Mod.KeepsConverters.conv {m n : Mod} (h : m.KeepsConverters n) (c : Nat) : n.conv c = m.conv c :=
  congrArg (fun l : SMap ConvSt => lookD l c {}) h.convs

/-- The indices of the converters' objects are 0x3100 to 0x313F. -/
theorem setRo_keepsConverters (m : Mod) (idx sub v : Nat) (h : idx < 0x3100 ∨ 0x3140 ≤ idx) :
    m.KeepsConverters (m.setRo idx sub v) :=
  ⟨rfl, rfl, rfl, fun c r hc => rov_setRo_ne m idx sub v _ r (by simp only [okey]; omega)⟩

/-- The inputs' objects end where those of the converters begin. -/
theorem flagInput_keepsConverters (m : Mod) (x bit : Nat) (b : Bool) (hx : x < 256) :
    m.KeepsConverters (m.flagInput x bit b) :=
  (setRo_keepsConverters m (0x3000 + x) 8 _ (by omega)).trans (setRo_keepsConverters _ (0x3000 + x) 8 _ (by omega))

theorem overAll_keepsConverters {β : Type} (f : Mod → β → Mod) (l : List β) (m : Mod)
    (h : ∀ n : Mod, ∀ x ∈ l, n.KeepsConverters (f n x)) : m.KeepsConverters (overAll l f m) := by
  induction l generalizing m with
  | nil => exact .refl m
  | cons x l ih =>
    obtain ⟨hx, hl⟩ := forall_and.mp fun n => List.forall_mem_cons.mp (h n)
    exact (hx m).trans (ih _ hl)

theorem suppress_keepsConverters (m : Mod) (code : Nat) : m.KeepsConverters (m.suppress code) :=
  ⟨rfl, rfl, rfl, fun _ _ _ => rfl⟩

theorem enqueueDue_keepsConverters (m : Mod) (d : GalDue) : m.KeepsConverters (m.enqueueDue d) := by
  unfold Mod.enqueueDue
  dsimp only []
  split <;> exact ⟨rfl, rfl, rfl, fun _ _ _ => rfl⟩

/-- A record in the gallery is counted as lost, suppressed or put into the chain (R379 to R381). -/
theorem logGal_keepsConverters (m : Mod) (code source : Nat) (words : List Nat) :
    m.KeepsConverters (m.logGal code source words) := by
  unfold Mod.logGal Mod.logRecord
  split
  · exact setRo_keepsConverters m 0x1500 7 _ (by omega)
  · split
    · exact suppress_keepsConverters m _
    · exact enqueueDue_keepsConverters m _

/-! ### The fault flags of a converter (R179) -/

/-- The fault flag of a converter and of each of its four inputs set or cleared. -/
def Mod.markFault (m : Mod) (c : Nat) (b : Bool) : Mod :=
  overAll [0, 1, 2, 3] (fun m i => m.flagInput (4 * c + i) 6 b) (m.setRoBit (0x3100 + c) 7 0 b)

theorem markFault_keepsConverters (m : Mod) (c : Nat) (b : Bool) (hc : c < 64) :
    (m.setRoBit (0x3100 + c) 7 0 b).KeepsConverters (m.markFault c b) := by
  refine overAll_keepsConverters _ _ _ fun n i hi => flagInput_keepsConverters n _ 6 b ?_
  have hfour : i < 4 := by revert i; decide
  omega

theorem markFault_flag (m : Mod) (c : Nat) (b : Bool) (hc : c < 64) :
    tb ((m.markFault c b).rov (0x3100 + c) 7) 0 = b := by
  rw [(markFault_keepsConverters m c b hc).rov c 7 hc, Mod.setRoBit, rov_setRo, tb_setBit_same]

/-! ### A check that is due (R177, R178) -/

/-- Whether the background check of a converter is due. -/
def Mod.checkDue (m : Mod) (c : Nat) : Bool :=
  decide (c < 64) && decide (10 * (c % 8) ≤ m.tread % 100 ∧ m.tread % 100 ≤ 10 * (c % 8) + 9) &&
    decide ((m.conv c).checked ≠ some (m.tread / 100)) && decide ((m.conv c).abandoned ≠ some m.tread) &&
    !m.dacManual (c / 8) && m.tileAwake c && !m.convCal c

/-- The deviation of a check's result from the level of the tile's DAC. -/
def Mod.checkDev (m : Mod) (c : Nat) (q : Int) : Dy := ((Dy.ofInt (10 * q)).mul ⟨1, -17⟩).sub (m.dacLevel (c / 8))

/-- Whether a check's result lies within the check limit. -/
def Mod.checkPasses (m : Mod) (c : Nat) (q : Int) : Bool := (m.checkDev c q).abs.le (f32D (m.cfg 0x3190 7))

/-- The run of failures that a check leaves: none once it passes, one more where it fails. -/
def Mod.failsAfter (m : Mod) (c : Nat) (q : Int) : Nat := if m.checkPasses c q then 0 else (m.conv c).fails + 1

/-- A check noted: its flight, the run of failures that it leaves, and its deviation. -/
def Mod.noteCheck (m : Mod) (c : Nat) (q : Int) : Mod :=
  (m.setConv c { m.conv c with checked := some (m.tread / 100), fails := m.failsAfter c q }).setRo (0x3100 + c) 8
    (toF32 (m.checkDev c q))

/-- What a check notes of itself: its deviation and the run of failures, beside the partners' objects and the tracks. -/
structure Mod.CheckNoted (m : Mod) (c : Nat) (q : Int) (n : Mod) : Prop where
  deviation : n.rov (0x3100 + c) 8 = toF32 (m.checkDev c q)
  fails : (n.conv c).fails = m.failsAfter c q
  objs : n.objs = m.objs
  tracks : n.tracks = m.tracks

theorem noteCheck_noted (m : Mod) (c : Nat) (q : Int) : m.CheckNoted c q (m.noteCheck c q) :=
  ⟨rov_setRo _ _ _ _, congrArg ConvSt.fails (conv_setConv m c _), rfl, rfl⟩

theorem Mod.CheckNoted.keep {m n k : Mod} {c : Nat} {q : Int} (h : m.CheckNoted c q n) (g : n.KeepsConverters k)
    (hc : c < 64) : m.CheckNoted c q k :=
  ⟨(g.rov c 8 hc).trans h.deviation, (congrArg ConvSt.fails (g.conv c)).trans h.fails, g.objs.trans h.objs,
    g.tracks.trans h.tracks⟩

/-- The fault flags stand beside what a check notes. -/
theorem Mod.CheckNoted.mark {m n : Mod} {c : Nat} {q : Int} (h : m.CheckNoted c q n) (b : Bool) (hc : c < 64) :
    m.CheckNoted c q (n.markFault c b) :=
  have hbit : m.CheckNoted c q (n.setRoBit (0x3100 + c) 7 0 b) :=
    ⟨(rov_setRo_ne n _ 7 _ _ 8 (by simp only [okey]; omega)).trans h.deviation, h.fails, h.objs, h.tracks⟩
  hbit.keep (markFault_keepsConverters n c b hc) hc

/-- The one equation of a check with a result (R177 to R179). -/
theorem check_some (m : Mod) (c : Nat) (q : Int) :
    m.check c (some q) =
      if !m.checkDue c then m
      else if m.checkPasses c q then (m.noteCheck c q).markFault c false
      else if m.failsAfter c q = 3 then
        ((m.noteCheck c q).markFault c true).logGal 0x030 c [c, toF32 (m.checkDev c q)]
      else m.noteCheck c q := rfl

theorem lt_of_checkDue {m : Mod} {c : Nat} (h : m.checkDue c = true) : c < 64 := by
  simp only [Mod.checkDue, Bool.and_eq_true, decide_eq_true_eq] at h
  obtain ⟨⟨⟨⟨⟨⟨hc, -⟩, -⟩, -⟩, -⟩, -⟩, -⟩ := h
  exact hc

theorem check_pass (m : Mod) (c : Nat) (q : Int) (hdue : m.checkDue c = true) (hp : m.checkPasses c q = true) :
    m.check c (some q) = (m.noteCheck c q).markFault c false := by
  rw [check_some, if_neg (by simp [hdue]), if_pos hp]

/-- The third failure in a row sets the fault flags and is recorded (R179). -/
theorem check_third (m : Mod) (c : Nat) (q : Int) (hdue : m.checkDue c = true) (hp : m.checkPasses c q = false)
    (h : m.failsAfter c q = 3) :
    m.check c (some q) =
      ((m.noteCheck c q).markFault c true).logGal 0x030 c [c, toF32 (m.checkDev c q)] := by
  rw [check_some, if_neg (by simp [hdue]), if_neg (by simp [hp]), if_pos h]

theorem check_fail (m : Mod) (c : Nat) (q : Int) (hdue : m.checkDue c = true) (hp : m.checkPasses c q = false)
    (h : m.failsAfter c q ≠ 3) : m.check c (some q) = m.noteCheck c q := by
  rw [check_some, if_neg (by simp [hdue]), if_neg (by simp [hp]), if_neg h]

/-- Whatever its verdict, a due check notes its deviation and its run of failures. -/
theorem check_noted (m : Mod) (c : Nat) (q : Int) (hdue : m.checkDue c = true) :
    m.CheckNoted c q (m.check c (some q)) := by
  have hc := lt_of_checkDue hdue
  have hnote := noteCheck_noted m c q
  cases hp : m.checkPasses c q with
  | true => exact check_pass m c q hdue hp ▸ hnote.mark false hc
  | false =>
    by_cases h3 : m.failsAfter c q = 3
    · exact check_third m c q hdue hp h3 ▸ (hnote.mark true hc).keep (logGal_keepsConverters _ _ _ _) hc
    · exact check_fail m c q hdue hp h3 ▸ hnote

theorem check_pass_flag (m : Mod) (c : Nat) (q : Int) (hdue : m.checkDue c = true) (hp : m.checkPasses c q = true) :
    tb ((m.check c (some q)).rov (0x3100 + c) 7) 0 = false := by
  rw [check_pass m c q hdue hp, markFault_flag _ c false (lt_of_checkDue hdue)]

theorem check_third_flag (m : Mod) (c : Nat) (q : Int) (hdue : m.checkDue c = true) (hp : m.checkPasses c q = false)
    (h : m.failsAfter c q = 3) : tb ((m.check c (some q)).rov (0x3100 + c) 7) 0 = true := by
  have hc := lt_of_checkDue hdue
  rw [check_third m c q hdue hp h, (logGal_keepsConverters _ _ _ _).rov c 7 hc, markFault_flag _ c true hc]

/-! ### The statement -/

/-- Settles O38: the verdict decides the run of failures and with it the fault flag; the deviation is noted in each case,
and neither the flags of the inputs nor the gallery's record reaches the converter's objects. -/
theorem backgroundChecksJudge : Obligations.BackgroundChecksJudge := by
  intro s c q hrun hc hfrom hto hchecked habandoned hauto hawake hcal dev
  have hdue : s.m.checkDue c = true := by
    simp [Mod.checkDue, hc, hfrom, hto, hchecked, habandoned, hauto, hawake, hcal]
  obtain ⟨hdev, hfails, hobjs, htracks⟩ := check_noted s.m c q hdue
  refine ⟨s.withMod (s.m.check c (some q)), State.inService_run s (·.check c (some q)) hrun, hdev,
    fun hp => ⟨?_, check_pass_flag s.m c q hdue hp⟩, fun hp => ?_, hobjs, htracks⟩
  · exact hfails.trans (if_pos hp)
  · have hmore : s.m.failsAfter c q = (s.m.conv c).fails + 1 := if_neg (Bool.eq_false_iff.mp hp)
    exact ⟨hfails.trans hmore, fun h2 => check_third_flag s.m c q hdue hp (by omega)⟩

end Sys2Proof.Machine
end

section
/-! PROOFS. The factory range (R425): what the dictionary's map says of its indices, what a write comes to of which an
entry fails before it is checked, and the statement. -/

namespace Sys2Proof.Machine

/-! ### The dictionary's map (R409) -/

/-- Every family of the dictionary's map ends below the factory range. -/
theorem families_below_factory : ∀ f ∈ families, f.1 + f.2.1 ≤ 0xF000 := by decide

theorem famOf_factory {idx : Nat} (h : 0xF000 ≤ idx) : famOf idx = none := by
  have hnone : (families.find? fun f => decide (f.1 ≤ idx ∧ idx < f.1 + f.2.1)) = none := by
    rw [List.find?_eq_none]
    intro f hf
    have hend := families_below_factory f hf
    rw [decide_eq_true_eq]
    omega
  simp only [famOf, hnone]

theorem place_of_famOf_none {idx : Nat} (sub : Nat) (h : famOf idx = none) : place idx sub = none := by
  simp only [place, h]

theorem exists_of_famOf_none (prof : Nat) {idx : Nat} (sub : Nat) (h : famOf idx = none) : exists_ prof idx sub = 0x10 := by
  simp only [exists_, h]

/-! ### Entries that name no object (R31) -/

/-- A read fails at the first entry that names no object. -/
theorem readFail_absent (m : Mod) (a pos : Nat) (e : Entry) (l : List Entry) (st : Nat)
    (h : exists_ (m.profOf a) e.idx e.sub = st) (hst : st ≠ 0) : m.readFail a pos (e :: l) = some (st, pos) := by
  simp only [Mod.readFail, h, if_pos hst]

/-- A write fails at the first entry that names no object, and no check of that entry is made. -/
theorem validateFrom_absent (m : Mod) (a ns : Nat) (due : Tread) (all : List Entry) (pos : Nat) (e : Entry)
    (l : List Entry) (st : Nat) (h : exists_ (m.profOf a) e.idx e.sub = st) (hst : st ≠ 0) :
    m.validateFrom a ns due all pos (e :: l) = some (st, pos, none) := by
  have hstatus : m.existStatus a e = st := by simp only [Mod.existStatus, h, if_pos hst]
  simp only [Mod.validateFrom, Mod.validateIn, hstatus, if_pos hst]

/-- A write in its turn whose entry fails before any check of it is refused as a whole, and nothing else happens. -/
theorem partner_unchecked (m : Mod) (h : Hdr) (p : Partner) (l : List Entry) (st pos : Nat) (hin : m.inTurn h p l = true)
    (hv : (m.turned h.assoc p h.seq).validateFrom h.assoc (m.now + h.off) (m.dueOfWrite h.named h.off).2 l 0 l =
      some (st, pos, none)) :
    m.partner h true l = (m.turned h.assoc p h.seq).refuse (txnOf h l) st pos := by
  have harrive : (m.turned h.assoc p h.seq).arriveWrite (txnOf h l) h.off =
      (m.turned h.assoc p h.seq).refuse (txnOf h l) st pos := by
    unfold Mod.arriveWrite
    simp only [txnOf, turned_dueOfWrite, turned_now, hv]
  rw [partner_inTurn m h p l hin, harrive]
  exact drainHeld_of_holdsNone _ _ _ _ (holdsNone_refuse _ _ rfl (holdsNone_of_inTurn m h p l hin))

theorem refuse_absent (m : Mod) (h : Hdr) (l : List Entry) : m.refuse (txnOf h l) 0x10 0 = m.send (absentReply h) := rfl

/-! ### The statement -/

/-- Settles O15: no family reaches the factory range, so each lookup of an entry finds nothing there, and a write in its
turn comes to the refusal alone. -/
theorem factoryRangeIsClosed : Obligations.FactoryRangeIsClosed := by
  intro m a e l pos hidx
  have hfam := famOf_factory hidx
  have habsent : ∀ prof, exists_ prof e.idx e.sub = 0x10 := fun prof => exists_of_famOf_none prof e.sub hfam
  refine ⟨readFail_absent m a pos e l _ (habsent _) (by decide),
    fun ns due all => validateFrom_absent m a ns due all pos e l _ (habsent _) (by decide),
    place_of_famOf_none e.sub hfam, fun s h p hin => ?_⟩
  have hv := validateFrom_absent (s.m.turned h.assoc p h.seq) h.assoc (s.m.now + h.off) (s.m.dueOfWrite h.named h.off).2
    [e] 0 e [] _ (habsent _) (by decide)
  rw [exec_written (.registerWrite h e) s h [e] rfl, partner_unchecked s.m h p [e] _ _ hin hv, refuse_absent]

end Sys2Proof.Machine
end

section
/-! PROOFS. Subindex 0 (R410): what a reading of it gives, the module in whose tread an association is made, and the
statement, which fails for that association. -/

namespace Sys2Proof.Machine

/-! ### A reading of subindex 0 (R410) -/

/-- No family's table has a row for subindex 0. -/
theorem rowOf_zero (f : Fam) : rowOf f 0 = none := by
  cases f <;> rfl

theorem place_zero (idx : Nat) : place idx 0 = none := by
  unfold place
  cases famOf idx with
  | none => rfl
  | some x =>
    have hsub : canSub x.1 0 = 0 := if_neg (by omega)
    simp only [hsub, rowOf_zero]

/-- A reading of subindex 0 takes the reader's profile from the hall as the committed state has it (R26). -/
theorem readAs_zero (m : Mod) (a : Nat) {idx : Nat} {f : Fam} {k : Nat} (h : famOf idx = some (f, k)) :
    m.readAs a idx 0 = (1, highestSub f (m.frozen.profOf a)) := by
  simp only [Mod.readAs, Mod.valueFor, place_zero, h]

/-! ### An association in the tread that makes it (R323, R325) -/

/-- A module in service that has reserved number 1 for a partner of port 0, with profile 3 agreed. -/
def reservedOne : Mod := { life := .run, reserved := [(1, { src := { port := 0 }, major := 3, profile := 3 })] }

/-- The same once the partner's ASSOCIATE has been answered. -/
def associatedOne : Mod := reservedOne.associateNow { port := 0 } { reserved := 1, role := 0 }

/-- The module comes there by the partner's frame. -/
theorem exec_associate_reservedOne :
    exec (.associate { port := 0 } { reserved := 1, role := 0 }) { m := reservedOne, pending := [] } =
      .next { m := associatedOne, pending := [] } := rfl

theorem profOf_associatedOne : associatedOne.profOf 1 = 3 := by decide +kernel

/-- The association enters the hall with the next boundary, so the committed state does not have it yet. -/
theorem profOf_frozen_associatedOne : associatedOne.frozen.profOf 1 = 1 := by decide +kernel

/-! ### The statement -/

/-- The object 0x1200:0D is of profile 2: subindex 0 of the index depends on the reader's profile (R421). -/
theorem highestSub_commit : highestSub .commit 1 = 0xC ∧ highestSub .commit 3 = 0xD := by decide +kernel

/-- Refutes O16: the statement takes the profile from the hall as it stands, a reading from the committed hall. In the
tread of its ASSOCIATE an association with profile 3 stands in the first alone, and 0x1200:00 reads 0x0C for it, not 0x0D. -/
theorem not_subindexZero : ¬ Obligations.SubindexZero := by
  intro h
  have hfam : famOf 0x1200 = some (.commit, 0) := by decide +kernel
  obtain ⟨hread, -, -, -⟩ := h 0x1200 .commit 0 hfam
  obtain ⟨hlow, hhigh⟩ := highestSub_commit
  have heq : highestSub .commit 1 = highestSub .commit 3 := by
    have := hread associatedOne 1
    rw [readAs_zero associatedOne 1 hfam, profOf_frozen_associatedOne, profOf_associatedOne] at this
    exact congrArg Prod.snd this
  omega

end Sys2Proof.Machine
end

section
/-! PROOFS. The block as a whole: what every command answers, what the module is doing after each operation, a module
without supply, the tread of a boundary, the records of the gallery, and the statements about them. -/

namespace Sys2Proof.Machine

/-! ### What a command answers -/

/-- Every command answers the block with another module and the same queue. -/
theorem exec_answers (c : Instr) (s : State) : ∃ m, exec c s = .next (s.withMod m) := by
  cases c
  case faultReset h side k =>
    change ∃ m, (if side = 0 then s.writes _ _ _ _ _ else s.writes _ _ _ _ _) = .next (s.withMod m)
    split <;> exact ⟨_, rfl⟩
  all_goals exact ⟨_, rfl⟩

/-- Settles O1: a step is `exec` of the front command by definition. -/
theorem stepRunsFrontCommand : Obligations.StepRunsFrontCommand := by
  refine ⟨fun _ _ => rfl, fun s hs => ?_⟩
  unfold step
  rw [hs]

/-- Settles O2: every command changes the module alone. -/
theorem noCommandStops : Obligations.NoCommandStops := by
  intro c s
  obtain ⟨m, h⟩ := exec_answers c s
  exact ⟨_, h, rfl⟩

/-- Settles O3: every field of the state right after reset stands as written. -/
theorem resetState : Obligations.ResetState :=
  ⟨rfl, rfl, rfl, rfl, rfl, rfl, rfl, rfl, rfl⟩

/-- Settles O6: a write of a partner does nothing where the module does not serve (R342). -/
theorem outOfServiceSilent : Obligations.OutOfServiceSilent := by
  intro c s h l hw hout
  rw [exec_written c s h l hw, Mod.partner, if_pos (by simp [Mod.serving, hout]), State.withMod_self]

/-! ### What the module is doing after an operation -/

@[simp] theorem logicReset_life (m : Mod) (cause flag : Nat) :
    (m.logicReset cause flag).life = if m.life = .off then .off else .held := by
  unfold Mod.logicReset
  split
  · assumption
  · rfl

@[simp] theorem powerOff_life (m : Mod) : m.powerOff.life = .off := rfl

@[simp] theorem powerOn_life (m : Mod) (bootsel clkmode : Nat) (activeOk pendingOk : Bool) :
    (m.powerOn bootsel clkmode activeOk pendingOk).life = .held := by simp [Mod.powerOn]

theorem evaluation_life (m : Mod) (i : TreadIn) (h : m.life = .run) :
    (m.evaluation i).life = .run ∨ (m.evaluation i).life = .held := by
  unfold Mod.evaluation
  dsimp only []
  split <;> simp [h]

theorem runBoundary_life (m : Mod) (i : TreadIn) (n : Tread) :
    (m.runBoundary i n).life = .run ∨ (m.runBoundary i n).life = .held := by
  unfold Mod.runBoundary
  extract_lets b r first e
  have hr : r.life = .run := by simp [r]
  have he : e.life = .run ∨ e.life = .held := by
    simp only [e]
    split
    · exact .inl hr
    · exact evaluation_life r i hr
  split
  · simpa using he
  · exact he

theorem treadBoundary_life (m : Mod) (i : TreadIn) (h : m.life = .run ∨ m.life = .prepared) :
    (m.treadBoundary i).life = .run ∨ (m.treadBoundary i).life = .held := by
  unfold Mod.treadBoundary
  split
  · split
    · exact .inl ‹_›
    · exact runBoundary_life _ _ _
  · exact runBoundary_life _ _ _
  · simp_all

/-- Boundaries run in service and at the return to it alone. -/
theorem treadBoundary_idle (m : Mod) (i : TreadIn) (hr : m.life ≠ .run) (hp : m.life ≠ .prepared) :
    m.treadBoundary i = m := by
  unfold Mod.treadBoundary
  split <;> simp_all

/-- A module with another time of hold-up reported and PFAIL no longer low (R309). -/
structure Mod.SameButPfail (m n : Mod) : Prop where
  life : n.life = m.life
  field : n.field = m.field
  safety : n.safety = m.safety
  gal : n.gal = m.gal

/-- A brownout that the hold-up bridges ends in a logic reset, the time for which it lasted kept (R309, R386). -/
theorem brownout_bridged (m : Mod) (ns us : Nat) (hlong : 2000 < ns) (hb : tb (m.rov 0x1400 0x2F) 1 = false) :
    ∃ n, m.SameButPfail n ∧ m.brownout ns us = n.logicReset 2 0 := by
  unfold Mod.brownout
  rw [if_neg (by omega), if_neg (by simp [hb])]
  dsimp only []
  refine ⟨_, ?_, rfl⟩
  split <;> exact ⟨rfl, rfl, rfl, rfl⟩

theorem brownout_unbridged (m : Mod) (ns us : Nat) (hlong : 2000 < ns) (hb : tb (m.rov 0x1400 0x2F) 1 = true) :
    m.brownout ns us = m.powerOff := by
  unfold Mod.brownout
  rw [if_neg (by omega), if_pos hb]

theorem brownout_short (m : Mod) (ns us : Nat) (h : ns ≤ 2000) : m.brownout ns us = m := if_pos h

/-- The three ends of a brownout: too short to count, a loss of power, a logic reset. -/
theorem brownout_cases (m : Mod) (ns us : Nat) :
    m.brownout ns us = m ∨ m.brownout ns us = m.powerOff ∨
      ∃ n, m.SameButPfail n ∧ m.brownout ns us = n.logicReset 2 0 := by
  by_cases hlong : 2000 < ns
  · cases hb : tb (m.rov 0x1400 0x2F) 1 with
    | true => exact .inr (.inl (brownout_unbridged m ns us hlong hb))
    | false => exact .inr (.inr (brownout_bridged m ns us hlong hb))
  · exact .inl (brownout_short m ns us (by omega))

theorem brownout_life (m : Mod) (ns us : Nat) :
    (m.brownout ns us).life = m.life ∨ (m.brownout ns us).life = .off ∨ m.life ≠ .off ∧ (m.brownout ns us).life = .held := by
  obtain h | h | ⟨n, hn, h⟩ := brownout_cases m ns us <;> rw [h]
  · exact .inl rfl
  · exact .inr (.inl rfl)
  · rw [logicReset_life, hn.life]
    split
    · exact .inr (.inl rfl)
    · exact .inr (.inr ⟨‹_›, rfl⟩)

theorem resetPin_life (m : Mod) (n : Nat) :
    (m.resetPin n).life = m.life ∨ m.life ≠ .off ∧ (m.resetPin n).life = .held := by
  unfold Mod.resetPin
  by_cases h : m.life = .off <;> split <;> simp [h]

theorem watchdog_life (m : Mod) (n : Nat) (h : m.life = .run) :
    (m.watchdog n).life = .run ∨ (m.watchdog n).life = .held := by
  unfold Mod.watchdog
  split <;> simp [h]

theorem requestedHold_life (m : Mod) (h : m.life = .run) :
    m.requestedHold.life = .run ∨ m.requestedHold.life = .held := by
  unfold Mod.requestedHold
  split
  · split
    · exact .inl h
    · dsimp only []
      split <;> simp [h]
  · exact .inl h

theorem pairLoss_life (m : Mod) (pair more : Nat) :
    (m.pairLoss pair more).life = m.life ∨ m.life = .run ∧ (m.pairLoss pair more).life = .held := by
  unfold Mod.pairLoss Mod.lateMiss
  dsimp only []
  repeat' split
  all_goals simp_all

/-- A loss of lock changes what the module is doing to a reset at most, and not in standby (R398). -/
theorem pllLoss_life (m : Mod) (d more : Nat) :
    (m.pllLoss d more).life = m.life ∨ (m.pllLoss d more).life = .held := by
  unfold Mod.pllLoss
  split
  · exact (pairLoss_life m 0 more).imp_right (·.2)
  · exact (pairLoss_life m 1 more).imp_right (·.2)
  · exact .inl rfl
  · exact .inl rfl
  · by_cases h : m.life = .off <;> split <;> simp [h]

theorem bringUp_life (m : Mod) (b : BringUp) : (m.bringUp b).life = .ready := rfl

theorem resetRelease_life (m : Mod) (b : BringUp) :
    (m.resetRelease b).life = m.life ∨ m.life = .held ∧ (m.resetRelease b).life = .ready := by
  unfold Mod.resetRelease
  split
  · exact .inl rfl
  · have h : m.life = .held := by simp_all
    dsimp only []
    split <;> simp [bringUp_life, h]

theorem firmwareP3_life (m : Mod) (signed : Bool) (b : BringUp) :
    (m.firmwareP3 signed b).life = m.life ∨ m.life = .held ∧ (m.firmwareP3 signed b).life = .ready := by
  unfold Mod.firmwareP3
  split
  · exact .inr ⟨by simp_all, rfl⟩
  · exact .inl rfl

theorem prepare_life (m : Mod) :
    m.prepare.life = if m.life = .ready then .prepared else m.life := by
  unfold Mod.prepare
  split
  · rfl
  · dsimp only []
    split <;> simp_all

theorem wakeBy_life (m : Mod) (cause detail : Nat) :
    (m.wakeBy cause detail).life = m.life ∨ m.life = .standby ∧ (m.wakeBy cause detail).life = .waking := by
  unfold Mod.wakeBy
  dsimp only []
  repeat' split
  all_goals simp_all

theorem standbyEntry_life (m : Mod) :
    m.standbyEntry.life = m.life ∨ m.life = .run ∧ (m.standbyEntry.life = .standby ∨ m.standbyEntry.life = .waking) := by
  unfold Mod.standbyEntry
  split
  · exact .inl rfl
  · have h : m.life = .run := by simp_all
    refine .inr ⟨h, ?_⟩
    dsimp only []
    split
    · obtain h | ⟨-, h⟩ := wakeBy_life _ _ _ <;> rw [h] <;> simp
    · exact .inl rfl

theorem wakeComplete_life (m : Mod) (now : Tread) :
    (m.wakeComplete now).life = if m.life = .waking then .prepared else m.life := by
  unfold Mod.wakeComplete
  split
  · rfl
  · simp_all


/-- The fabric runs only where the module is in service, coming back to it, or held for an image over P3 (R293, R294). -/
theorem life_of_switching {m : Mod} (h : m.switching = true) :
    m.life = .run ∨ m.life = .ready ∨ m.life = .prepared ∨ m.life = .held := by
  simp only [Mod.switching, Mod.started, Bool.or_eq_true, Bool.and_eq_true, decide_eq_true_eq] at h
  obtain (hrun | hready | hprepared) | ⟨hheld, -⟩ := h
  · exact .inl hrun
  · exact .inr (.inl hready)
  · exact .inr (.inr (.inl hprepared))
  · exact .inr (.inr (.inr hheld))

/-- Settles O5: the resets, the way back to service and the power states change what the module is doing as their own
operations say; every other command leaves it as it is. -/
theorem lifeTransitions : Obligations.LifeTransitions := by
  intro c s t h
  cases c
  case treadBoundary i =>
    obtain rfl := Host.Outcome.next.inj h
    have hb := treadBoundary_life s.m i
    have hi := treadBoundary_idle s.m i
    cases hl : s.m.life <;> simp_all [lifeAfter]
  case powerOnReset => obtain rfl := Host.Outcome.next.inj h; simp [lifeAfter]
  case brownout ns us =>
    obtain rfl := Host.Outcome.next.inj h
    obtain hb | hb | ⟨hon, hb⟩ := brownout_life s.m ns us <;> by_cases hl : s.m.life = .off
    all_goals simp_all [lifeAfter]
  case resetN n =>
    obtain rfl := Host.Outcome.next.inj h
    have := resetPin_life s.m n
    by_cases hl : s.m.life = .off <;> simp_all [lifeAfter]
  case fabricWatchdog n =>
    obtain rfl := Host.Outcome.next.inj h
    have := watchdog_life s.m n
    cases hl : s.m.life <;> simp_all [lifeAfter, Mod.serving]
  case requestedResetHold =>
    obtain rfl := Host.Outcome.next.inj h
    have := requestedHold_life s.m
    cases hl : s.m.life <;> simp_all [lifeAfter, Mod.serving]
  case pllLockLoss d more =>
    obtain rfl := Host.Outcome.next.inj h
    have hp := pllLoss_life s.m d more
    have hs := life_of_switching (m := s.m)
    by_cases hsw : s.m.switching = true
    · cases hl : s.m.life <;> simp_all [lifeAfter]
    · cases hl : s.m.life <;> simp_all [lifeAfter]
  case resetRelease b =>
    obtain rfl := Host.Outcome.next.inj h
    have := resetRelease_life s.m b
    cases hl : s.m.life <;> simp_all [lifeAfter]
  case firmwareOverP3 signed b =>
    obtain rfl := Host.Outcome.next.inj h
    have := firmwareP3_life s.m signed b
    cases hl : s.m.life <;> simp_all [lifeAfter]
  case preparationTread =>
    obtain rfl := Host.Outcome.next.inj h
    have := prepare_life s.m
    cases hl : s.m.life <;> simp_all [lifeAfter]
  case standbyEntry =>
    obtain rfl := Host.Outcome.next.inj h
    have := standbyEntry_life s.m.fillSnaps
    cases hl : s.m.life <;> simp_all [lifeAfter, Mod.serving]
  case wakeLinkFrame | wakeDiEdge | wakeTimed =>
    obtain rfl := Host.Outcome.next.inj h
    have := wakeBy_life s.m
    cases hl : s.m.life <;> simp_all [lifeAfter] <;> split <;> simp_all
  case wakeComplete now =>
    obtain rfl := Host.Outcome.next.inj h
    have := wakeComplete_life s.m now
    cases hl : s.m.life <;> simp_all [lifeAfter]
  case holdUpExhausted => obtain rfl := Host.Outcome.next.inj h; simp [lifeAfter]
  case faultReset g side k =>
    change (if side = 0 then _ else _) = _ at h
    split at h <;> (obtain rfl := Host.Outcome.next.inj h; simp [lifeAfter])
  all_goals
    obtain rfl := Host.Outcome.next.inj h
    simp [lifeAfter]


/-! ### A module without supply (R205, R307, R343) -/

theorem unsupplied_congr {m n : Mod} (hf : n.field = m.field) (hs : n.safety = m.safety) : n.unsupplied = m.unsupplied := by
  simp only [Mod.unsupplied, hf, hs]

theorem powerOff_unsupplied (m : Mod) : m.powerOff.unsupplied = true := rfl

theorem powered_of_unsupplied {m : Mod} (h : m.unsupplied = true) : m.field.powered = false := by
  simp only [Mod.unsupplied, Bool.and_eq_true, Bool.not_eq_true'] at h
  obtain ⟨⟨⟨h, -⟩, -⟩, -⟩ := h
  exact h

/-- A module that is off takes no reset. -/
theorem logicReset_off (m : Mod) (cause flag : Nat) (h : m.life = .off) : m.logicReset cause flag = m := if_pos h

/-- A brownout that leaves the module off has taken its power or found it without. -/
theorem brownout_unsupplied (m : Mod) (ns us : Nat) (h : m.life = .off → m.unsupplied = true)
    (hoff : (m.brownout ns us).life = .off) : (m.brownout ns us).unsupplied = true := by
  obtain e | e | ⟨n, hn, e⟩ := brownout_cases m ns us <;> rw [e] at hoff ⊢
  · exact h hoff
  · exact powerOff_unsupplied m
  · have hl : n.life = .off := by simpa using hoff
    rw [logicReset_off _ _ _ hl, unsupplied_congr hn.field hn.safety]
    exact h (hn.life ▸ hl)

/-! ### A module that is off -/

theorem takeFrame_out (m : Mod) (kind : Nat) (f : Frame) (h : m.serving = false) : m.takeFrame kind f = (m, none) := by
  simp [Mod.takeFrame, h]

theorem ask_out (m : Mod) (x : Ask) (h : m.serving = false) : m.ask x = m := by
  simp [Mod.ask, h]

theorem declareLost_out (m : Mod) (a : Nat) (off : Offset) (h : m.serving = false) : m.declareLost a off = m := by
  unfold Mod.declareLost
  split <;> simp [h]

theorem wakeBy_off (m : Mod) (cause detail : Nat) (h : m.life = .off) : m.wakeBy cause detail = m := by
  simp [Mod.wakeBy, h]

theorem next_same {s : State} {m : Mod} (h : m = s.m) : (.next (s.withMod m) : Res) = .next s := by
  rw [h, State.withMod_self]

/-- A module that is off and drives nothing stays as it is: no command but a power-on reset, a brownout or a loss of the
hold-up changes anything of it. -/
theorem exec_off (c : Instr) (s : State) (hoff : s.m.life = .off) (hf : s.m.field.powered = false) :
    exec c s = .next s ∨ (∃ straps stored, c = .powerOnReset straps stored) ∨ (∃ ns us, c = .brownout ns us) ∨
      c = .holdUpExhausted := by
  have hserve : s.m.serving = false := by simp [Mod.serving, hoff]
  have hswitch : s.m.switching = false := by simp [Mod.switching, Mod.started, hoff]
  cases hw : written c with
  | some x => exact .inl (outOfServiceSilent c s x.1 x.2 hw (by simp [hoff]))
  | none =>
    cases c
    case powerOnReset => exact .inr (.inl ⟨_, _, rfl⟩)
    case brownout => exact .inr (.inr (.inl ⟨_, _, rfl⟩))
    case holdUpExhausted => exact .inr (.inr (.inr rfl))
    case treadBoundary i => exact .inl (next_same (treadBoundary_idle s.m i (by simp [hoff]) (by simp [hoff])))
    case transact f => exact .inl (next_same (by simp [Mod.transact, takeFrame_out _ _ _ hserve]))
    case image f => exact .inl (next_same (by simp [Mod.imageFrame, takeFrame_out _ _ _ hserve]))
    case heartbeat f => exact .inl (next_same (by simp [Mod.heartbeatFrame, takeFrame_out _ _ _ hserve]))
    case bye f => exact .inl (next_same (by simp [Mod.byeFrame, takeFrame_out _ _ _ hserve]))
    case hello | negotiate | associate => exact .inl (next_same (ask_out _ _ hserve))
    case associationLost => exact .inl (next_same (declareLost_out _ _ _ hserve))
    case wakeLinkFrame | wakeDiEdge | wakeTimed => exact .inl (next_same (by simp [wakeBy_off _ _ _ hoff]))
    case resetN => exact .inl (next_same (by simp [Mod.resetPin, logicReset_off _ _ _ hoff]))
    case switchFrame => exact .inl (next_same (by simp [Mod.switchFrame, hswitch]))
    case arpRequest => exact .inl (next_same (by simp [Mod.arp, hserve]))
    case flightBoundary => exact .inl (next_same (by simp [Mod.flight, hserve]))
    case resetRelease => exact .inl (next_same (by simp [Mod.resetRelease, hoff]))
    case firmwareOverP3 => exact .inl (next_same (by simp [Mod.firmwareP3, hoff]))
    case preparationTread => exact .inl (next_same (by simp [Mod.prepare, hoff]))
    case wakeComplete => exact .inl (next_same (by simp [Mod.wakeComplete, hoff]))
    case faultReset h side k =>
      refine .inl (?_ : (if side = 0 then _ else _) = _)
      split <;> exact next_same (by simp [Mod.writeObject, Mod.write1, Mod.partner, hserve])
    case start | abort | forceAbort | pause | continueTrack | clear =>
      exact .inl (next_same (by simp [Mod.trackCommand, Mod.writeObject, Mod.write1, Mod.partner, hserve]))
    all_goals exact .inl (next_same (by simp [hserve, hswitch, hoff, hf, Mod.writeObject, Mod.write1, Mod.partner]))

/-! ### The invariant -/

theorem inv_iff (s : State) : s.inv = true ↔ (s.m.life = .off → s.m.unsupplied = true) := by
  unfold State.inv
  split <;> simp_all

/-- Only a loss of the hold-up and a brownout take a module's supply. -/
theorem off_mem_lifeAfter {c : Instr} {l : Life} (h : .off ∈ lifeAfter c l) (hl : l ≠ .off) :
    c = .holdUpExhausted ∨ ∃ ns us, c = .brownout ns us := by
  unfold lifeAfter at h
  split at h <;> simp_all [eq_comm]

/-- A command keeps a module without supply from driving anything. -/
theorem exec_inv (c : Instr) (s t : State) (hs : s.inv = true) (h : exec c s = .next t) : t.inv = true := by
  rw [inv_iff] at hs ⊢
  intro ht
  have hcommands : exec c s = .next s ∨ c = .holdUpExhausted ∨ ∃ ns us, c = .brownout ns us := by
    by_cases hoff : s.m.life = .off
    · obtain h0 | ⟨straps, stored, rfl⟩ | h0 | h0 := exec_off c s hoff (powered_of_unsupplied (hs hoff))
      · exact .inl h0
      · obtain rfl := Host.Outcome.next.inj h
        simp at ht
      · exact .inr (.inr h0)
      · exact .inr (.inl h0)
    · exact .inr (off_mem_lifeAfter (ht ▸ lifeTransitions c s t h) hoff)
  obtain h0 | rfl | ⟨ns, us, rfl⟩ := hcommands
  · obtain rfl := Host.Outcome.next.inj (h0.symm.trans h)
    exact hs ht
  · obtain rfl := Host.Outcome.next.inj h
    exact powerOff_unsupplied s.m
  · obtain rfl := Host.Outcome.next.inj h
    exact brownout_unsupplied s.m ns us hs ht

/-- Settles O4: a step is a command or nothing, and what leaves a module off either takes its supply or finds it without. -/
theorem unsuppliedDrivesNothing : Obligations.UnsuppliedDrivesNothing := by
  intro s t hs h
  unfold step at h
  split at h
  case h_1 =>
    obtain rfl := Host.Outcome.next.inj h
    exact hs
  case h_2 c rest _ => exact exec_inv c { s with pending := rest } t hs h

/-! ### The tread of an operation -/

@[simp] theorem logicReset_tread (m : Mod) (cause flag : Nat) : (m.logicReset cause flag).tread = m.tread := by
  unfold Mod.logicReset
  split
  · rfl
  · simp

@[simp] theorem evaluation_tread (m : Mod) (i : TreadIn) : (m.evaluation i).tread = m.tread := by
  simp [Mod.evaluation]

@[simp] theorem stepTo_tread (m : Mod) (n : Tread) : (m.stepTo n).tread = n := by
  simp [Mod.stepTo]

@[simp] theorem boundary_tread (m : Mod) (i : TreadIn) (n : Tread) : (m.boundary i n).tread = n := by
  simp [Mod.boundary]

@[simp] theorem runBoundary_tread (m : Mod) (i : TreadIn) (n : Tread) : (m.runBoundary i n).tread = n := by
  simp [Mod.runBoundary]

/-- Settles O7: a boundary takes the number it is given, and neither what commits at it nor the evaluation after it changes
the number; the module serves from it on unless the comparators reset it at once. -/
theorem treadAdvances : Obligations.TreadAdvances := by
  refine fun s i => ⟨fun hrun hstay => ⟨_, rfl, ?_, rfl⟩, fun hprep => ⟨_, rfl, ?_, rfl, ?_⟩⟩
  · change (s.m.treadBoundary i).tread = _
    simp [Mod.treadBoundary, hrun, hstay]
  · change (s.m.treadBoundary i).tread = _
    simp [Mod.treadBoundary, hprep]
  · exact (treadBoundary_life s.m i (.inr hprep))

/-! ### The records of the gallery after an operation -/

@[simp] theorem trigPass_recs (m : Mod) : m.trigPass.gal.recs = m.gal.recs := by simp [Mod.trigPass]
@[simp] theorem closeTread_recs (m : Mod) : m.closeTread.gal.recs = m.gal.recs := by simp [Mod.closeTread]
@[simp] theorem powerOff_recs (m : Mod) : m.powerOff.gal.recs = m.gal.recs := by simp [Mod.powerOff]
@[simp] theorem logicReset_recs (m : Mod) (cause flag : Nat) : (m.logicReset cause flag).gal.recs = m.gal.recs := by
  simp [Mod.logicReset]
@[simp] theorem resetPin_recs (m : Mod) (n : Nat) : (m.resetPin n).gal.recs = m.gal.recs := by simp [Mod.resetPin]
@[simp] theorem watchdog_recs (m : Mod) (n : Nat) : (m.watchdog n).gal.recs = m.gal.recs := by simp [Mod.watchdog]
@[simp] theorem requestedHold_recs (m : Mod) : m.requestedHold.gal.recs = m.gal.recs := by
  unfold Mod.requestedHold
  split
  · split <;> simp
  · rfl
@[simp] theorem powerOn_recs (m : Mod) (bootsel clkmode : Nat) (activeOk pendingOk : Bool) :
    (m.powerOn bootsel clkmode activeOk pendingOk).gal.recs = m.gal.recs := by
  simp [Mod.powerOn]
@[simp] theorem wakeBy_recs (m : Mod) (cause detail : Nat) : (m.wakeBy cause detail).gal.recs = m.gal.recs := by
  simp [Mod.wakeBy]
@[simp] theorem standbyEntry_recs (m : Mod) : m.standbyEntry.gal.recs = m.gal.recs := by
  unfold Mod.standbyEntry
  split
  · rfl
  · dsimp only []
    split <;> simp
@[simp] theorem wakeServices_recs (m : Mod) : m.wakeServices.gal.recs = m.gal.recs := by simp [Mod.wakeServices]
@[simp] theorem wakeComplete_recs (m : Mod) (now : Tread) : (m.wakeComplete now).gal.recs = m.gal.recs := by
  simp [Mod.wakeComplete]
@[simp] theorem lateMiss_recs (m : Mod) (pair : Nat) : (m.lateMiss pair).gal.recs = m.gal.recs := by simp [Mod.lateMiss]
@[simp] theorem pairLoss_recs (m : Mod) (pair more : Nat) : (m.pairLoss pair more).gal.recs = m.gal.recs := by
  simp [Mod.pairLoss]
@[simp] theorem pllLoss_recs (m : Mod) (d more : Nat) : (m.pllLoss d more).gal.recs = m.gal.recs := by
  unfold Mod.pllLoss
  split <;> simp
@[simp] theorem evaluation_recs (m : Mod) (i : TreadIn) : (m.evaluation i).gal.recs = m.gal.recs := by
  simp [Mod.evaluation]
@[simp] theorem bringUp_recs (m : Mod) (b : BringUp) : (m.bringUp b).gal.recs = m.gal.recs := by simp [Mod.bringUp]
@[simp] theorem resetRelease_recs (m : Mod) (b : BringUp) : (m.resetRelease b).gal.recs = m.gal.recs := by
  simp [Mod.resetRelease]
@[simp] theorem firmwareP3_recs (m : Mod) (signed : Bool) (b : BringUp) :
    (m.firmwareP3 signed b).gal.recs = m.gal.recs := by
  simp [Mod.firmwareP3]
@[simp] theorem rejoin_recs (m : Mod) (n : Tread) : (m.rejoin n).gal.recs = m.gal.recs := by simp [Mod.rejoin]
@[simp] theorem prepare_recs (m : Mod) : m.prepare.gal.recs = m.gal.recs := by
  unfold Mod.prepare
  split
  · rfl
  · dsimp only []
    split <;> simp
@[simp] theorem runBoundary_recs (m : Mod) (i : TreadIn) (n : Tread) : (m.runBoundary i n).gal.recs = m.gal.recs := by
  simp [Mod.runBoundary]
@[simp] theorem treadBoundary_recs (m : Mod) (i : TreadIn) : (m.treadBoundary i).gal.recs = m.gal.recs := by
  unfold Mod.treadBoundary
  split <;> simp
@[simp] theorem brownout_recs (m : Mod) (ns us : Nat) : (m.brownout ns us).gal.recs = m.gal.recs := by
  unfold Mod.brownout
  split
  · rfl
  · split
    · simp
    · dsimp only []
      split <;> simp

/-- Settles O8: no operation but the writing of a record and a clear reaches the records. -/
theorem galleryKept : Obligations.GalleryKept := by
  intro c s t h
  cases c
  case galleryClearEnd => exact .inr (.inl rfl)
  case galleryRecord => exact .inr (.inr rfl)
  case faultReset g side k =>
    change (if side = 0 then _ else _) = _ at h
    left
    split at h <;> (obtain rfl := Host.Outcome.next.inj h; simp)
  all_goals
    left
    obtain rfl := Host.Outcome.next.inj h
    simp

end Sys2Proof.Machine
end

section
/-! PROOFS. The safety domain through resets and the way back to service (R209, R286): what each operation on the way leaves
of it, and the statement. -/

namespace Sys2Proof.Machine

/-! ### The safety domain after an operation -/

@[simp] theorem overAll_safety {β : Type} (l : List β) (f : Mod → β → Mod) (m : Mod)
    (h : ∀ m x, (f m x).safety = m.safety) : (overAll l f m).safety = m.safety := by
  induction l generalizing m with
  | nil => rfl
  | cons a l ih => exact (ih (f m a)).trans (h m a)
@[simp] theorem ite_safety (c : Prop) [Decidable c] (x y : Mod) :
    (if c then x else y).safety = if c then x.safety else y.safety := apply_ite (fun m : Mod => m.safety) c x y
@[simp] theorem bumpBy_safety (m : Mod) (idx sub n : Nat) : (m.bumpBy idx sub n).safety = m.safety := rfl
@[simp] theorem bump_safety (m : Mod) (idx sub : Nat) : (m.bump idx sub).safety = m.safety := rfl
@[simp] theorem setRoBit_safety (m : Mod) (idx sub bit : Nat) (b : Bool) :
    (m.setRoBit idx sub bit b).safety = m.safety := rfl
@[simp] theorem setShadow_safety (m : Mod) (b : Bank) : (m.setShadow b).safety = m.safety := by simp [Mod.setShadow]
@[simp] theorem setGalCode_safety (m : Mod) (c : Nat) (g : GalCode) : (m.setGalCode c g).safety = m.safety := rfl
@[simp] theorem suppress_safety (m : Mod) (code : Nat) : (m.suppress code).safety = m.safety := rfl
@[simp] theorem enqueueDue_safety (m : Mod) (d : GalDue) : (m.enqueueDue d).safety = m.safety := by
  unfold Mod.enqueueDue
  dsimp only []
  split <;> simp
@[simp] theorem logRecord_safety (m : Mod) (d : GalDue) : (m.logRecord d).safety = m.safety := by simp [Mod.logRecord]
@[simp] theorem logGal_safety (m : Mod) (code source : Nat) (words : List Nat) :
    (m.logGal code source words).safety = m.safety := by
  simp [Mod.logGal]
@[simp] theorem timeTo_safety (m : Mod) (f : Nat) : (m.timeTo f).safety = m.safety := rfl
@[simp] theorem setTrig_safety (m : Mod) (k : Nat) (t : TrigSt) : (m.setTrig k t).safety = m.safety := rfl
@[simp] theorem holdOff_safety (m : Mod) (k : Nat) (t : Tread) : (m.holdOff k t).safety = m.safety := by
  simp [Mod.holdOff]
@[simp] theorem regroup_safety (m : Mod) : m.regroup.safety = m.safety := by simp [Mod.regroup]
@[simp] theorem resync_safety (m : Mod) (pair : Nat) : (m.resync pair).safety = m.safety := by simp [Mod.resync]
@[simp] theorem missed_safety (m : Mod) (pair : Nat) : (m.missed pair).safety = m.safety := by simp [Mod.missed]
@[simp] theorem takeover_safety (m : Mod) (pair : Nat) : (m.takeover pair).safety = m.safety := by simp [Mod.takeover]
@[simp] theorem queueMove_safety (m : Mod) (a : Nat) (t : Int) : (m.queueMove a t).safety = m.safety := rfl
@[simp] theorem stopAxis_safety (m : Mod) (a : Nat) : (m.stopAxis a).safety = m.safety := by simp [Mod.stopAxis]
@[simp] theorem emptyShadow_safety (m : Mod) : m.emptyShadow.safety = m.safety := by simp [Mod.emptyShadow]
@[simp] theorem activateBank_safety (m : Mod) (was k : Nat) : (m.activateBank was k).safety = m.safety := by
  simp [Mod.activateBank]
@[simp] theorem revert_safety (m : Mod) (r : Tread) : (m.revert r).safety = m.safety := rfl
@[simp] theorem flagInput_safety (m : Mod) (x bit : Nat) (b : Bool) : (m.flagInput x bit b).safety = m.safety := rfl
@[simp] theorem restartWindow_safety (m : Mod) (x : Nat) (since : Tread) :
    (m.restartWindow x since).safety = m.safety := rfl
@[simp] theorem restartTile_safety (m : Mod) (tile : Nat) (since : Tread) :
    (m.restartTile tile since).safety = m.safety := by
  unfold Mod.restartTile
  exact (overAll_safety _ _ _ fun _ _ => by split <;> simp).trans (overAll_safety _ _ _ fun _ _ => rfl)
@[simp] theorem tpoQuiet_safety (m : Mod) : m.tpoQuiet.safety = m.safety := by simp [Mod.tpoQuiet]
@[simp] theorem tpoResume_safety (m : Mod) : m.tpoResume.safety = m.safety := by
  unfold Mod.tpoResume
  exact overAll_safety _ _ _ fun _ _ => by dsimp only []; split <;> simp
@[simp] theorem setCanRo_safety (m : Mod) (k sub v : Nat) : (m.setCanRo k sub v).safety = m.safety := rfl
@[simp] theorem putMo_safety (m : Mod) (k : Nat) (s : CanObjSt) : (m.putMo k s).safety = m.safety := rfl
@[simp] theorem setErrors_safety (m : Mod) (p tec rec_ : Nat) : (m.setErrors p tec rec_).safety = m.safety := by
  simp [Mod.setErrors]
@[simp] theorem dropPending_safety (m : Mod) (p : Nat) :
    (m.dropPending p).safety = m.safety := by
  unfold Mod.dropPending
  exact overAll_safety _ _ _ fun _ _ => rfl
@[simp] theorem emptyQueue_safety (m : Mod) (p : Nat) : (m.emptyQueue p).safety = m.safety := rfl
@[simp] theorem portOn_safety (m : Mod) (p : Nat) : (m.portOn p).safety = m.safety := by simp [Mod.portOn]
@[simp] theorem resetPort_safety (m : Mod) (p : Nat) : (m.resetPort p).safety = m.safety := by simp [Mod.resetPort]
@[simp] theorem canAfresh_safety (m : Mod) : m.canAfresh.safety = m.safety := rfl
@[simp] theorem decideLand_safety (m : Mod) (t cause : Nat) : (m.decideLand t cause).safety = m.safety := by
  simp [Mod.decideLand]
@[simp] theorem decideEnter_safety (m : Mod) (t step exit clear : Nat) :
    (m.decideEnter t step exit clear).safety = m.safety := by
  simp [Mod.decideEnter]
theorem axisAction_safety (m m' : Mod) (op tgt v : Nat) (h : m.axisAction op tgt v = some m') :
    m'.safety = m.safety := by
  unfold Mod.axisAction at h
  dsimp only [] at h
  repeat' split at h
  all_goals cases h
  all_goals simp
@[simp] theorem axisActions_safety (m : Mod) (t : Nat) (idxs : List Nat) :
    (m.axisActions t idxs).safety = m.safety := by
  unfold Mod.axisActions
  refine overAll_safety _ _ _ (fun m i => ?_)
  extract_lets e
  split
  · rfl
  · split
    · rename_i m1 h
      split at h
      · exact axisAction_safety _ _ _ _ _ h
      · cases h
    · rfl
@[simp] theorem landingStops_safety (m : Mod) (b : Bank) (l : Nat) : (m.landingStops b l).safety = m.safety := by
  simp [Mod.landingStops]
@[simp] theorem loseStreams_safety (m : Mod) : m.loseStreams.safety = m.safety := by simp [Mod.loseStreams]
@[simp] theorem startCheckpoint_safety (m : Mod) (f : Nat) (requested : Bool) :
    (m.startCheckpoint f requested).safety = m.safety := by
  unfold Mod.startCheckpoint
  dsimp only []
  split <;> simp
@[simp] theorem completeCheckpoint_safety (m : Mod) : m.completeCheckpoint.safety = m.safety := by
  unfold Mod.completeCheckpoint
  dsimp only []
  split <;> simp
@[simp] theorem restorePool_safety (m : Mod) : m.restorePool.safety = m.safety := by
  unfold Mod.restorePool
  exact overAll_safety _ _ _ fun _ _ => by dsimp only []; split <;> simp
@[simp] theorem freeTokens_safety (m : Mod) : m.freeTokens.safety = m.safety := rfl
@[simp] theorem cutLoads_safety (m : Mod) : m.cutLoads.safety = m.safety := by simp [Mod.cutLoads]
@[simp] theorem dropLogic_safety (m : Mod) : m.dropLogic.safety = m.safety := by simp [Mod.dropLogic]
@[simp] theorem endStandby_safety (m : Mod) : m.endStandby.safety = m.safety := by simp [Mod.endStandby]
@[simp] theorem renewHall_safety (m : Mod) (n : Tread) : (m.renewHall n).safety = m.safety := rfl
@[simp] theorem runSlot_safety (m : Mod) (slot : Nat) : (m.runSlot slot).safety = m.safety := rfl
@[simp] theorem hkStart_safety (m : Mod) : m.hkStart.safety = m.safety := by simp [Mod.hkStart]
@[simp] theorem axisParts_safety (m : Mod) : m.axisParts.safety = m.safety := by
  unfold Mod.axisParts
  extract_lets m1
  have h : m1.safety = m.safety := overAll_safety _ _ _ (fun m t => by
    split
    · split
      · extract_lets l; split <;> simp
      · simp
    · split <;> simp
    · rfl)
  clear_value m1
  exact (overAll_safety _ _ _ (fun m t => by split <;> simp)).trans h
@[simp] theorem restartServo_safety (m : Mod) : m.restartServo.safety = m.safety := by simp [Mod.restartServo]
@[simp] theorem storedOptions_safety (m : Mod) : m.storedOptions.safety = m.safety := by
  unfold Mod.storedOptions
  split <;> rfl
@[simp] theorem minimalOptions_safety (m : Mod) (b : BringUp) : (m.minimalOptions b).safety = m.safety := rfl
@[simp] theorem loadOptions_safety (m : Mod) (b : BringUp) : (m.loadOptions b).safety = m.safety := by
  simp [Mod.loadOptions]
@[simp] theorem blank_safety (m : Mod) : m.blank.safety = m.safety := rfl
@[simp] theorem coldStart_safety (m : Mod) (n : Tread) : (m.coldStart n).safety = m.safety := by simp [Mod.coldStart]
@[simp] theorem endRuns_safety (m : Mod) : m.endRuns.safety = m.safety := by
  unfold Mod.endRuns
  extract_lets m1 m2 m3
  have h2 : m2.safety = m.safety := by simp [m2, m1]
  have h3 : m3.safety = m2.safety := overAll_safety _ _ _ fun _ _ => rfl
  rw [← h2, ← h3]
  exact overAll_safety _ _ _ fun _ _ => rfl
@[simp] theorem load_safety (m : Mod) (r : Restore) : (m.load_ r).safety = m.safety := by simp [Mod.load_]
@[simp] theorem rejoin_safety (m : Mod) (n : Tread) : (m.rejoin n).safety = m.safety := by simp [Mod.rejoin]
@[simp] theorem setOutputs_safety (m : Mod) (img : Img) : (m.setOutputs img).safety = m.safety := by
  simp [Mod.setOutputs]
@[simp] theorem allOutputsOff_safety (m : Mod) : m.allOutputsOff.safety = m.safety := by simp [Mod.allOutputsOff]
@[simp] theorem carryOn_safety (m : Mod) (t : Nat) (n g : Tread) : (m.carryOn t n g).safety = m.safety := by
  simp [Mod.carryOn]
@[simp] theorem landTracks_safety (m : Mod) (effects : Bool) : (m.landTracks effects).safety = m.safety := by
  simp [Mod.landTracks]
@[simp] theorem outcomeState_safety (m : Mod) (out : Nat) (off : Bool) (r : Restore) (n : Tread) :
    (m.outcomeState out off r n).safety = m.safety := by
  simp [Mod.outcomeState]
@[simp] theorem outcomeObjects_safety (m : Mod) (out why r n g : Nat) (diff : List Nat) :
    (m.outcomeObjects out why r n g diff).safety = m.safety := by
  simp [Mod.outcomeObjects]

/-! ### Resets and the way back, and the statement -/

/-- A logic reset leaves the safety domain to run on (R209, R286). -/
@[simp] theorem logicReset_safety (m : Mod) (cause flag : Nat) : (m.logicReset cause flag).safety = m.safety := by
  simp [Mod.logicReset]
@[simp] theorem resetPin_safety (m : Mod) (n : Nat) : (m.resetPin n).safety = m.safety := by simp [Mod.resetPin]
@[simp] theorem watchdog_safety (m : Mod) (n : Nat) : (m.watchdog n).safety = m.safety := by simp [Mod.watchdog]
@[simp] theorem requestedHold_safety (m : Mod) : m.requestedHold.safety = m.safety := by
  unfold Mod.requestedHold
  split
  · split <;> simp
  · rfl
@[simp] theorem pairLoss_safety (m : Mod) (pair more : Nat) : (m.pairLoss pair more).safety = m.safety := by
  simp [Mod.pairLoss, Mod.lateMiss]
@[simp] theorem pllLoss_safety (m : Mod) (d more : Nat) : (m.pllLoss d more).safety = m.safety := by
  unfold Mod.pllLoss
  split <;> simp
@[simp] theorem bringUp_safety (m : Mod) (b : BringUp) : (m.bringUp b).safety = m.safety := rfl
@[simp] theorem resetRelease_safety (m : Mod) (b : BringUp) : (m.resetRelease b).safety = m.safety := by
  simp [Mod.resetRelease]
@[simp] theorem firmwareP3_safety (m : Mod) (signed : Bool) (b : BringUp) :
    (m.firmwareP3 signed b).safety = m.safety := by
  simp [Mod.firmwareP3]
@[simp] theorem prepare_safety (m : Mod) : m.prepare.safety = m.safety := by
  unfold Mod.prepare
  split
  · rfl
  · dsimp only []
    split <;> simp

/-- Settles O9: no reset, and no operation on the way back, touches the safety domain. -/
theorem resetLeavesSafety : Obligations.ResetLeavesSafety := by
  intro c s t hc h
  cases c
  case brownout ns us =>
    obtain rfl := Host.Outcome.next.inj h
    obtain hlong | hlong := Nat.lt_or_ge 2000 ns
    · obtain ⟨n, hn, e⟩ := brownout_bridged s.m ns us hlong hc
      exact (congrArg Mod.safety e).trans ((logicReset_safety n 2 0).trans hn.safety)
    · exact congrArg Mod.safety (brownout_short s.m ns us hlong)
  case resetN | fabricWatchdog | requestedResetHold | pllLockLoss | resetRelease | firmwareOverP3 | preparationTread =>
    obtain rfl := Host.Outcome.next.inj h
    simp
  all_goals exact hc.elim

end Sys2Proof.Machine
end

section
/-! PROOFS. Stores, bytes and the writes of partners (R4, R31 to R33, R411): the laws of the stores, the bytes of a value, a write
staged and a write refused whole, and the statements. -/

namespace Sys2Proof.Machine

theorem storesWf_iff (m : Mod) :
    m.storesWf = true ↔ SMap.wf keyDefault m.objs = true ∧ SMap.wf keyDefault m.ro = true := by
  simp [Mod.storesWf]

/-- Settles O10: each store obeys the laws of its table. -/
theorem storesReadBack : Obligations.StoresReadBack := by
  refine fun m idx sub v => ⟨cfg_setCfg m idx sub v, rov_setRo m idx sub v, fun idx' sub' h => ?_, fun h => ?_⟩
  · exact ⟨cfg_setCfg_ne m idx sub v idx' sub' h.symm, rov_setRo_ne m idx sub v idx' sub' h.symm⟩
  · obtain ⟨hobjs, hro⟩ := (storesWf_iff m).mp h
    exact ⟨(storesWf_iff _).mpr ⟨stPut_wf _ _ _ hobjs, hro⟩, (storesWf_iff _).mpr ⟨hobjs, stPut_wf _ _ _ hro⟩⟩

/-! ### Bytes (R4, R411) -/

theorem ofLe_leBytes (n v : Nat) : ofLe (leBytes n v) = v % 256 ^ n := by
  induction n generalizing v with
  | zero => simp [leBytes, ofLe, Nat.mod_one]
  | succ n ih => rw [leBytes, ofLe, ih, Nat.mod_mod, Nat.pow_succ', Nat.mod_mul]

theorem length_leBytes (n v : Nat) : (leBytes n v).length = n := by
  induction n generalizing v with
  | zero => rfl
  | succ n ih => rw [leBytes, List.length_cons, ih]

theorem lt_of_mem_leBytes {n v b : Nat} (h : b ∈ leBytes n v) : b < 256 := by
  induction n generalizing v with
  | zero => simp [leBytes] at h
  | succ n ih =>
    rcases List.mem_cons.mp h with rfl | h
    · exact Nat.mod_lt _ (by decide)
    · exact ih h

/-- Settles O11: by induction on the number of bytes. -/
theorem bytesReadBack : Obligations.BytesReadBack :=
  fun n v => ⟨ofLe_leBytes n v, length_leBytes n v, fun _ => lt_of_mem_leBytes⟩

/-! ### A write staged (R31 to R33) -/

theorem dueOfWrite_snd (m : Mod) (h : Hdr) : (m.dueOfWrite h.named h.off).2 = m.boundaryOf h := by
  unfold Mod.dueOfWrite Mod.boundaryOf
  cases h.named <;> rfl

theorem turned_queues (m : Mod) (a : Nat) (p : Partner) (n : Nat) :
    (m.turned a p n).arrivals = m.arrivals ∧ (m.turned a p n).replies = m.replies ∧
      (m.turned a p n).reads = m.reads ∧ (m.turned a p n).field = m.field := by
  obtain ⟨q, h | h⟩ := turned_cases m a p n <;> rw [h] <;> exact ⟨rfl, rfl, rfl, rfl⟩

/-- Settles O12: a write in its turn comes to its staging alone, and the message taken in its turn leaves what staging
reads as it was. -/
theorem writeIsStaged : Obligations.WriteIsStaged := by
  intro c s h p l hw hin hv hd hf
  rw [exec_written c s h l hw, partner_staged s.m h p l hin hv hd hf, dueOfWrite_snd]
  obtain ⟨harr, hrep, -, -⟩ := turned_queues s.m h.assoc p h.seq
  obtain ⟨hst, -, -, -⟩ := turned_frame s.m h.assoc p h.seq
  have hsw := rov_turned s.m h.assoc p h.seq 0x4020 0xC (by decide)
  unfold Mod.stage
  simp only [txnOf, harr, hst, hrep, hsw, and_true]
  split
  · rfl
  · simp [State.withMod, Mod.stagedWrite]

/-! ### A write refused whole (R31) -/

/-- A change that leaves alone what is staged, the objects of partners, the reads, the tracks and the field side. -/
structure Mod.KeepsWork (m n : Mod) : Prop where
  staged : n.staged = m.staged
  objs : n.objs = m.objs
  reads : n.reads = m.reads
  tracks : n.tracks = m.tracks
  field : n.field = m.field

theorem Mod.KeepsWork.trans {m n k : Mod} (h : m.KeepsWork n) (g : n.KeepsWork k) : m.KeepsWork k :=
  ⟨g.staged.trans h.staged, g.objs.trans h.objs, g.reads.trans h.reads, g.tracks.trans h.tracks, g.field.trans h.field⟩

theorem turned_keepsWork (m : Mod) (a : Nat) (p : Partner) (n : Nat) : m.KeepsWork (m.turned a p n) := by
  obtain ⟨q, h | h⟩ := turned_cases m a p n <;> rw [h] <;> exact ⟨rfl, rfl, rfl, rfl, rfl⟩

theorem send_keepsWork (m : Mod) (r : Reply) : m.KeepsWork (m.send r) := by
  obtain h | ⟨c, s, h⟩ | ⟨p, rs, cache, -, h⟩ := send_cases m r <;> rw [h] <;> exact ⟨rfl, rfl, rfl, rfl, rfl⟩

theorem refuse_keepsWork (m : Mod) (x : Txn) (st pos : Nat) (hx : x.origin = .message) :
    m.KeepsWork (m.refuse x st pos) := by
  unfold Mod.refuse
  rw [hx]
  refine .trans ?_ (send_keepsWork _ _)
  repeat' split
  all_goals exact ⟨rfl, rfl, rfl, rfl, rfl⟩

/-- What a check of a token or of the safety configuration notes of its refusal stands in the module's own objects and in
the arm of the safety domain (R211, R402). -/
theorem noteRefusal_keepsWork (c : Chk) (st : Nat) (m : Mod) : m.KeepsWork (c.noteRefusal st m) := by
  unfold Chk.noteRefusal
  repeat' split
  all_goals exact ⟨rfl, rfl, rfl, rfl, rfl⟩

theorem noteRefusal_hall (c : Chk) (st : Nat) (m : Mod) : (c.noteRefusal st m).hall = m.hall := by
  unfold Chk.noteRefusal
  repeat' split
  all_goals rfl

theorem holdsNone_congr {m n : Mod} {a : Nat} (hh : n.hall = m.hall) (h : m.holdsNone a) : n.holdsNone a := by
  unfold Mod.holdsNone Mod.inHall at *
  rwa [hh]

/-- The module once the check that has failed, where one was made, has noted its refusal. -/
def Mod.noted (m : Mod) (st : Nat) : Option Chk → Mod
  | some c => c.noteRefusal st m
  | none => m

theorem noted_keepsWork (m : Mod) (st : Nat) (k : Option Chk) : m.KeepsWork (m.noted st k) := by
  cases k with
  | none => exact ⟨rfl, rfl, rfl, rfl, rfl⟩
  | some c => exact noteRefusal_keepsWork c st m

theorem noted_hall (m : Mod) (st : Nat) (k : Option Chk) : (m.noted st k).hall = m.hall := by
  cases k with
  | none => rfl
  | some c => exact noteRefusal_hall c st m

/-- A write in its turn that fails validation is refused as a whole once its refusal has been noted. -/
theorem partner_invalid (m : Mod) (h : Hdr) (p : Partner) (l : List Entry) (st pos : Nat) (k : Option Chk)
    (hin : m.inTurn h p l = true)
    (hv : (m.turned h.assoc p h.seq).validateFrom h.assoc (m.now + h.off) (m.dueOfWrite h.named h.off).2 l 0 l =
      some (st, pos, k)) :
    m.partner h true l = ((m.turned h.assoc p h.seq).noted st k).refuse (txnOf h l) st pos := by
  have harrive : (m.turned h.assoc p h.seq).arriveWrite (txnOf h l) h.off =
      ((m.turned h.assoc p h.seq).noted st k).refuse (txnOf h l) st pos := by
    unfold Mod.arriveWrite
    simp only [txnOf, turned_dueOfWrite, turned_now, hv]
    cases k <;> rfl
  have hnone := holdsNone_congr (noted_hall _ st k) (holdsNone_of_inTurn m h p l hin)
  rw [partner_inTurn m h p l hin, harrive]
  exact drainHeld_of_holdsNone _ _ _ _ (holdsNone_refuse _ _ rfl hnone)

/-- Settles O13: the refusal is noted and answered, and neither reaches what partners have written. -/
theorem writeIsRefusedWhole : Obligations.WriteIsRefusedWhole := by
  intro c s h p l st pos k hw hin hv
  rw [exec_written c s h l hw, partner_invalid s.m h p l st pos k hin hv]
  obtain ⟨hst, hob, hre, htr, hfi⟩ := ((turned_keepsWork s.m h.assoc p h.seq).trans (noted_keepsWork _ st k)).trans
    (refuse_keepsWork _ (txnOf h l) st pos rfl)
  exact ⟨_, rfl, hst, hob, hre, htr, hfi, rfl⟩

end Sys2Proof.Machine
end

section
/-! PROOFS. What is reported: counters, records of the gallery, events of the step log and notifications change nothing else. -/

namespace Sys2Proof.Machine

/-! ### What reporting changes -/

/-- A module that has reported more: in the objects that it writes, in the gallery's queue and counts, in the chains of the
recorder and in the messages that wait to be sent. -/
def Mod.Reports (m n : Mod) : Prop :=
  ∃ ro gal chain2 chain4 out, n = { m with ro := ro, gal := gal, chain2 := chain2, chain4 := chain4, out := out }

theorem Mod.Reports.refl (m : Mod) : m.Reports m := ⟨m.ro, m.gal, m.chain2, m.chain4, m.out, rfl⟩

theorem Mod.Reports.trans {m n k : Mod} (h : m.Reports n) (g : n.Reports k) : m.Reports k := by
  obtain ⟨_, _, _, _, _, rfl⟩ := h
  obtain ⟨ro, gal, c2, c4, out, rfl⟩ := g
  exact ⟨ro, gal, c2, c4, out, rfl⟩

theorem setRo_reports (m : Mod) (idx sub v : Nat) : m.Reports (m.setRo idx sub v) :=
  ⟨_, m.gal, m.chain2, m.chain4, m.out, rfl⟩

theorem bumpBy_reports (m : Mod) (idx sub n : Nat) : m.Reports (m.bumpBy idx sub n) := setRo_reports ..

theorem bump_reports (m : Mod) (idx sub : Nat) : m.Reports (m.bump idx sub) := setRo_reports ..

theorem notify_reports (m : Mod) (a code : Nat) (data : List Nat) : m.Reports (m.notify a code data) :=
  ⟨m.ro, m.gal, m.chain2, m.chain4, _, rfl⟩

theorem chainPut_reports (m : Mod) (stream : Nat) (packet : List Nat) (tail : Nat) :
    m.Reports (m.chainPut stream packet tail) := by
  unfold Mod.chainPut
  dsimp only []
  repeat' split
  all_goals exact ⟨_, _, _, _, _, rfl⟩

theorem logS4_reports (m : Mod) (kind source w1 w2 w3 : Nat) : m.Reports (m.logS4 kind source w1 w2 w3) :=
  chainPut_reports ..

theorem suppress_reports (m : Mod) (code : Nat) : m.Reports (m.suppress code) := ⟨_, _, _, _, _, rfl⟩

theorem logRecord_reports (m : Mod) (d : GalDue) : m.Reports (m.logRecord d) := by
  unfold Mod.logRecord Mod.enqueueDue
  dsimp only []
  repeat' split
  all_goals exact ⟨_, _, _, _, _, rfl⟩

theorem logGal_reports (m : Mod) (code source : Nat) (words : List Nat) : m.Reports (m.logGal code source words) :=
  logRecord_reports ..

theorem ite_reports {m x y : Mod} (c : Prop) [Decidable c] (hx : m.Reports x) (hy : m.Reports y) :
    m.Reports (if c then x else y) := by
  split <;> assumption

namespace Mod.Reports
variable {m n : Mod} (h : m.Reports n)
include h

theorem objs : n.objs = m.objs := by obtain ⟨_, _, _, _, _, rfl⟩ := h; rfl
theorem tracks : n.tracks = m.tracks := by obtain ⟨_, _, _, _, _, rfl⟩ := h; rfl
theorem track (t : Nat) : n.track t = m.track t := by obtain ⟨_, _, _, _, _, rfl⟩ := h; rfl

end Mod.Reports

end Sys2Proof.Machine
end

section
/-! PROOFS. Track commands (R75 to R78, R86, R87): a track's state, a track that lands, each command's effect, and the statement. -/

namespace Sys2Proof.Machine

/-! ### A track's state -/

theorem track_setTrackState (m : Mod) (t new cmd : Nat) :
    (m.setTrackState t new cmd).track t = { m.track t with state := new } := by
  unfold Mod.setTrackState
  dsimp only []
  split
  case isTrue h => rw [← h]
  case isFalse => rw [(logS4_reports ..).track, track_setTrack]

theorem track_setTrackState_ne (m : Mod) (t new cmd x : Nat) (h : x ≠ t) :
    (m.setTrackState t new cmd).track x = m.track x := by
  unfold Mod.setTrackState
  dsimp only []
  split
  · rfl
  · rw [(logS4_reports ..).track, track_setTrack_ne _ _ _ _ h.symm]

/-! ### A track lands (R74 to R76) -/

/-- A landing that finds its track landed already only counts (R75). -/
theorem becomeLanded_again (m : Mod) (t l cause cmd : Nat) (ok : Bool) (h : (m.track t).state = 3) :
    m.becomeLanded t l cause cmd ok = m.bump 0x4010 5 := if_pos h

/-- A track that stands landed. -/
def TrackSt.landed (s : TrackSt) (l cause held : Nat) : TrackSt :=
  { s with state := 3, curLanding := l, cause := cause, lastExit := 5, heldMask := held, wait := none, next := none,
           countA := 0, countB := 0 }

/-- The outputs that a landing's pattern holds: none where its CRC fails or it names no pattern (R71, R74). -/
def Mod.landingHold (m : Mod) (l : Nat) (ok : Bool) : Nat :=
  if ok ∧ bits (wordOf (m.landingE l) 0) 16 16 ≠ 0xFFFF then
    patternMask (lookD m.bank.patterns (bits (wordOf (m.landingE l) 0) 16 16) 0) else 0

/-- A track that lands: its own record changes, and the rest is reported (R74). -/
theorem becomeLanded_first (m : Mod) (t l cause cmd : Nat) (ok : Bool) (h : (m.track t).state ≠ 3) :
    ∃ held, ((m.bump 0x4010 5).setTrack t { (m.track t).landed l cause held with state := (m.track t).state }
      |>.setTrackState t 3 cmd).Reports (m.becomeLanded t l cause cmd ok) := by
  refine ⟨(m.bump 0x4010 5).landingHold l ok, ?_⟩
  unfold Mod.becomeLanded
  dsimp only []
  rw [if_neg h]
  exact ite_reports _ ((ite_reports _ (logS4_reports ..) ((logS4_reports ..).trans (logGal_reports ..))).trans
    (notify_reports ..)) (ite_reports _ (logS4_reports ..) ((logS4_reports ..).trans (logGal_reports ..)))

theorem track_becomeLanded (m : Mod) (t l cause cmd : Nat) (ok : Bool) (h : (m.track t).state ≠ 3) :
    ∃ held, (m.becomeLanded t l cause cmd ok).track t = (m.track t).landed l cause held := by
  obtain ⟨held, hr⟩ := becomeLanded_first m t l cause cmd ok h
  exact ⟨held, by rw [hr.track, track_setTrackState, track_setTrack]; rfl⟩

theorem track_becomeLanded_ne (m : Mod) (t l cause cmd x : Nat) (ok : Bool) (hx : x ≠ t) :
    (m.becomeLanded t l cause cmd ok).track x = m.track x := by
  by_cases h : (m.track t).state = 3
  · rw [becomeLanded_again _ _ _ _ _ _ h]
    rfl
  · obtain ⟨held, hr⟩ := becomeLanded_first m t l cause cmd ok h
    rw [hr.track, track_setTrackState_ne _ _ _ _ _ hx, track_setTrack_ne _ _ _ _ hx.symm]
    rfl

/-- A landing counts a CRC that fails and keeps its effects for their place, and its track lands (R74, R101). -/
theorem landNow_eq (m : Mod) (t cause cmd : Nat) :
    ∃ n : Mod, n.tracks = m.tracks ∧
      m.landNow t cause cmd = n.becomeLanded t (m.landingOf t (m.track t).step) cause cmd
        (m.landingOk (m.landingOf t (m.track t).step)) := by
  unfold Mod.landNow
  dsimp only []
  refine ⟨_, ?_, rfl⟩
  repeat' split
  all_goals rfl

theorem track_landNow (m : Mod) (t cause cmd : Nat) (h : (m.track t).state ≠ 3) :
    ∃ held, (m.landNow t cause cmd).track t = (m.track t).landed (m.landingOf t (m.track t).step) cause held := by
  obtain ⟨n, hn, e⟩ := landNow_eq m t cause cmd
  have ht : n.track t = m.track t := by simp only [Mod.track, hn]
  rw [e, ← ht]
  exact track_becomeLanded n t _ cause cmd _ (ht ▸ h)

theorem track_landNow_again (m : Mod) (t cause cmd : Nat) (h : (m.track t).state = 3) :
    (m.landNow t cause cmd).track t = m.track t := by
  obtain ⟨n, hn, e⟩ := landNow_eq m t cause cmd
  have ht : n.track t = m.track t := by simp only [Mod.track, hn]
  rw [e, becomeLanded_again _ _ _ _ _ _ (ht ▸ h), ← ht]
  rfl

theorem track_landNow_ne (m : Mod) (t cause cmd x : Nat) (hx : x ≠ t) : (m.landNow t cause cmd).track x = m.track x := by
  obtain ⟨n, hn, e⟩ := landNow_eq m t cause cmd
  rw [e, track_becomeLanded_ne _ _ _ _ _ _ _ hx]
  simp only [Mod.track, hn]

/-! ### The track commands (R77, R78, R86) -/

/-- A track as START leaves it (R77). -/
theorem track_startTrack (m : Mod) (t entry owner cmd : Nat) :
    (m.startTrack t entry owner cmd).track t =
      { state := 1, entryPoint := entry, dfltLanding := bits (lookD m.bank.entries entry 0) 16 8, owner := owner,
        entered := (m.track t).entered, entryTread := (m.track t).entryTread, lastExit := (m.track t).lastExit } := by
  unfold Mod.startTrack
  rw [track_setTrackState, track_setTrack]

theorem track_startTrack_ne (m : Mod) (t entry owner cmd x : Nat) (hx : x ≠ t) :
    (m.startTrack t entry owner cmd).track x = m.track x := by
  unfold Mod.startTrack
  rw [track_setTrackState_ne _ _ _ _ _ hx, track_setTrack_ne _ _ _ _ hx.symm]
  rfl

theorem track_clearTrack_state (m : Mod) (t : Nat) : ((m.clearTrack t).track t).state = 0 := by
  unfold Mod.clearTrack
  dsimp only []
  split
  · assumption
  · rw [track_setTrackState]

theorem track_clearTrack_ne (m : Mod) (t x : Nat) (hx : x ≠ t) : (m.clearTrack t).track x = m.track x := by
  unfold Mod.clearTrack
  dsimp only []
  split
  · rfl
  · rw [track_setTrackState_ne _ _ _ _ _ hx, track_setTrack_ne _ _ _ _ hx.symm]
    rfl

theorem command_refused (m : Mod) (t code entry a : Nat) (h : m.outcomeOf t code ≠ 0) : m.command t code entry a = m :=
  if_pos h

/-- The states in which CONTINUE commits (R86). -/
theorem state_of_continue {m : Mod} {t : Nat} (h : m.outcomeOf t 5 = 0) :
    (m.track t).state = 1 ∨ (m.track t).state = 2 := by
  refine Decidable.byContradiction fun hn => ?_
  have hrefused : m.outcomeOf t 5 = 1 := if_neg hn
  omega

theorem track_command_ne (m : Mod) (t code entry a x : Nat) (hx : x ≠ t) :
    (m.command t code entry a).track x = m.track x := by
  unfold Mod.command
  dsimp only []
  split
  · rfl
  · split
    · exact track_startTrack_ne _ _ _ _ _ _ hx
    · exact track_landNow_ne _ _ _ _ _ hx
    · exact track_landNow_ne _ _ _ _ _ hx
    · exact track_setTrackState_ne _ _ _ _ _ hx
    · split
      · rw [track_setTrackState_ne _ _ _ _ _ hx, track_setTrack_ne _ _ _ _ hx.symm]
      · rfl
    · exact track_clearTrack_ne _ _ _ hx
    · rfl

/-- ABORT and FORCE_ABORT land the track; one that has landed already stays as it is (R75, R86). -/
theorem track_abort (m : Mod) (t c a : Nat) (hc : c = 2 ∨ c = 3) (h : m.outcomeOf t c = 0) :
    ((m.command t c 0 a).track t).state = 3 ∧
      ((m.track t).state ≠ 3 → ((m.command t c 0 a).track t).cause = c - 1 ∧
        ((m.command t c 0 a).track t).curLanding = m.landingOf t (m.track t).step ∧
        ((m.command t c 0 a).track t).next = none) := by
  have hland : m.command t c 0 a = m.landNow t (c - 1) c := by
    unfold Mod.command
    rcases hc with rfl | rfl <;> exact if_neg (by simp [h])
  rw [hland]
  by_cases h3 : (m.track t).state = 3
  · rw [track_landNow_again _ _ _ _ h3]
    exact ⟨h3, fun hn => absurd h3 hn⟩
  · obtain ⟨held, e⟩ := track_landNow m t (c - 1) c h3
    rw [e]
    exact ⟨rfl, fun _ => ⟨rfl, rfl, rfl⟩⟩

theorem command_continue (m : Mod) (t a : Nat) (h : m.outcomeOf t 5 = 0) :
    m.command t 5 0 a = if (m.track t).state = 2 then
      (m.setTrack t { m.track t with countA := 0, countB := 0 }).setTrackState t 1 5 else m := if_neg (by simp [h])

/-- Settles O19: each command that commits is its own operation on its track, and none reaches another. -/
theorem trackCommandsAct : Obligations.TrackCommandsAct := by
  intro m t a entry
  refine ⟨fun h => ?_, fun c hc h => track_abort m t c a hc h, fun h => ?_, fun h => ?_, fun h => ?_,
    fun c h => command_refused m t c entry a h, fun c x hx => track_command_ne m t c entry a x hx⟩
  · have e : m.command t 1 entry a = m.startTrack t entry a 1 := if_neg (by simp [h])
    rw [e, track_startTrack]
    exact ⟨rfl, rfl, rfl, rfl⟩
  · have e : m.command t 4 0 a = m.setTrackState t 2 4 := if_neg (by simp [h])
    rw [e, track_setTrackState]
  · rw [command_continue m t a h]
    split
    · rw [track_setTrackState, track_setTrack]
      exact ⟨rfl, rfl, rfl, fun _ => ⟨rfl, rfl⟩⟩
    · have hrun : (m.track t).state = 1 := (state_of_continue h).resolve_right ‹_›
      exact ⟨hrun, rfl, rfl, fun h2 => absurd h2 ‹_›⟩
  · have e : m.command t 6 0 a = m.clearTrack t := if_neg (by simp [h])
    rw [e]
    exact track_clearTrack_state m t

end Sys2Proof.Machine
end

section
/-! PROOFS. The module's rhythm: the work of a flight boundary, resynchronisations, checkpoints, tiles and waiting entries. -/

namespace Sys2Proof.Machine

/-! ### Commands in service -/

/-- A command that works on the module in service answers the module at work, which the definition of `exec` shows. -/
theorem exec_inService {c : Instr} {s : State} (f : Mod → Mod) (h : exec c s = s.inService f) (hlife : s.m.life = .run) :
    exec c s = .next (s.withMod (f s.m)) :=
  h.trans (State.inService_run s f hlife)

/-! ### Lists of updates -/

/-- A list of updates keeps what a relation that composes says that each of them keeps. -/
theorem overAll_keeps {β : Type} {R : Mod → Mod → Prop} (refl : ∀ m, R m m)
    (trans : ∀ {a b c}, R a b → R b c → R a c) {f : Mod → β → Mod} (l : List β) (h : ∀ n x, R n (f n x)) (m : Mod) :
    R m (overAll l f m) := by
  induction l generalizing m with
  | nil => exact refl m
  | cons x l ih => exact trans (h m x) (ih (f m x))

/-! ### What the recorder's work changes -/

/-- A module whose recorder has worked: its streams, its ring and the objects from 0x3800 on, which report them. -/
def Mod.Recorded (m n : Mod) : Prop :=
  (∃ ro streams record, n = { m with ro := ro, streams := streams, record := record }) ∧
  ∀ idx sub, idx < 0x3800 → n.rov idx sub = m.rov idx sub

theorem Mod.Recorded.refl (m : Mod) : m.Recorded m := ⟨⟨_, _, _, rfl⟩, fun _ _ _ => rfl⟩

theorem Mod.Recorded.trans {m n k : Mod} (h : m.Recorded n) (g : n.Recorded k) : m.Recorded k := by
  obtain ⟨⟨_, _, _, rfl⟩, hro⟩ := h
  obtain ⟨⟨ro, streams, record, rfl⟩, gro⟩ := g
  exact ⟨⟨ro, streams, record, rfl⟩, fun idx sub hi => (gro idx sub hi).trans (hro idx sub hi)⟩

theorem Mod.Recorded.setStream (m : Mod) (s : Nat) (v : StreamSt) : m.Recorded (m.setStream s v) :=
  ⟨⟨_, _, _, rfl⟩, fun _ _ _ => rfl⟩

theorem Mod.Recorded.setRecord (m : Mod) (r : RecSt) : m.Recorded (m.setRecord r) :=
  ⟨⟨_, _, _, rfl⟩, fun _ _ _ => rfl⟩

theorem Mod.Recorded.setRo (m : Mod) (idx sub v : Nat) (h : 0x3800 ≤ idx) : m.Recorded (m.setRo idx sub v) :=
  ⟨⟨_, _, _, rfl⟩, fun _ _ hi => rov_setRo_ne _ _ _ _ _ _ (by simp only [okey]; omega)⟩

theorem Mod.Recorded.bumpBy (m : Mod) (idx sub n : Nat) (h : 0x3800 ≤ idx) : m.Recorded (m.bumpBy idx sub n) :=
  .setRo m idx sub _ h

theorem countBlock_recorded (m : Mod) (s : Nat) (z : StreamSt) (base : Nat) : m.Recorded (m.countBlock s z base) :=
  (Mod.Recorded.setRecord m _).trans (.setStream _ _ _)

theorem drainBlock_recorded (m : Mod) (s : Nat) (v : StreamSt) (b : Block) (used : Bool) :
    m.Recorded (m.drainBlock s v b used) := by
  unfold Mod.drainBlock
  split
  · exact (Mod.Recorded.setStream ..).trans (.setStream ..)
  · exact ((Mod.Recorded.bumpBy _ _ _ 1 (by omega)).trans (.setStream ..)).trans (.setStream ..)

theorem closeBlock_recorded (m : Mod) (s : Nat) (last : Tread) (capLast : Bool) :
    m.Recorded (m.closeBlock s last capLast) := by
  unfold Mod.closeBlock
  extract_lets
  split
  · exact .refl m
  · extract_lets
    split
    · exact .refl m
    · exact (countBlock_recorded ..).trans (drainBlock_recorded ..)

theorem noteRing_recorded (m : Mod) (s : Nat) (v : StreamSt) (b : Block) (n : Nat) : m.Recorded (m.noteRing s v b n) :=
  (((Mod.Recorded.setStream ..).trans (.bumpBy _ _ _ 1 (by omega))).trans (.setRo _ _ _ _ (by omega))).trans
    (.setRo _ _ _ _ (by omega))

theorem noteGap_recorded (m : Mod) (b : Block) : m.Recorded (m.noteGap b) := by
  unfold Mod.noteGap
  split
  · exact .refl m
  · exact (((Mod.Recorded.setStream ..).trans (.bumpBy _ _ _ _ (by omega))).trans (.setRo _ _ _ _ (by omega))).trans
      (.setRo _ _ _ _ (by omega))

theorem writeDrain_recorded (m : Mod) (s : Nat) : m.Recorded (m.writeDrain s) := by
  unfold Mod.writeDrain
  extract_lets
  split
  · exact .refl m
  · exact ((Mod.Recorded.setRecord ..).trans (noteRing_recorded ..)).trans (noteGap_recorded ..)

theorem ringWrite_recorded (m : Mod) (s : Nat) : m.Recorded (m.ringWrite s) := by
  unfold Mod.ringWrite
  split
  · exact .refl m
  · exact overAll_keeps .refl .trans _ writeDrain_recorded m

theorem closeDown_recorded (m : Mod) (s : Nat) (last : Tread) (capLast : Bool) (n : Nat) :
    m.Recorded (m.closeDown s last capLast n) := by
  induction n generalizing m with
  | zero => exact .refl m
  | succ n ih =>
    have hclose := closeBlock_recorded m s last capLast
    unfold Mod.closeDown
    extract_lets m1
    split
    · exact hclose
    · split
      · exact hclose
      · exact (hclose.trans (ringWrite_recorded ..)).trans (ih _)

theorem remap_recorded (m : Mod) (k id : Nat) : m.Recorded (m.remap k id) := by
  unfold Mod.remap
  extract_lets old m1
  have hclosed : m.Recorded m1 := by
    dsimp only [m1]
    split
    · exact closeDown_recorded ..
    · exact .refl m
  exact hclosed.trans (.setStream ..)

theorem mapPass_recorded (m : Mod) : m.Recorded m.mapPass := by
  refine overAll_keeps .refl .trans _ (fun n s => ?_) m
  split
  · exact .refl n
  · split
    · exact .refl n
    · extract_lets v m1 m2 m3
      have hbump : n.Recorded m1 := (Mod.Recorded.setStream ..).trans (.bumpBy _ _ _ 1 (by omega))
      have hmaps : m1.Recorded m2 := overAll_keeps .refl .trans _ (fun n k => remap_recorded n k _) m1
      have hcap : m2.Recorded m3 := by
        dsimp only [m3]
        split
        · exact .setRo _ _ _ _ (by omega)
        · exact .refl _
      exact ((hbump.trans hmaps).trans hcap).trans (.setRecord ..)


/-! ### What the work of a flight boundary keeps -/

/-- What the work of a flight boundary after its checkpoint leaves as it is. -/
structure Mod.KeepsFlight (m n : Mod) : Prop where
  tread : n.tread = m.tread
  objs : n.objs = m.objs
  staged : n.staged = m.staged
  tracks : n.tracks = m.tracks
  journal : n.journal = m.journal
  flown : n.flown = m.flown
  counted : n.gal.counted = m.gal.counted
  operating : n.rov 0x1500 8 = m.rov 0x1500 8

namespace Mod.KeepsFlight

theorem refl (m : Mod) : m.KeepsFlight m := ⟨rfl, rfl, rfl, rfl, rfl, rfl, rfl, rfl⟩

theorem trans {m n k : Mod} (h : m.KeepsFlight n) (g : n.KeepsFlight k) : m.KeepsFlight k :=
  ⟨g.tread.trans h.tread, g.objs.trans h.objs, g.staged.trans h.staged, g.tracks.trans h.tracks,
    g.journal.trans h.journal, g.flown.trans h.flown, g.counted.trans h.counted, g.operating.trans h.operating⟩

theorem setRo (m : Mod) (idx sub v : Nat) (h : okey 0 idx sub ≠ okey 0 0x1500 8) : m.KeepsFlight (m.setRo idx sub v) :=
  ⟨rfl, rfl, rfl, rfl, rfl, rfl, rfl, rov_setRo_ne _ _ _ _ _ _ h⟩

theorem recorded {m n : Mod} (h : m.Recorded n) : m.KeepsFlight n := by
  obtain ⟨⟨_, _, _, rfl⟩, hro⟩ := h
  exact ⟨rfl, rfl, rfl, rfl, rfl, rfl, rfl, hro _ _ (by omega)⟩

theorem setTime (m : Mod) (t : TimeSt) : m.KeepsFlight (m.setTime t) := ⟨rfl, rfl, rfl, rfl, rfl, rfl, rfl, rfl⟩

theorem setSwitch (m : Mod) (w : SwitchSt) : m.KeepsFlight (m.setSwitch w) := ⟨rfl, rfl, rfl, rfl, rfl, rfl, rfl, rfl⟩

theorem logGal (m : Mod) (code source : Nat) (words : List Nat) : m.KeepsFlight (m.logGal code source words) := by
  unfold Mod.logGal Mod.logRecord Mod.enqueueDue
  dsimp only []
  split
  · exact setRo _ _ _ _ (by decide)
  · repeat' split
    all_goals exact ⟨rfl, rfl, rfl, rfl, rfl, rfl, rfl, rfl⟩

theorem recordBehind (m : Mod) : m.KeepsFlight m.recordBehind := by
  unfold Mod.recordBehind
  exact iteInduction (fun _ => (setTime ..).trans (logGal ..)) (fun _ => refl m)

theorem servoFlight (m : Mod) : m.KeepsFlight m.servoFlight := by
  unfold Mod.servoFlight
  dsimp only []
  split
  · exact recordBehind m
  · repeat' split
    · exact refl m
    · exact setTime ..
    · exact (setTime ..).trans (setRo _ _ _ _ (by decide))

theorem heartbeats (m : Mod) : m.KeepsFlight m.heartbeats := by
  refine overAll_keeps refl trans _ (fun _ _ => ?_) m
  exact ⟨rfl, rfl, rfl, rfl, rfl, rfl, rfl, rfl⟩

theorem ringFlight (m : Mod) : m.KeepsFlight m.ringFlight := by
  unfold Mod.ringFlight
  extract_lets w m1
  split
  · split
    · exact refl m
    · exact (setSwitch ..).trans (setRo _ _ _ _ (by decide))
  · have hring : m.KeepsFlight m1 := by
      dsimp only [m1]
      split
      · exact (setSwitch ..).trans (setRo _ _ _ _ (by decide))
      · exact setSwitch ..
    exact hring.trans ⟨rfl, rfl, rfl, rfl, rfl, rfl, rfl, rfl⟩

theorem setEach (m : Mod) (idx sub : Nat) (l : List Nat) (h : 0x1501 ≤ idx) : m.KeepsFlight (m.setEach idx sub l) :=
  overAll_keeps refl trans _ (fun _ _ => setRo _ _ _ _ (by simp only [okey]; omega)) m

theorem measure (m : Mod) (i : FlightIn) : m.KeepsFlight (m.measure i) := by
  unfold Mod.measure
  extract_lets m1 charging m2 m3
  have hboard : m.KeepsFlight m1 :=
    (((setRo _ _ _ _ (by decide)).trans (setRo _ _ _ _ (by decide))).trans (setRo _ _ _ _ (by decide))).trans
      (setRo _ _ _ _ (by decide))
  have hflags : m1.KeepsFlight m2 := setRo _ _ _ _ (by decide)
  have htiles : m2.KeepsFlight m3 := by
    refine (trans ?_ (setEach _ _ _ _ (by omega))).trans (setRo _ _ _ _ (by decide))
    split
    · exact refl _
    · exact setEach _ _ _ _ (by omega)
  exact ((hboard.trans hflags).trans htiles).trans (setRo _ _ _ _ (by decide))

theorem ringRate (m : Mod) (f : Nat) : m.KeepsFlight (m.ringRate f) := by
  unfold Mod.ringRate
  split
  · exact (setRo _ _ _ _ (by decide)).trans ⟨rfl, rfl, rfl, rfl, rfl, rfl, rfl, rfl⟩
  · exact refl m

end Mod.KeepsFlight

/-! ### The work of a flight boundary -/

/-- The module at a flight boundary once the write of the flight's checkpoint has begun. -/
def Mod.flightBegun (m : Mod) : Mod :=
  if m.leaves then { m with flown := some (m.tread / 100) }
  else { m with flown := some (m.tread / 100) }.startCheckpoint (m.tread / 100 - 1) false

/-- What follows the checkpoint at a flight boundary, up to the count of the operating time. -/
theorem flight_eq {m : Mod} (i : FlightIn) (hlife : m.life = .run) (htread : m.tread % 100 = 0)
    (hflown : m.flown ≠ some (m.tread / 100)) :
    m.flight i = ((((m.flightBegun.mapPass.servoFlight.heartbeats.ringFlight).measure i).timeTo (m.tread / 100)).ringRate
      (m.tread / 100)) := by
  have hserving : m.serving = true := by simp [Mod.serving, hlife]
  unfold Mod.flight
  extract_lets f m1 m2 m3
  rw [if_neg (by simp [hserving, htread, hflown, f])]
  rfl

theorem flight_flown {m : Mod} (i : FlightIn) (h : m.flown = some (m.tread / 100)) : m.flight i = m := by
  unfold Mod.flight
  extract_lets f m1 m2 m3
  exact if_pos (Or.inr (Or.inr h))

theorem startCheckpoint_keeps (m : Mod) (f : Nat) (requested : Bool) :
    ∃ j, m.startCheckpoint f requested = m.setJournal j := by
  unfold Mod.startCheckpoint
  extract_lets j
  split
  · exact ⟨m.journal, rfl⟩
  · exact ⟨_, rfl⟩

theorem flightBegun_keeps (m : Mod) :
    ∃ j, m.flightBegun = { m with flown := some (m.tread / 100), journal := j } := by
  unfold Mod.flightBegun
  split
  · exact ⟨m.journal, rfl⟩
  · exact startCheckpoint_keeps ..

/-- The checkpoint of the flight that has ended is the one whose write begins (R17, R296). -/
theorem startCheckpoint_writing {m : Mod} {e : Saved × SMap Int} (f : Nat) (requested : Bool)
    (h : m.journal.ending = some e) :
    ∃ w, (m.startCheckpoint f requested).journal.writing = some w ∧ w.flight = f ∧ w.saved = e.1 ∧
      w.requested = requested ∧ w.delta = m.journal.ended ∧ w.final = m.journal.finalDue ∧
      (m.startCheckpoint f requested).journal.finalDue = false ∧
      (m.startCheckpoint f requested).journal.ending = none := by
  unfold Mod.startCheckpoint
  simp only [h]
  exact ⟨_, rfl, rfl, rfl, rfl, rfl, rfl, rfl, rfl⟩

theorem flightBegun_afterwards (m : Mod) (i : FlightIn) :
    m.flightBegun.KeepsFlight ((m.flightBegun.mapPass.servoFlight.heartbeats.ringFlight).measure i) :=
  ((((Mod.KeepsFlight.recorded (mapPass_recorded _)).trans (.servoFlight _)).trans (.heartbeats _)).trans
    (.ringFlight _)).trans (.measure _ i)

theorem timeTo_operating (m : Mod) (f : Nat) :
    (m.timeTo f).rov 0x1500 8 = (m.rov 0x1500 8 + (f - m.gal.counted)) % 2 ^ counterBits 0x1500 8 :=
  rov_bumpBy ..

/-- Settles O21: the second command finds that the flight's work is done. -/
theorem flightRunsOnce : Obligations.FlightRunsOnce := by
  unfold Obligations.FlightRunsOnce
  intro s i j hlife htread hflown
  obtain ⟨jn, hbegun⟩ := flightBegun_keeps s.m
  obtain ⟨hkt, hko, hks, hktr, hkj, hkf, hkc, hkop⟩ := flightBegun_afterwards s.m i
  obtain ⟨hrt, hro, hrs, hrtr, hrj, hrf, -, hrop⟩ := Mod.KeepsFlight.ringRate
    (((s.m.flightBegun.mapPass.servoFlight.heartbeats.ringFlight).measure i).timeTo (s.m.tread / 100)) (s.m.tread / 100)
  rw [← flight_eq i hlife htread hflown] at hrt hro hrs hrtr hrj hrf hrop
  have hjournal : (s.m.flight i).journal = s.m.flightBegun.journal := hrj.trans hkj
  have hft : (s.m.flight i).tread = s.m.tread := (hrt.trans hkt).trans (by rw [hbegun])
  have hff : (s.m.flight i).flown = some (s.m.tread / 100) := (hrf.trans hkf).trans (by rw [hbegun])
  refine ⟨_, rfl, hff, hft, ?_, ?_, (hro.trans hko).trans (by rw [hbegun]), (hrs.trans hks).trans (by rw [hbegun]),
    (hrtr.trans hktr).trans (by rw [hbegun]), ?_⟩
  · rw [hrop, timeTo_operating, hkop, hkc, hbegun]
    rfl
  · intro e hending hleaves
    rw [hjournal, Mod.flightBegun, if_neg (by simp [hleaves])]
    exact startCheckpoint_writing _ _ hending
  · exact congrArg (fun m => Host.Outcome.next { s with m := m }) (flight_flown j (by rw [hff, hft]))


/-! ### Resynchronisations (R138, R140) -/

theorem resync_frame (m : Mod) (pair : Nat) : (m.resync pair).ro = (m.setRo 0x2000 (3 + pair) 1).ro ∧
    (m.resync pair).objs = m.objs ∧ (m.resync pair).loops = m.loops := by
  unfold Mod.resync
  extract_lets m1
  split <;> exact ⟨rfl, rfl, rfl⟩

/-- The count of a pair's failures in a row, the only thing of the engine that a resynchronisation's end writes besides
the next attempt. -/
def Mod.setFails (m : Mod) (pair n : Nat) : Mod :=
  if pair = 0 then { m with engine := { m.engine with failsA := n } }
  else { m with engine := { m.engine with failsB := n } }

theorem setFails_frame (m : Mod) (pair n : Nat) :
    (m.setFails pair n).ro = m.ro ∧ (m.setFails pair n).objs = m.objs ∧ (m.setFails pair n).loops = m.loops := by
  unfold Mod.setFails
  split <;> exact ⟨rfl, rfl, rfl⟩

theorem resyncEnd_good {m : Mod} {pair : Nat} (hp : pair ≤ 1) (h : m.rov 0x2000 (3 + pair) = 1) :
    m.resyncEnd pair true = ((m.setRo 0x2000 (3 + pair) 0).setRo 0x2000 9
      ((m.tread - if pair = 0 then m.engine.startA else m.engine.startB) % 256)).setFails pair 0 := by
  unfold Mod.resyncEnd
  rw [if_neg (by simp [h]; omega)]
  rfl

theorem resyncEnd_bad {m : Mod} {pair : Nat} (hp : pair ≤ 1) (h : m.rov 0x2000 (3 + pair) = 1) :
    m.resyncEnd pair false =
      if 3 ≤ (if pair = 0 then m.engine.failsA else m.engine.failsB) + 1 then
        (m.setRo 0x2000 (3 + pair) 2).setFails pair 0
      else (m.resync pair).setFails pair ((if pair = 0 then m.engine.failsA else m.engine.failsB) + 1) := by
  unfold Mod.resyncEnd
  rw [if_neg (by simp [h]; omega)]
  rfl

theorem rov_congr {m n : Mod} (h : m.ro = n.ro) (idx sub : Nat) : m.rov idx sub = n.rov idx sub :=
  congrArg (fun st => stGet st (okey 0 idx sub)) h

/-- Settles O20, by the three ways in which a resynchronisation ends. -/
theorem resynchronisationEnds : Obligations.ResynchronisationEnds := by
  unfold Obligations.ResynchronisationEnds
  intro s pair hlife hp h
  refine ⟨⟨_, exec_inService (·.resyncEnd pair true) rfl hlife, ?_⟩,
    ⟨_, exec_inService (·.resyncEnd pair false) rfl hlife, ?_⟩⟩
  · rw [resyncEnd_good hp h]
    obtain ⟨hro, hobjs, hloops⟩ := setFails_frame ((s.m.setRo 0x2000 (3 + pair) 0).setRo 0x2000 9
      ((s.m.tread - if pair = 0 then s.m.engine.startA else s.m.engine.startB) % 256)) pair 0
    refine ⟨(rov_congr hro ..).trans ?_, (rov_congr hro ..).trans (rov_setRo ..), hobjs, hloops, rfl⟩
    exact (rov_setRo_ne _ _ _ _ _ _ (by simp only [okey]; omega)).trans (rov_setRo ..)
  · rw [resyncEnd_bad hp h]
    generalize (if pair = 0 then s.m.engine.failsA else s.m.engine.failsB) + 1 = fails
    by_cases hthird : 3 ≤ fails
    · rw [if_pos hthird, if_neg (by omega)]
      obtain ⟨hro, hobjs, hloops⟩ := setFails_frame (s.m.setRo 0x2000 (3 + pair) 2) pair 0
      exact ⟨(rov_congr hro ..).trans (rov_setRo ..), hobjs, hloops, rfl⟩
    · rw [if_neg hthird, if_pos (by omega)]
      obtain ⟨hro, hobjs, hloops⟩ := setFails_frame (s.m.resync pair) pair fails
      obtain ⟨hsro, hsobjs, hsloops⟩ := resync_frame s.m pair
      exact ⟨(rov_congr (hro.trans hsro) ..).trans (rov_setRo ..), hobjs.trans hsobjs, hloops.trans hsloops, rfl⟩

/-! ### Checkpoints and configuration copies -/

theorem completeCheckpoint_slots {m : Mod} {w : Slot} (h : m.journal.writing = some w) :
    look m.completeCheckpoint.journal.slots (w.flight % 32) = some w ∧
      m.completeCheckpoint.journal.writing = none := by
  unfold Mod.completeCheckpoint
  simp only [h]
  split <;> exact ⟨look_put _ _ _, rfl⟩

theorem completeCheckpoint_reported {m : Mod} {w : Slot} (h : m.journal.writing = some w) :
    m.completeCheckpoint.rov 0x1200 0xD = 100 * w.flight + 99 := by
  unfold Mod.completeCheckpoint
  simp only [h]
  split
  · refine (rov_setRo_ne _ _ _ _ _ _ (by decide)).trans ?_
    exact rov_setRo (m.setJournal _) 0x1200 0xD (100 * w.flight + 99)
  · exact rov_setRo (m.setJournal _) 0x1200 0xD (100 * w.flight + 99)

theorem completeCheckpoint_keeps (m : Mod) :
    ∃ journal ro undo, m.completeCheckpoint = { m with journal := journal, ro := ro, undo := undo } := by
  unfold Mod.completeCheckpoint
  extract_lets j
  split
  · exact ⟨_, _, _, rfl⟩
  · extract_lets j1 m1 m2
    split <;> exact ⟨_, _, _, rfl⟩

/-- Settles O22: the configuration copy's case is the definition's own, read at a due copy. -/
theorem journalWrites : Obligations.JournalWrites := by
  unfold Obligations.JournalWrites
  constructor
  · intro s w hlife hw
    obtain ⟨hslot, hnone⟩ := completeCheckpoint_slots hw
    obtain ⟨_, _, _, hkeeps⟩ := completeCheckpoint_keeps s.m
    refine ⟨_, exec_inService (·.completeCheckpoint) rfl hlife, hslot, hnone, completeCheckpoint_reported hw,
      ?_, ?_, ?_, ?_, ?_⟩
    all_goals exact (congrArg _ hkeeps).trans rfl
  · intro s hlife hdue
    refine (exec_inService (·.writeCopy) rfl hlife).trans (congrArg (fun m => Host.Outcome.next (s.withMod m)) ?_)
    unfold Mod.writeCopy
    extract_lets j c
    rw [if_neg hdue]
    simp only [Bool.not_eq_true', apply_ite s.m.setJournal]
    rfl

/-! ### Tiles and waiting entries (R21, R22, R78) -/

/-- What the work after a tile's wake writes: the inputs' windows, the converters and the streams of its maps. -/
def Mod.Restarts (m n : Mod) : Prop :=
  ∃ ro inputs convs streams, n = { m with ro := ro, inputs := inputs, convs := convs, streams := streams }

theorem Mod.Restarts.refl (m : Mod) : m.Restarts m := ⟨_, _, _, _, rfl⟩

theorem Mod.Restarts.trans {m n k : Mod} (h : m.Restarts n) (g : n.Restarts k) : m.Restarts k := by
  obtain ⟨_, _, _, _, rfl⟩ := h
  obtain ⟨ro, inputs, convs, streams, rfl⟩ := g
  exact ⟨ro, inputs, convs, streams, rfl⟩

theorem Mod.Restarts.tiles {m n : Mod} (h : m.Restarts n) : n.tiles = m.tiles := by
  obtain ⟨_, _, _, _, rfl⟩ := h
  rfl

theorem restartTile_restarts (m : Mod) (tile : Nat) (since : Tread) : m.Restarts (m.restartTile tile since) := by
  have hwindows := overAll_keeps Mod.Restarts.refl .trans (List.range 32) (f := fun m i =>
    (m.restartWindow (32 * tile + i) since).setRoBit (0x3000 + 32 * tile + i) 8 4 true)
    (fun n i => ⟨_, _, _, _, rfl⟩) m
  refine hwindows.trans (overAll_keeps Mod.Restarts.refl .trans _ (fun n i => ?_) _)
  split <;> exact ⟨_, _, _, _, rfl⟩

theorem mapChanged_restarts (m : Mod) (s : Nat) (t : Tread) : m.Restarts (m.mapChanged s t) := ⟨_, _, _, _, rfl⟩

theorem inputMaps_restarts (m : Mod) (l : List Nat) (t : Tread) : m.Restarts (m.inputMaps l t) := by
  unfold Mod.inputMaps
  extract_lets m1
  have hfirst : m.Restarts m1 := iteInduction (fun _ => mapChanged_restarts ..) (fun _ => .refl m)
  exact iteInduction (fun _ => hfirst.trans (mapChanged_restarts ..)) (fun _ => hfirst)

theorem linkMap_restarts (m : Mod) (tile : Nat) (t : Tread) : m.Restarts (m.linkMap tile t) :=
  iteInduction (fun _ => mapChanged_restarts ..) (fun _ => .refl m)

theorem wakeTile_tiles {m : Mod} {k : Nat} (h : tb m.tiles.waking k = true) :
    (m.wakeTile k).tiles =
      { m.tiles with awake := setBit m.tiles.awake k true, waking := setBit m.tiles.waking k false } := by
  unfold Mod.wakeTile
  rw [if_neg (by simp [h])]
  split
  · exact ((restartTile_restarts ..).trans (inputMaps_restarts ..)).tiles
  · split
    · exact (linkMap_restarts ..).tiles
    · split <;> rfl

theorem rov_chainPut {m : Mod} (stream : Nat) (packet : List Nat) (tail : Nat) {idx sub : Nat} (h : idx < 0x3860) :
    (m.chainPut stream packet tail).rov idx sub = m.rov idx sub := by
  unfold Mod.chainPut
  dsimp only []
  repeat' split
  any_goals rfl
  all_goals exact rov_bumpBy_ne _ _ _ _ _ _ (by simp only [okey]; omega)

/-- An entry that meets a gated tile: it waits, and is counted (R21). -/
theorem lateWake_waits {m : Mod} {k n x c : Nat} (hnext : (m.track k).next = some (.enter n x c))
    (hmust : m.mustWait (.enter n x c) = true) :
    (m.lateWake k).track k = { m.track k with next := none, wait := some (.enter n x c) } ∧
      (m.lateWake k).rov 0x1200 5 = (m.rov 0x1200 5 + 1) % 2 ^ 32 := by
  unfold Mod.lateWake
  simp only [hnext, hmust, if_true]
  exact ⟨((chainPut_reports ..).track k).trans (track_setTrack ..), (rov_chainPut _ _ _ (by omega)).trans (rov_bumpBy ..)⟩

/-- Where no entry is to be made that must wait, a check for gated tiles changes nothing. -/
theorem lateWake_stays {m : Mod} {k : Nat} (h : ∀ tr, (m.track k).next = some tr → m.mustWait tr = false) :
    m.lateWake k = m := by
  unfold Mod.lateWake
  extract_lets s
  split
  case h_1 n x c hnext => exact if_neg (by simp [h _ hnext])
  case h_2 => rfl

theorem wokenEntry_of_next {m : Mod} {k : Nat} {tr : Trans} (h : (m.track k).next = some tr) : m.wokenEntry k = m := by
  unfold Mod.wokenEntry
  simp only [h]

theorem wokenEntry_goes {m : Mod} {k : Nat} {tr : Trans} (hnext : (m.track k).next = none)
    (hwait : (m.track k).wait = some tr) (hruns : (m.track k).state = 1) (hmust : m.mustWait tr = false) :
    m.wokenEntry k = m.setTrack k { m.track k with next := some tr, wait := none } := by
  unfold Mod.wokenEntry
  simp [hnext, hwait, hruns, hmust]

theorem wokenEntry_waits {m : Mod} {k : Nat} {tr : Trans} (hnext : (m.track k).next = none)
    (hwait : (m.track k).wait = some tr) (h : (m.track k).state ≠ 1 ∨ m.mustWait tr = true) : m.wokenEntry k = m := by
  unfold Mod.wokenEntry
  simp only [hnext, hwait]
  exact if_pos h

/-- Settles O23: a tile's wake, an entry that waits, and one that goes on or still waits. -/
theorem tilesAndEntries : Obligations.TilesAndEntries := by
  unfold Obligations.TilesAndEntries
  intro s k hlife
  have hrun : exec (.lateWake k) s = .next (s.withMod ((s.m.wokenEntry k).lateWake k)) :=
    exec_inService (fun m => (m.wokenEntry k).lateWake k) rfl hlife
  refine ⟨fun hwaking => ?_, fun n x c hnext hmust => ?_, fun tr hnext hwait => ⟨fun hruns hmust => ?_, fun h => ?_⟩⟩
  · exact ⟨_, exec_inService (·.wakeTile k) rfl hlife, congrArg TileSt.awake (wakeTile_tiles hwaking),
      congrArg TileSt.waking (wakeTile_tiles hwaking)⟩
  · rw [wokenEntry_of_next hnext] at hrun
    exact ⟨_, hrun, lateWake_waits hnext hmust⟩
  · have htrack : (s.m.wokenEntry k).track k = { s.m.track k with next := some tr, wait := none } := by
      rw [wokenEntry_goes hnext hwait hruns hmust]
      exact track_setTrack ..
    have hstays : (s.m.wokenEntry k).lateWake k = s.m.wokenEntry k := by
      refine lateWake_stays fun tr' h' => ?_
      obtain rfl : tr = tr' := by rw [htrack] at h'; exact Option.some.inj h'
      rw [wokenEntry_goes hnext hwait hruns hmust]
      exact hmust
    exact ⟨_, hrun, (congrArg (fun m : Mod => m.track k) hstays).trans htrack⟩
  · rw [hrun, wokenEntry_waits hnext hwait h, lateWake_stays (by simp [hnext])]
    rfl

end Sys2Proof.Machine
end

section
/-! PROOFS. The stairwell: exits of a step, delayed actions, pulses and validation. -/

namespace Sys2Proof.Machine

/-! ### Decisions about a track -/

/-- A module in which something has been decided about one track: other tracks stay, and beside the tracks only objects
that report are written. -/
def Mod.Decides (m : Mod) (t : Nat) (n : Mod) : Prop :=
  (∃ ro tracks, n = { m with ro := ro, tracks := tracks }) ∧ ∀ x, x ≠ t → n.track x = m.track x

namespace Mod.Decides
variable {m n k : Mod} {t : Nat}

theorem refl (m : Mod) (t : Nat) : m.Decides t m := ⟨⟨_, _, rfl⟩, fun _ _ => rfl⟩

theorem trans (h : m.Decides t n) (g : n.Decides t k) : m.Decides t k := by
  obtain ⟨⟨_, _, rfl⟩, hx⟩ := h
  obtain ⟨⟨ro, tracks, rfl⟩, gx⟩ := g
  exact ⟨⟨ro, tracks, rfl⟩, fun x hne => (gx x hne).trans (hx x hne)⟩

theorem setTrack (m : Mod) (t : Nat) (v : TrackSt) : m.Decides t (m.setTrack t v) :=
  ⟨⟨_, _, rfl⟩, fun _ hne => track_setTrack_ne _ _ _ _ hne.symm⟩

theorem bump (m : Mod) (t idx sub : Nat) : m.Decides t (m.bump idx sub) := ⟨⟨_, _, rfl⟩, fun _ _ => rfl⟩

theorem decideLand (m : Mod) (t cause : Nat) : m.Decides t (m.decideLand t cause) := by
  unfold Mod.decideLand
  extract_lets s l ok n
  have hcount : m.Decides t n := iteInduction (fun _ => refl m t) (fun _ => bump m t _ _)
  exact hcount.trans (setTrack n t _)

theorem decideEnter (m : Mod) (t step exit clear : Nat) : m.Decides t (m.decideEnter t step exit clear) :=
  iteInduction (fun _ => setTrack m t _) (fun _ => (bump m t _ _).trans (decideLand _ t 8))

theorem takeTimeout (m : Mod) (t : Nat) : m.Decides t (m.takeTimeout t) :=
  iteInduction (fun _ => decideLand m t 3) (fun _ => decideEnter m t _ 4 0)

theorem chooseExit (m : Mod) (t : Nat) (fault qa qb : Bool) : m.Decides t (m.chooseExit t fault qa qb) := by
  unfold Mod.chooseExit
  repeat' split
  · exact decideLand ..
  · exact takeTimeout ..
  · exact refl ..
  · exact decideEnter ..
  · exact decideEnter ..
  · exact decideEnter ..
  · exact takeTimeout ..
  · exact refl ..

end Mod.Decides

/-- The landing of a track that leaves its step with a cause (R74, R76). -/
def Mod.landsWith (m : Mod) (t cause : Nat) : Trans :=
  .land (m.landingOf t (m.track t).step) cause (m.landingOk (m.landingOf t (m.track t).step))

/-- What is decided for a track that is to enter a step: the entry, or its landing where the step's CRC fails (R61). -/
def Mod.entersWith (m : Mod) (t step exit clear : Nat) : Trans :=
  if m.stepOk step then .enter step exit clear else m.landsWith t 8

/-- What the timeout of a step comes to (R65). -/
def Mod.timesOutWith (m : Mod) (t : Nat) : Trans :=
  let target := bits (wordOf (m.stepE (m.track t).step) 3) 16 16
  if target = 0xFFFF then m.landsWith t 3 else m.entersWith t target 4 0

/-- What the exit through a group comes to. -/
def Mod.leavesThrough (m : Mod) (t g : Nat) : Trans :=
  m.entersWith t (bits (wordOf (m.stepE (m.track t).step) 4) (16 * g) 16) (2 + g)
    (groupClears (m.stepE (m.track t).step) g)

/-- What the duration of a step comes to. -/
def Mod.lastsWith (m : Mod) (t : Nat) : Trans :=
  m.entersWith t (bits (wordOf (m.stepE (m.track t).step) 3) 0 16) 1 0

/-- The first exit of R65's list that is due. -/
def Mod.exitOf (m : Mod) (t : Nat) (fault qa qb : Bool) : Option Trans :=
  if fault then some (m.landsWith t 5)
  else if (m.track t).wait.isSome then (if m.timeoutDue t then some (m.timesOutWith t) else none)
  else if qa then some (m.leavesThrough t 0)
  else if qb then some (m.leavesThrough t 1)
  else if m.durationDue t then some (m.lastsWith t)
  else if m.timeoutDue t then some (m.timesOutWith t)
  else none

/-- A track for which a transition has been decided, where there is one. -/
def TrackSt.decided (s : TrackSt) (x : Option Trans) : TrackSt :=
  match x with
  | some tr => { s with next := some tr, wait := none }
  | none => s

theorem track_decideEnter (m : Mod) (t step exit clear : Nat) :
    (m.decideEnter t step exit clear).track t = (m.track t).decided (some (m.entersWith t step exit clear)) := by
  unfold Mod.entersWith
  cases h : m.stepOk step
  case true => rw [decideEnter_good m t step exit clear h, track_setTrack]; rfl
  case false =>
    rw [decideEnter_bad m t step exit clear h, track_decideLand, landingOf_bump, landingOk_bump]
    rfl

theorem track_takeTimeout (m : Mod) (t : Nat) :
    (m.takeTimeout t).track t = (m.track t).decided (some (m.timesOutWith t)) := by
  unfold Mod.takeTimeout Mod.timesOutWith
  dsimp only []
  split
  · exact track_decideLand m t 3
  · exact track_decideEnter ..

/-- The exit chosen is the one that `exitOf` names. -/
theorem track_chooseExit (m : Mod) (t : Nat) (fault qa qb : Bool) :
    (m.chooseExit t fault qa qb).track t = (m.track t).decided (m.exitOf t fault qa qb) := by
  unfold Mod.chooseExit Mod.exitOf
  repeat' split
  · exact track_decideLand m t 5
  · exact track_takeTimeout ..
  · rfl
  · exact track_decideEnter ..
  · exact track_decideEnter ..
  · exact track_decideEnter ..
  · exact track_takeTimeout ..
  · rfl

/-! ### The evaluation of a running track -/

/-- A track whose groups have been counted in a tread. -/
def Mod.countedTrack (m w : Mod) (t : Nat) : TrackSt :=
  { m.track t with seen := some m.tread, refused := false, countA := m.countNow w t 0, countB := m.countNow w t 1 }

/-- The module once the groups of a track have been counted (R60 step 4). -/
def Mod.counts (m w : Mod) (t : Nat) : Mod :=
  (m.setTrack t { m.track t with seen := some m.tread, refused := false }).setTrack t (m.countedTrack w t)

theorem track_counts (m w : Mod) (t : Nat) : (m.counts w t).track t = m.countedTrack w t := track_setTrack ..

theorem counts_decides (m w : Mod) (t : Nat) : m.Decides t (m.counts w t) :=
  (Mod.Decides.setTrack ..).trans (.setTrack ..)

/-- The exit that is due does not depend on the counts. -/
theorem exitOf_counts (m w : Mod) (t : Nat) (fault qa qb : Bool) :
    (m.counts w t).exitOf t fault qa qb = m.exitOf t fault qa qb := by
  have hbank : (m.counts w t).bank = m.bank := rfl
  unfold Mod.exitOf Mod.landsWith Mod.timesOutWith Mod.leavesThrough Mod.lastsWith Mod.entersWith Mod.landsWith
    Mod.timeoutDue Mod.durationDue Mod.landingOf Mod.landingOk Mod.stepOk Mod.kindOf Mod.stepE Mod.landingE
  rw [track_counts, hbank]
  rfl

theorem toEvaluate_iff (m : Mod) (t : Nat) : m.toEvaluate t = true ↔
    (m.track t).state = 1 ∧ (m.track t).step ≠ 0xFFFF ∧ (m.track t).next = none ∧ (m.track t).seen ≠ some m.tread :=
  decide_eq_true_iff

theorem evalNow_eq {m : Mod} {t : Nat} (h : m.toEvaluate t = true) :
    m.evalNow t =
      let n := (m.counts m.frozen t).chooseExit t (m.frozen.faultOf t) (m.qualifies m.frozen t 0) (m.qualifies m.frozen t 1)
      n.setTrack t { n.track t with catchUp := false } := by
  obtain ⟨hstate, hstep, -, hseen⟩ := (toEvaluate_iff m t).mp h
  unfold Mod.evalNow Mod.evalTrack
  extract_lets s fault m1
  have htrack : m1.track t = { m.track t with seen := some m.tread, refused := false } := track_setTrack ..
  have hcounted : { m1.track t with countA := m1.countNow m.frozen t 0, countB := m1.countNow m.frozen t 1 } =
      m.countedTrack m.frozen t := by
    unfold Mod.countNow Mod.groupNow Mod.stepE
    rw [htrack]
    rfl
  have hqualifies : ∀ g, m1.qualifies m.frozen t g = m.qualifies m.frozen t g := by
    intro g
    unfold Mod.qualifies Mod.settles Mod.countNow Mod.groupNow Mod.stepE
    rw [htrack]
    rfl
  rw [if_neg hseen]
  simp only [s, hstate]
  rw [if_neg hstep]
  unfold Mod.evalGroups
  rw [hcounted, hqualifies, hqualifies]
  rfl

/-- What the evaluation of a running track leaves of it. -/
theorem track_evalNow {m : Mod} {t : Nat} (h : m.toEvaluate t = true) :
    (m.evalNow t).track t =
      { (m.countedTrack m.frozen t).decided (m.exitOf t (m.frozen.faultOf t) (m.qualifies m.frozen t 0)
          (m.qualifies m.frozen t 1)) with catchUp := false } := by
  rw [evalNow_eq h, track_setTrack, track_chooseExit, track_counts, exitOf_counts]

theorem evalNow_decides {m : Mod} {t : Nat} (h : m.toEvaluate t = true) : m.Decides t (m.evalNow t) := by
  rw [evalNow_eq h]
  exact ((counts_decides ..).trans (.chooseExit ..)).trans (.setTrack ..)


/-! ### Exits of a step (R60 to R66) -/

/-- What an evaluation that decides a transition comes to, as the statement lists it. -/
structure Mod.Decided (m n : Mod) (k : Nat) (tr : Trans) : Prop where
  next : (n.track k).next = some tr
  step : (n.track k).step = (m.track k).step
  state : (n.track k).state = 1
  seen : (n.track k).seen = some m.tread
  objs : n.objs = m.objs
  field : n.field = m.field
  loops : n.loops = m.loops
  axes : n.axes = m.axes
  others : ∀ x, x ≠ k → n.track x = m.track x

theorem evalNow_decided {m : Mod} {k : Nat} {tr : Trans} (h : m.toEvaluate k = true)
    (hexit : m.exitOf k (m.frozen.faultOf k) (m.qualifies m.frozen k 0) (m.qualifies m.frozen k 1) = some tr) :
    m.Decided (m.evalNow k) k tr := by
  have htrack := track_evalNow h
  rw [hexit] at htrack
  obtain ⟨⟨ro, tracks, heq⟩, hothers⟩ := evalNow_decides h
  exact ⟨by rw [htrack]; rfl, by rw [htrack]; rfl, by rw [htrack]; exact ((toEvaluate_iff m k).mp h).1,
    by rw [htrack]; rfl, by rw [heq], by rw [heq], by rw [heq], by rw [heq], hothers⟩

theorem exitOf_fault (m : Mod) (t : Nat) (qa qb : Bool) : m.exitOf t true qa qb = some (m.landsWith t 5) := rfl

/-- A group that has settled qualifies for its exit. -/
theorem qualifies_of_settles {m w : Mod} {t g : Nat} (h : m.settles w t g = true) : m.qualifies w t g = true := by
  simp [Mod.qualifies, h]

theorem exitOf_group {m : Mod} {t g : Nat} {qa qb : Bool} (hg : g ≤ 1) (hwait : (m.track t).wait = none)
    (ha : g = 0 → qa = true) (hb : g = 1 → qa = false ∧ qb = true) :
    m.exitOf t false qa qb = some (m.leavesThrough t g) := by
  obtain rfl | rfl : g = 0 ∨ g = 1 := by omega
  · simp [Mod.exitOf, hwait, ha rfl]
  · simp [Mod.exitOf, hwait, hb rfl]

theorem exitOf_duration {m : Mod} {t : Nat} (hwait : (m.track t).wait = none) (h : m.durationDue t = true) :
    m.exitOf t false false false = some (m.lastsWith t) := by
  simp [Mod.exitOf, hwait, h]

theorem exitOf_timeout {m : Mod} {t : Nat} {qa qb : Bool} (h : m.timeoutDue t = true)
    (hlast : (m.track t).wait ≠ none ∨ (qa = false ∧ qb = false ∧ m.durationDue t = false)) :
    m.exitOf t false qa qb = some (m.timesOutWith t) := by
  by_cases hwait : (m.track t).wait = none
  · obtain ⟨rfl, rfl, hduration⟩ := hlast.resolve_left (not_not_intro hwait)
    simp [Mod.exitOf, hwait, hduration, h]
  · simp [Mod.exitOf, Option.isSome_iff_ne_none.mpr hwait, h]

/-- Settles O24: the evaluation of the tread decides the first exit of the list that is due, whichever of the three
commands asks for it. -/
theorem stepExits : Obligations.StepExits := by
  unfold Obligations.StepExits
  intro s k hlife heval e w lands enters answers
  have hanswers : ∀ {c : Instr} {tr : Trans} (f : Mod → Mod), exec c s = s.inService f → f s.m = s.m.evalNow k →
      s.m.exitOf k (w.faultOf k) (s.m.qualifies w k 0) (s.m.qualifies w k 1) = some tr → answers c (some tr) := by
    intro c tr f hexec hf hexit
    obtain ⟨hnext, hstep, hstate, hseen, hobjs, hfield, hloops, haxes, hothers⟩ := evalNow_decided heval hexit
    refine ⟨_, exec_inService f hexec hlife, ?_⟩
    rw [hf]
    exact ⟨hnext, hstep, hstate, hseen, hobjs, hfield, hloops, haxes, hothers⟩
  have henters : ∀ target exit clear, enters target exit clear = some (s.m.entersWith k target exit clear) :=
    fun _ _ _ => (apply_ite some ..).symm
  have hduration : (s.m.track k).wait = none → s.m.durationDue k = true → s.m.durationExit k = s.m.evalNow k :=
    fun hwait hdue => by simp [Mod.durationExit, heval, hwait, hdue]
  have htimeout : s.m.timeoutDue k = true → s.m.timeoutExit k = s.m.evalNow k :=
    fun hdue => by simp [Mod.timeoutExit, heval, hdue]
  have hsettle : (s.m.track k).wait = none → s.m.settles w k 0 = true ∨ s.m.settles w k 1 = true →
      s.m.settleExit k = s.m.evalNow k :=
    fun hwait hset => by simpa [Mod.settleExit, heval, hwait] using fun h0 h1 => absurd hset (by simp [w, h0, h1])
  refine ⟨fun hfault => ⟨fun hwait hdue ha hb => ?_, fun hdue hlast => ?_, fun g hg hwait hset ha => ?_⟩,
    fun hfault => ⟨fun hwait hdue => ?_, fun hdue => ?_, fun hwait hset => ?_⟩⟩
  · rw [henters]
    exact hanswers (·.durationExit k) rfl (hduration hwait hdue) (by rw [hfault, ha, hb]; exact exitOf_duration hwait hdue)
  · have htimes : (if bits (wordOf e 3) 16 16 = 0xFFFF then lands 3 else enters (bits (wordOf e 3) 16 16) 4 0) =
        some (s.m.timesOutWith k) := by
      rw [henters]
      exact (apply_ite some ..).symm
    rw [htimes]
    exact hanswers (·.timeoutExit k) rfl (htimeout hdue) (by rw [hfault]; exact exitOf_timeout hdue hlast)
  · rw [henters]
    refine hanswers (·.settleExit k) rfl (hsettle hwait ?_) ?_
    · obtain rfl | rfl : g = 0 ∨ g = 1 := by omega
      · exact .inl hset
      · exact .inr hset
    · rw [hfault]
      refine exitOf_group hg hwait ?_ ?_
      · rintro rfl
        exact qualifies_of_settles hset
      · rintro rfl
        exact ⟨ha rfl, qualifies_of_settles hset⟩
  · exact hanswers (·.durationExit k) rfl (hduration hwait hdue) (by rw [hfault]; exact exitOf_fault ..)
  · exact hanswers (·.timeoutExit k) rfl (htimeout hdue) (by rw [hfault]; exact exitOf_fault ..)
  · exact hanswers (·.settleExit k) rfl (hsettle hwait hset) (by rw [hfault]; exact exitOf_fault ..)


/-! ### Delayed actions (R67) -/

/-- An action that sets a host event flag sets the flag's object. -/
theorem applyAction_flag {m : Mod} {b : Bank} {t step i f : Nat} (hop : actOp (b.action i) = 0xD)
    (htgt : actTgt (b.action i) = 0xB60 + f) (hgood : b.operandGood (b.action i) = true) :
    m.applyAction b t step i = m.wr (byStep t) 0x4011 (f + 1) 1 := by
  have hsub : 0xB60 + f - 0xB60 + 1 = f + 1 := by omega
  unfold Mod.applyAction Mod.stepAction Mod.simpleAction Mod.plainAction
  simp only [hop, htgt, hgood, hsub]
  rfl

theorem delayedNow_inStep {m : Mod} {k : Nat} (h : (m.track k).inStep = true) :
    m.delayedNow k = (m.actsUpTo k ((m.track k).timer - 1)).foldl
      (fun n i => n.applyAction n.bank k (m.track k).step i)
      (m.setTrack k { m.track k with acted := Max.max (m.track k).acted ((m.track k).timer - 1) }) := by
  unfold Mod.delayedNow Mod.delayedUpTo
  exact if_neg (by simp [h])

theorem delayedNow_flag {m : Mod} {k i f : Nat} (h : (m.track k).inStep = true)
    (hacts : m.actsUpTo k ((m.track k).timer - 1) = [i]) (hop : actOp (m.bank.action i) = 0xD)
    (htgt : actTgt (m.bank.action i) = 0xB60 + f) (hgood : m.bank.operandGood (m.bank.action i) = true) :
    m.delayedNow k =
      (m.setTrack k { m.track k with acted := Max.max (m.track k).acted ((m.track k).timer - 1) }).wr (byStep k)
        0x4011 (f + 1) 1 := by
  rw [delayedNow_inStep h, hacts]
  exact applyAction_flag (b := m.bank) hop htgt hgood

/-! ### Pulses (R67) -/

theorem pulseEnd_due {m : Mod} {k : Nat}
    (h : (m.pulses.any fun p => decide (p.out = m.lead k ∧ p.ends ≤ m.tread)) = true) :
    m.pulseEnd k = m.setDo byPulse k 0 :=
  if_pos h

/-- A command for an output ends the pulse on it. -/
theorem setDo_pulses (m : Mod) (who o v : Nat) : ∀ p ∈ (m.setDo who o v).pulses, p.out ≠ m.lead o := by
  intro p hp
  simpa using (List.mem_filter.mp hp).2

/-! ### Validation (R99) -/

/-- What follows the end of a validation keeps: the bank in force, the tracks and the partners' objects, and the state of
the shadow bank with the error that it reports. -/
structure Mod.KeepsImage (m n : Mod) : Prop where
  bank : n.bank = m.bank
  tracks : n.tracks = m.tracks
  objs : n.objs = m.objs
  reports : ∀ sub, n.rov 0x4020 sub = m.rov 0x4020 sub

namespace Mod.KeepsImage

theorem refl (m : Mod) : m.KeepsImage m := ⟨rfl, rfl, rfl, fun _ => rfl⟩

theorem trans {m n k : Mod} (h : m.KeepsImage n) (g : n.KeepsImage k) : m.KeepsImage k :=
  ⟨g.bank.trans h.bank, g.tracks.trans h.tracks, g.objs.trans h.objs, fun sub => (g.reports sub).trans (h.reports sub)⟩

theorem setRo (m : Mod) (idx sub v : Nat) (h : idx < 0x4020) : m.KeepsImage (m.setRo idx sub v) := by
  have hrov : ∀ r, (m.setRo idx sub v).rov 0x4020 r = m.rov 0x4020 r :=
    fun r => rov_setRo_ne _ _ _ _ _ _ (by simp only [okey]; omega)
  exact ⟨congrArg m.bankNo (hrov 1), rfl, rfl, hrov⟩

theorem loadDropped (m : Mod) (f : FirmwareSt) : m.KeepsImage { m with firmware := f } :=
  ⟨rfl, rfl, rfl, fun _ => rfl⟩

theorem orphaned (m : Mod) (o : Nat) : m.KeepsImage { m with orphans := o } := ⟨rfl, rfl, rfl, fun _ => rfl⟩

/-- A grant that ends drops an image only while the shadow bank is being written. -/
theorem endGrant {m : Mod} (slot : Nat) (h : m.rov 0x4020 7 ≠ 1) : m.KeepsImage (m.endGrant slot) := by
  unfold Mod.endGrant
  extract_lets g m1 idle firmware m2
  have hshadow : m1 = m := if_neg fun hbusy => h hbusy.2
  have hfirmware : m1.KeepsImage m2 := iteInduction
    (fun _ => (setRo m1 0x1620 6 0 (by omega)).trans (loadDropped idle _)) (fun _ => refl m1)
  rw [hshadow] at hfirmware
  have hemptied : m2.KeepsImage (m2.setRo 0x1600 (0x0F + slot) 0) := setRo m2 0x1600 _ 0 (by omega)
  exact (hfirmware.trans hemptied).trans (orphaned (m2.setRo 0x1600 (0x0F + slot) 0) (setBit m2.orphans (slot - 1) false))

theorem freeLost {m : Mod} (h : m.rov 0x4020 7 ≠ 1) : m.KeepsImage m.freeLost := by
  suffices hall : ∀ (l : List (Nat × Nat)) (n : Mod), n.rov 0x4020 7 ≠ 1 → n.KeepsImage (overAll l (fun m g =>
      if !tb m.orphans g.1 ∨ m.operating (g.2 % 2 ^ 32) then m else m.endGrant (g.1 + 1)) n) from hall m.grants m h
  intro l
  induction l with
  | nil => exact fun n _ => refl n
  | cons g l ih =>
    intro n hn
    have hstep : n.KeepsImage (if !tb n.orphans g.1 ∨ n.operating (g.2 % 2 ^ 32) then n else n.endGrant (g.1 + 1)) :=
      iteInduction (fun _ => refl n) (fun _ => endGrant _ hn)
    exact hstep.trans (ih _ (by rw [hstep.reports]; exact hn))

end Mod.KeepsImage

/-- The image that a validation finds. -/
def Mod.imageFound (m : Mod) : Option Fail × Bank :=
  validateImage m.load (m.rov 0x4021 6) (m.cfg 0x4021 3) (m.cfg 0x4021 2)

/-- A shadow bank's contents are not those in force. -/
theorem setShadow_bank (m : Mod) (b : Bank) : (m.setShadow b).bank = m.bank := by
  have hrov : (m.setShadow b).rov 0x4020 1 = m.rov 0x4020 1 := by unfold Mod.setShadow; split <;> rfl
  unfold Mod.bank
  rw [hrov]
  unfold Mod.setShadow Mod.shadowIsB
  match m.rov 0x4020 1 with
  | 0 => rfl
  | 1 => rfl
  | _ + 2 => rfl

/-- The end of a validation in its parts: the shadow bank's contents, its state and the error (R99). -/
theorem endValidation_eq {m : Mod} (h : m.shadowState = 2) :
    m.endValidation =
      ((((m.setShadow m.imageFound.2).setRo 0x4020 7 (if m.imageFound.1.isNone then 3 else 4)).setRo 0x4020 8
        (m.imageFound.1.getD (0, 0, 0)).1).setRo 0x4020 9 (m.imageFound.1.getD (0, 0, 0)).2.1).setRo 0x4020 0xA
        (m.imageFound.1.getD (0, 0, 0)).2.2 :=
  if_neg (not_not_intro h)

theorem endValidation_bank {m : Mod} (h : m.shadowState = 2) : m.endValidation.bank = m.bank := by
  rw [endValidation_eq h, ← setShadow_bank m m.imageFound.2]
  refine congrArg (m.setShadow m.imageFound.2).bankNo ?_
  simp [rov_setRo_ne, okey]

theorem endValidation_keeps (m : Mod) : m.endValidation.tracks = m.tracks ∧ m.endValidation.objs = m.objs := by
  unfold Mod.endValidation Mod.setShadow
  dsimp only []
  repeat' split
  all_goals exact ⟨rfl, rfl⟩

theorem endValidation_reports {m : Mod} (h : m.shadowState = 2) :
    m.endValidation.rov 0x4020 7 = (if m.imageFound.1.isNone then 3 else 4) ∧
    m.endValidation.rov 0x4020 8 = (m.imageFound.1.getD (0, 0, 0)).1 ∧
    m.endValidation.rov 0x4020 9 = (m.imageFound.1.getD (0, 0, 0)).2.1 ∧
    m.endValidation.rov 0x4020 0xA = (m.imageFound.1.getD (0, 0, 0)).2.2 := by
  rw [endValidation_eq h]
  refine ⟨?_, ?_, ?_, rov_setRo ..⟩ <;> simp [rov_setRo_ne, okey]

theorem validationEnd_keeps {m : Mod} (hblock : m.blockIn 16 = false) (h : m.shadowState = 2) :
    m.endValidation.KeepsImage m.validationEnd := by
  have hstate : m.endValidation.rov 0x4020 7 ≠ 1 := by
    rw [(endValidation_reports h).1]
    split <;> decide
  unfold Mod.validationEnd
  rw [if_neg (by simp [hblock])]
  have hready : m.endValidation.KeepsImage { m.endValidation with reruns := setBit m.reruns 0 false } :=
    ⟨rfl, rfl, rfl, fun _ => rfl⟩
  exact hready.trans (Mod.KeepsImage.freeLost hstate)

/-- Settles O27: the evaluation at the end of a dwell, the delayed actions, the end of a pulse and of a validation. -/
theorem stairwellEvents : Obligations.StairwellEvents := by
  unfold Obligations.StairwellEvents
  intro s k hlife
  refine ⟨fun heval hkind hdwell => ?_, fun hin => ⟨?_, fun i f hacts hop htgt hgood => ?_⟩, fun hk hdue => ?_,
    fun hblock hshadow => ?_⟩
  · have hend : s.m.dwellEnd k = s.m.evalNow k := by simp [Mod.dwellEnd, heval, hkind, hdwell]
    obtain ⟨⟨_, _, hkeeps⟩, hothers⟩ := evalNow_decides heval
    have htrack := track_evalNow heval
    have hstate := ((toEvaluate_iff s.m k).mp heval).1
    refine ⟨_, exec_inService (·.dwellEnd k) rfl hlife, ?_⟩
    rw [hend]
    change ((s.m.evalNow k).track k).seen = _ ∧ ((s.m.evalNow k).track k).step = _ ∧
      ((s.m.evalNow k).track k).state = _ ∧ ((s.m.evalNow k).track k).countA = _ ∧
      ((s.m.evalNow k).track k).countB = _ ∧ (_ → ∃ l ok, ((s.m.evalNow k).track k).next = _) ∧
      (_ → _ → _ → _ → ((s.m.evalNow k).track k).next = _) ∧ _
    have hsame : ∀ (x : Option Trans) (t : TrackSt), (t.decided x).seen = t.seen ∧ (t.decided x).step = t.step ∧
        (t.decided x).state = t.state ∧ (t.decided x).countA = t.countA ∧ (t.decided x).countB = t.countB :=
      fun x _ => by cases x <;> exact ⟨rfl, rfl, rfl, rfl, rfl⟩
    rw [htrack]
    obtain ⟨hseen, hstep, hst, hcountA, hcountB⟩ := hsame (s.m.exitOf k (s.m.frozen.faultOf k)
      (s.m.qualifies s.m.frozen k 0) (s.m.qualifies s.m.frozen k 1)) (s.m.countedTrack s.m.frozen k)
    refine ⟨hseen, hstep, hst.trans hstate, hcountA, hcountB, fun hfault => ?_, fun hfault hwait hqual hok => ?_,
      (congrArg Mod.objs hkeeps).trans rfl, (congrArg Mod.field hkeeps).trans rfl, hothers⟩
    · rw [hfault]
      exact ⟨_, _, rfl⟩
    · rw [hfault, exitOf_group (g := 0) (by omega) hwait (fun _ => hqual) (by simp)]
      exact congrArg some (if_pos hok)
  · exact (exec_inService (·.delayedNow k) rfl hlife).trans
      (congrArg (fun m => Host.Outcome.next (s.withMod m)) (delayedNow_inStep hin))
  · refine ⟨_, exec_inService (·.delayedNow k) rfl hlife, ?_⟩
    rw [delayedNow_flag hin hacts hop htgt hgood]
    exact ⟨cfg_setCfg .., track_setTrack .., rfl, rfl⟩
  · refine ⟨_, exec_inService (fun m => if k < 192 then m.pulseEnd k else m) rfl hlife, ?_⟩
    rw [if_pos hk, pulseEnd_due hdue]
    exact ⟨cfg_setCfg .., setDo_pulses s.m byPulse k 0, rfl, rfl, rfl⟩
  · obtain ⟨hbank, htracks, hobjs, hreports⟩ := validationEnd_keeps hblock hshadow
    obtain ⟨hstate, hcode, hkind, hplace⟩ := endValidation_reports hshadow
    obtain ⟨hktracks, hkobjs⟩ := endValidation_keeps s.m
    exact ⟨_, exec_inService (·.validationEnd) rfl hlife, (hreports _).trans hstate, (hreports _).trans hcode,
      (hreports _).trans hkind, (hreports _).trans hplace, hbank.trans (endValidation_bank hshadow),
      htracks.trans hktracks, hobjs.trans hkobjs⟩

end Sys2Proof.Machine
end

section
/-! PROOFS. The partners' frames, reads, and what waits for the journal or too long. -/

namespace Sys2Proof.Machine

/-! ### Commands in service -/

theorem exec_inService_eq {c : Instr} {s : State} {n : Mod} (f : Mod → Mod) (h : exec c s = s.inService f)
    (hlife : s.m.life = .run) (hf : f s.m = n) : exec c s = .next (s.withMod n) :=
  hf ▸ exec_inService f h hlife

/-! ### Frames of a partner -/

theorem setPartner_setPartner (m : Mod) (a : Nat) (p q : Partner) :
    (m.setPartner a p).setPartner a q = m.setPartner a q :=
  congrArg (fun hall => ({ m with hall := hall } : Mod)) (put_put ..)

/-- Who sends a valid frame stands in the hall, ACTIVE. -/
theorem validFrom_look {m : Mod} {kind : Nat} {f : Frame} {p : Partner} (h : m.validFrom kind f p = true) :
    look m.hall f.assoc = some p ∧ p.state = 1 ∧ frameOk kind f = true := by
  simp only [Mod.validFrom, Bool.and_eq_true, decide_eq_true_eq] at h
  exact ⟨h.1.1.1.2, h.1.1.2, h.1.1.1.1.2⟩

theorem depart_of_inHall {m : Mod} {a : Nat} {p : Partner} (why : Nat) (last : Tread) (h : m.inHall a = some p) :
    m.depart a why last = { m with
      hall := put m.hall a { p with state := 2, leaving := why, declared := m.tread, held := [], part := none },
      staged := m.staged.filter fun s => !decide (s.assoc = a ∧ last < s.due),
      reads := m.reads.filter fun r => !decide (r.assoc = a),
      waiting := m.waiting.filter fun w => !decide (w.2.assoc = a),
      replies := m.replies.filter fun r => !decide (r.assoc = a) } := by
  unfold Mod.depart
  rw [h]

theorem byeFrame_valid {m : Mod} {f : Frame} {p : Partner} {r : Nat} (h : m.validFrom 8 f p = true) (hr : r ≤ 1)
    (hbody : f.body = [r, 0, 0, 0]) :
    m.byeFrame f = (m.seen f.assoc p).depart f.assoc (2 + r) (m.sealedTo f.off) := by
  unfold Mod.byeFrame
  rw [takeFrame_valid m 8 f p h]
  obtain rfl | rfl : r = 0 ∨ r = 1 := by omega
  · exact if_pos hbody
  · exact (if_neg (by rw [hbody]; decide)).trans (if_pos hbody)

theorem segmentLimit_seen {m : Mod} {a : Nat} {p : Partner} (h : look m.hall a = some p) :
    (m.seen a p).segmentLimit a = m.segmentLimit a := by
  simp [Mod.segmentLimit, Mod.feature, Mod.seen, Mod.setPartner, h]

/-- The first segment of a message, where none is incomplete: it is kept, or it is the whole message (R318). -/
theorem segment_first {m : Mod} {f : Frame} {p : Partner} (h : p.part = none)
    (hlimit : bits f.flags 5 3 + 1 ≤ m.segmentLimit f.assoc) :
    m.segment p f true =
      if bits f.flags 5 3 = 0 then (m.setPartner f.assoc { p with part := none }).received f.assoc
        (firstSegment f p m.tread) f.off
      else m.setPartner f.assoc { p with part := some (firstSegment f p m.tread) } := by
  have hpartial : m.dropPartial f.assoc p = m := by unfold Mod.dropPartial; rw [h]
  unfold Mod.segment
  simp only [h, hpartial]
  rw [if_neg (by omega)]
  simp [firstSegment, Partial.add]


/-- A message of one segment comes as it is (R318). -/
theorem received_whole {m : Mod} {f : Frame} {p : Partner} (hindex : bits f.flags 2 3 = 0)
    (hcount : bits f.flags 5 3 = 0) :
    m.received f.assoc (firstSegment f p m.tread) f.off = m.sequence f.assoc (wholeMessage f p m.tread) false f.off := by
  unfold Mod.received firstSegment wholeMessage
  simp [hindex, hcount, List.range_succ]

theorem segmentIndex_le {f : Frame} (h : frameOk 4 f = true) : bits f.flags 2 3 ≤ bits f.flags 5 3 := by
  simp only [frameOk, Bool.and_eq_true, if_pos] at h
  exact of_decide_eq_true h.2

theorem transact_valid {m : Mod} {f : Frame} {p : Partner} (h : m.validFrom 4 f p = true) :
    m.transact f = (m.seen f.assoc p).segment { p with last := m.tread } f true := by
  unfold Mod.transact
  rw [takeFrame_valid m 4 f p h]

theorem imageFrame_valid {m : Mod} {f : Frame} {p : Partner} (h : m.validFrom 5 f p = true) (hk : f.body.headD 0 < 64)
    (hlength : ofLe ((f.body.drop 2).take 2) = (f.body.drop 20).length) (hbody : 20 ≤ f.body.length) :
    m.imageFrame f = (m.seen f.assoc p).sequence f.assoc (imageMessage f p (f.body.headD 0) (f.body.drop 20)) false
      f.off := by
  unfold Mod.imageFrame
  rw [takeFrame_valid m 5 f p h]
  dsimp only []
  rw [if_neg (by omega), if_pos hlength]
  rfl

/-- Settles O28, by the kinds of frame. -/
theorem framesAreTaken : Obligations.FramesAreTaken := by
  unfold Obligations.FramesAreTaken
  intro s f p
  refine ⟨fun h => ?_, fun h r hr hbody => ?_, fun h hpart hlimit => ?_, fun h k data hk hhead hdata hlength hbody => ?_⟩
  · exact congrArg (fun x : Mod × Option (Partner × Bool) => Host.Outcome.next (s.withMod x.1)) (takeFrame_valid s.m 7 f p h)
  · obtain ⟨-, hstate, -⟩ := validFrom_look h
    have hgone : s.m.byeFrame f = _ := (byeFrame_valid h hr hbody).trans
      (depart_of_inHall (2 + r) _ (inHall_setPartner s.m f.assoc { p with last := s.m.tread } hstate))
    refine ⟨s.withMod (s.m.byeFrame f), rfl, ?_⟩
    rw [hgone]
    exact ⟨look_put .., rfl, rfl, rfl, rfl, rfl⟩
  · obtain ⟨hlook, -, hframe⟩ := validFrom_look h
    have hfirst := segment_first (m := s.m.seen f.assoc p) (f := f) (p := { p with last := s.m.tread }) hpart
      (by rwa [segmentLimit_seen hlook])
    have hsame : (s.m.seen f.assoc p).setPartner f.assoc { p with last := s.m.tread, part := none } =
        s.m.seen f.assoc p := by
      rw [Mod.seen, setPartner_setPartner, ← hpart]
    refine ⟨fun hmore => ?_, fun hone => ?_⟩
    · refine congrArg (fun m => Host.Outcome.next (s.withMod m)) ((transact_valid h).trans (hfirst.trans ?_))
      rw [if_neg hmore]
      exact setPartner_setPartner ..
    · refine congrArg (fun m => Host.Outcome.next (s.withMod m)) ((transact_valid h).trans (hfirst.trans ?_))
      have hindex := segmentIndex_le hframe
      rw [if_pos hone, hsame]
      exact received_whole (by omega) hone
  · subst hhead hdata
    exact congrArg (fun m => Host.Outcome.next (s.withMod m)) (imageFrame_valid h hk hlength hbody)


/-! ### What waits too long (R318, R320, R323, R338) -/

theorem segmentDiscard_late {m : Mod} {a : Nat} {p : Partner} {q : Partial} (hp : m.inHall a = some p)
    (hq : p.part = some q) (hlate : q.since + 100 ≤ m.tread) (hgood : q.refused = false) :
    m.segmentDiscard a = (m.setPartner a { p with part := none }).bump 0x1100 0xB := by
  unfold Mod.segmentDiscard Mod.dropPartial
  simp only [hp, hq, hgood, if_pos hlate]
  rfl

theorem sequenceGap_late {m : Mod} {a : Nat} {p : Partner} {n : Tread} (off : Offset) (fuel : Nat)
    (hp : m.inHall a = some p) (hn : p.firstHeld = some n) (hlate : n + 100 ≤ m.tread) :
    m.sequenceGap a off (fuel + 1) =
      ((m.setPartner a { p with gaps := (p.gaps + 1) % 2 ^ 32, expect := (p.expect + 1) % 2 ^ 32 }).drainHeld
        a off 1024).sequenceGap a off fuel := by
  rw [Mod.sequenceGap]
  simp only [hp, hn]
  exact if_neg (Nat.not_lt.mpr hlate)

theorem lapseOne_late {m : Mod} {k : Nat} {g : Agreed} (hg : look m.reserved k = some g)
    (hlate : g.at_ + 100000 ≤ m.tread) : m.lapseOne k = { m with reserved := drop m.reserved k } := by
  unfold Mod.lapseOne
  simp only [hg]
  exact if_pos hlate

theorem declareLost_silent {m : Mod} {a : Nat} {p : Partner} (off : Offset) (hlife : m.life = .run)
    (hp : m.inHall a = some p) (hclass : p.agreed.cls ≠ 2) (hsilent : 300 * p.heartbeat ≤ m.tread - p.last) :
    m.declareLost a off = (m.depart a 0 (m.sealedTo off)).bump 0x1100 0xC := by
  have hserving : m.serving = true := by simp [Mod.serving, hlife]
  unfold Mod.declareLost
  simp only [hp]
  exact if_neg (by simp [hserving, hclass]; omega)

/-- Settles O31, by the four kinds of wait. -/
theorem waitsRunOut : Obligations.WaitsRunOut := by
  unfold Obligations.WaitsRunOut
  intro s a hlife
  refine ⟨fun p q hp hq hlate hgood => ?_, fun p n off hp hn hlate => ?_, fun g hg hlate => ?_,
    fun p off hp hclass hsilent => ?_⟩
  · exact exec_inService_eq (·.segmentDiscard a) rfl hlife (segmentDiscard_late hp hq hlate hgood)
  · exact exec_inService_eq (·.sequenceGap a off 1023) rfl hlife (sequenceGap_late off 1022 hp hn hlate)
  · exact exec_inService_eq (·.lapseOne a) rfl hlife (lapseOne_late hg hlate)
  · exact congrArg (fun m => Host.Outcome.next (s.withMod m)) (declareLost_silent off hlife hp hclass hsilent)

/-! ### Replies that wait for the journal (R50, R52) -/

/-- Replies sent in their turn leave what is staged, the objects and what else waits as it is. -/
structure Mod.Flushed (m n : Mod) : Prop where
  objs : n.objs = m.objs
  ro : n.ro = m.ro
  staged : n.staged = m.staged
  waiting : n.waiting ⊆ m.waiting

theorem send_waiting (m : Mod) (r : Reply) : (m.send r).waiting = m.waiting := by
  obtain h | ⟨c, s, h⟩ | ⟨p, rs, cache, -, h⟩ := send_cases m r <;> rw [h] <;> rfl

theorem releaseHeld_flushed (n : Nat) (m : Mod) : m.Flushed (Mod.releaseHeld n m) := by
  induction n generalizing m with
  | zero => exact ⟨rfl, rfl, rfl, List.Subset.refl _⟩
  | succ n ih =>
    unfold Mod.releaseHeld
    split
    case h_1 w hw =>
      obtain ⟨hobjs, hro, hstaged, hwaiting⟩ := ih ({ m with waiting := m.waiting.erase w }.send w.2)
      obtain ⟨hsstaged, hsobjs, -, hsro⟩ := send_frame { m with waiting := m.waiting.erase w } w.2
      rw [send_waiting] at hwaiting
      exact ⟨hobjs.trans hsobjs, hro.trans hsro, hstaged.trans hsstaged, List.Subset.trans hwaiting List.erase_subset⟩
    case h_2 => exact ⟨rfl, rfl, rfl, List.Subset.refl _⟩

theorem flush_flushed (m : Mod) : m.Flushed m.flush := releaseHeld_flushed _ m

/-- A waiting reply after a checkpoint up to tread `j`: a journalled one that it covers is free. -/
def freed (j : Tread) (a seq : Nat) (w : Bool × Reply) : Bool × Reply :=
  if w.1 = true ∧ w.2.assoc = a ∧ w.2.seq = seq ∧ w.2.tread ≤ j then (false, w.2) else w

theorem freed_waits {j : Tread} {a seq : Nat} {w : Bool × Reply} (h : (freed j a seq w).1 = true)
    (ha : (freed j a seq w).2.assoc = a) (hs : (freed j a seq w).2.seq = seq) : j < (freed j a seq w).2.tread := by
  unfold freed at h ha hs ⊢
  split at h
  · cases h
  · next hnot =>
    rw [if_neg hnot] at ha hs ⊢
    exact Nat.lt_of_not_le fun hle => hnot ⟨h, ha, hs, hle⟩

theorem freed_cases (j : Tread) (a seq : Nat) (w : Bool × Reply) :
    (w = (true, (freed j a seq w).2)) ∨ freed j a seq w = w := by
  unfold freed
  split
  · next h => exact .inl (Prod.ext h.1 rfl)
  · exact .inr rfl

theorem journalledReply_eq (m : Mod) (a seq : Nat) :
    m.journalledReply a seq = ({ m with waiting := m.waiting.map (freed (m.rov 0x1200 0xD) a seq) }).flush := by
  unfold Mod.journalledReply freed
  simp only [Bool.and_eq_true, decide_eq_true_eq]

/-- Settles O30: what the flush sends after a checkpoint was waiting already. -/
theorem journalFreesReplies : Obligations.JournalFreesReplies := by
  unfold Obligations.JournalFreesReplies
  intro s a seq hlife
  have hexec := exec_inService_eq (c := .journalledReply a seq) (·.journalledReply a seq) rfl hlife
    (journalledReply_eq s.m a seq)
  obtain ⟨hobjs, hro, hstaged, hwaiting⟩ :=
    flush_flushed { s.m with waiting := s.m.waiting.map (freed (s.m.rov 0x1200 0xD) a seq) }
  refine ⟨hexec, _, hexec, hobjs, hro, hstaged, fun w hw hwaits ha hs => ?_, fun w hw => ?_⟩
  · obtain ⟨x, -, rfl⟩ := List.mem_map.mp (hwaiting hw)
    exact freed_waits hwaits ha hs
  · obtain ⟨x, hx, rfl⟩ := List.mem_map.mp (hwaiting hw)
    rcases freed_cases (s.m.rov 0x1200 0xD) a seq x with hfree | hsame
    · exact .inl (hfree ▸ hx)
    · exact .inr (hsame.symm ▸ hx)


/-! ### Reads (R42, R43, R46, R372) -/

/-- What taking values for a read leaves as it is: it claims entries of the ports' queues and does nothing else. -/
def Mod.Claims (m n : Mod) : Prop := ∃ canPorts, n = { m with canPorts := canPorts }

theorem Mod.Claims.refl (m : Mod) : m.Claims m := ⟨_, rfl⟩

theorem Mod.Claims.trans {m n k : Mod} (h : m.Claims n) (g : n.Claims k) : m.Claims k := by
  obtain ⟨_, rfl⟩ := h
  obtain ⟨c, rfl⟩ := g
  exact ⟨c, rfl⟩

theorem claim_claims (m : Mod) (p a : Nat) : m.Claims (m.claim p a).1 := by
  unfold Mod.claim
  extract_lets q
  repeat' split
  · exact .refl m
  · exact .refl m
  · exact ⟨_, rfl⟩

theorem takeValues_claims (m : Mod) (a : Nat) (l : List Entry) : m.Claims (m.takeValues a l).1 := by
  unfold Mod.takeValues
  suffices hall : ∀ (l : List Entry) (r : Mod × List (Nat × Nat)), r.1.Claims (l.foldl (fun r e =>
      if 0x3780 ≤ e.idx ∧ e.idx < 0x3782 ∧ e.sub = 0x10 then
        let q := r.1.claim (e.idx - 0x3780) a
        (q.1, r.2 ++ [(88, q.2)])
      else (r.1, r.2 ++ [r.1.readAs a e.idx e.sub])) r).1 from hall l (m, [])
  intro l
  induction l with
  | nil => exact fun r => .refl r.1
  | cons e l ih =>
    intro r
    refine Mod.Claims.trans ?_ (ih _)
    dsimp only []
    split
    · exact claim_claims ..
    · exact .refl r.1

/-- A read as it stands once its service has begun: the outcome is fixed, the tread is the present one. -/
def ReadSt.Begun (r x : ReadSt) (t : Tread) : Prop :=
  x.assoc = r.assoc ∧ x.seq = r.seq ∧ x.begun = true ∧ x.due = t

/-- A service that begins replaces its read by the one begun, and beside that only claims entries. -/
theorem beginRead_cases (m : Mod) (r : ReadSt) :
    ∃ x, r.Begun x m.tread ∧ ∃ n, m.Claims n ∧
      m.beginRead r = { n with reads := m.reads.map fun y => if y = r then x else y } := by
  unfold Mod.beginRead
  dsimp only []
  split
  · refine ⟨_, ?_, m, .refl m, rfl⟩
    exact ⟨rfl, rfl, rfl, rfl⟩
  · split
    · refine ⟨_, ?_, m, .refl m, rfl⟩
      exact ⟨rfl, rfl, rfl, rfl⟩
    · obtain ⟨c, hc⟩ := takeValues_claims m r.assoc r.entries
      have hreads : (m.takeValues r.assoc r.entries).1.reads = m.reads := by rw [hc]
      rw [hreads]
      refine ⟨_, ?_, (m.takeValues r.assoc r.entries).1, ⟨c, hc⟩, rfl⟩
      exact ⟨rfl, rfl, rfl, rfl⟩

/-- What beginning a read keeps, and what becomes of the reads. -/
structure Mod.BeginsReads (m n : Mod) : Prop where
  objs : n.objs = m.objs
  hall : n.hall = m.hall
  tread : n.tread = m.tread
  unbegun : ∀ x ∈ n.reads, x.begun = false → x ∈ m.reads

theorem beginRead_begins (m : Mod) (r : ReadSt) : m.BeginsReads (m.beginRead r) := by
  obtain ⟨x, ⟨-, -, hbegun, -⟩, n, ⟨c, rfl⟩, heq⟩ := beginRead_cases m r
  rw [heq]
  refine ⟨rfl, rfl, rfl, fun y hy hnot => ?_⟩
  obtain ⟨z, hz, hyz⟩ := List.mem_map.mp hy
  split at hyz
  · rw [← hyz, hbegun] at hnot
    cases hnot
  · exact hyz ▸ hz

theorem beginRead_absent (m : Mod) {r : ReadSt} (h : r.begun = false) : r ∉ (m.beginRead r).reads := by
  obtain ⟨x, ⟨-, -, hbegun, -⟩, n, -, heq⟩ := beginRead_cases m r
  rw [heq]
  intro hr
  obtain ⟨z, -, hz⟩ := List.mem_map.mp hr
  split at hz
  · rw [← hz, hbegun] at h
    cases h
  · next hne => exact hne hz

/-- A read that is not begun stays in the list while others begin. -/
theorem beginRead_mem {m : Mod} {r x : ReadSt} (h : x ∈ m.reads) (hne : x ≠ r) : x ∈ (m.beginRead r).reads := by
  obtain ⟨y, -, n, -, heq⟩ := beginRead_cases m r
  rw [heq]
  exact List.mem_map.mpr ⟨x, h, if_neg hne⟩

theorem beginRead_begun {m : Mod} {r : ReadSt} (h : r ∈ m.reads) :
    ∃ y ∈ (m.beginRead r).reads, r.Begun y m.tread := by
  obtain ⟨y, hy, n, -, heq⟩ := beginRead_cases m r
  rw [heq]
  exact ⟨y, List.mem_map.mpr ⟨r, h, if_pos rfl⟩, hy⟩

theorem Mod.BeginsReads.trans {m n k : Mod} (h : m.BeginsReads n) (g : n.BeginsReads k) : m.BeginsReads k :=
  ⟨g.objs.trans h.objs, g.hall.trans h.hall, g.tread.trans h.tread, fun x hx hnot => h.unbegun x (g.unbegun x hx hnot) hnot⟩

/-- The reads that begin before one of the queue window. -/
def Mod.beginAll (m : Mod) (l : List ReadSt) : Mod := overAll l (fun (m : Mod) x => m.beginRead x) m

theorem beginAll_begins (m : Mod) (l : List ReadSt) : m.BeginsReads (m.beginAll l) :=
  overAll_keeps (fun _ => ⟨rfl, rfl, rfl, fun _ h _ => h⟩) .trans l beginRead_begins m

theorem beginAll_absent {m : Mod} {l : List ReadSt} {x : ReadSt} (hx : x ∈ l) (h : x.begun = false) :
    x ∉ (m.beginAll l).reads := by
  induction l generalizing m with
  | nil => cases hx
  | cons y l ih =>
    rcases List.mem_cons.mp hx with rfl | hx
    · exact fun hin => beginRead_absent m h ((beginAll_begins (m.beginRead x) l).unbegun x hin h)
    · exact ih hx

theorem beginAll_mem {m : Mod} {l : List ReadSt} {x : ReadSt} (hx : x ∉ l) (h : x ∈ m.reads) :
    x ∈ (m.beginAll l).reads := by
  induction l generalizing m with
  | nil => exact h
  | cons y l ih =>
    rw [List.mem_cons, not_or] at hx
    exact ih hx.2 (beginRead_mem h hx.1)

theorem mem_readsBefore {m : Mod} {r x : ReadSt} (h : x ∈ m.readsBefore r) :
    x.begun = false ∧ x.arrived < r.arrived := by
  unfold Mod.readsBefore at h
  split at h
  · have hdue := (List.mem_filter.mp h).2
    simp only [Mod.readDue, Bool.and_eq_true, Bool.not_eq_true', decide_eq_true_eq] at hdue
    exact ⟨hdue.1.1.1.1, hdue.2⟩
  · cases h

theorem readOf_mem {m : Mod} {a seq : Nat} {r : ReadSt} (h : m.readOf a seq = some r) : r ∈ m.reads :=
  List.mem_of_find?_eq_some h

/-- A read whose snapshot has come begins, after those before it. -/
theorem readService_due {m : Mod} {a seq : Nat} {r : ReadSt} (h : m.readOf a seq = some r) (hbegun : r.begun = false)
    (hdue : r.due ≤ m.tread) (hnamed : r.named = true → m.tread = r.due) :
    m.readService a seq = (m.beginAll (m.readsBefore r)).beginRead r := by
  have hready : m.readDue r = true := by
    simp only [Mod.readDue, hbegun, hdue]
    cases hn : r.named
    · simp
    · simp [hnamed hn]
  unfold Mod.readService
  simp only [h]
  exact if_neg (by simp [hready])

theorem beginRead_good {m : Mod} {r : ReadSt}
    (hallowed : (r.entries.findIdx? fun e => m.readBarred r.assoc e.idx e.sub) = none)
    (htotal : (m.takeValues r.assoc r.entries).2.foldl (fun n v => n + v.1) 0 ≤ 4096)
    (hlimit : replyBytes (m.takeValues r.assoc r.entries).2 ≤ m.replyLimit r.assoc) :
    m.beginRead r = { (m.takeValues r.assoc r.entries).1 with
      reads := (m.takeValues r.assoc r.entries).1.reads.map fun y => if y = r then
        { r with begun := true, due := m.tread, vals := (m.takeValues r.assoc r.entries).2,
                 claimed := (m.takeValues r.assoc r.entries).1.claimedSince m r.assoc } else y } := by
  unfold Mod.beginRead
  simp only [hallowed]
  exact if_neg (by simp [htotal, hlimit])

/-! ### The end of a read -/

/-- The first entry of a read that the housekeeping processor did not serve. -/
def Mod.notServed (m : Mod) (r : ReadSt) (delivered : Bool) : Option Nat :=
  r.entries.findIdx? fun e => served e.idx e.sub && (!delivered || m.blockIn 16)

theorem readServiceEnd_failed {m : Mod} {a seq st pos : Nat} {r : ReadSt} (h : m.readOf a seq = some r)
    (hbegun : r.begun = true) (hfail : r.fail = some (st, pos)) (d : Bool) :
    m.readServiceEnd a seq d = ((m.readOver r).send (readFails r a seq st pos)).flush := by
  unfold Mod.readServiceEnd
  simp only [h, hfail]
  exact if_neg (by simp [hbegun])

theorem readServiceEnd_given {m : Mod} {a seq : Nat} {r : ReadSt} (h : m.readOf a seq = some r)
    (hbegun : r.begun = true) (hfail : r.fail = none) {d : Bool} (hserved : m.notServed r d = none) :
    m.readServiceEnd a seq d = ((m.readOver r).finalReply (readGives r a seq) false).flush := by
  unfold Mod.readServiceEnd
  simp only [h, hfail]
  rw [if_neg (by simp [hbegun])]
  split
  case h_1 hnone => cases hnone
  case h_2 pos _ hpos => cases hserved.symm.trans hpos
  case h_3 => rfl

theorem readServiceEnd_isolated {m : Mod} {a seq pos : Nat} {r : ReadSt} (h : m.readOf a seq = some r)
    (hbegun : r.begun = true) (hfail : r.fail = none) {d : Bool} (hserved : m.notServed r d = some pos) :
    m.readServiceEnd a seq d =
      ((r.claimed.foldl (fun m c => m.unclaimOne c.1 c.2) (m.readOver r)).send (readFails r a seq stIsolated pos)).flush := by
  unfold Mod.readServiceEnd
  simp only [h, hfail]
  rw [if_neg (by simp [hbegun])]
  split
  case h_1 hnone => cases hnone
  case h_2 pos' _ hpos =>
    obtain rfl : pos = pos' := Option.some.inj (hserved.symm.trans hpos)
    rfl
  case h_3 _ hpos => cases hserved.symm.trans hpos

/-- Settles O29: the service that begins, the values that it takes, and its ends. -/
theorem readsAreServed : Obligations.ReadsAreServed := by
  unfold Obligations.ReadsAreServed
  intro s a seq r hlife hread
  refine ⟨fun hbegun hdue hnamed => ?_, fun hbegun hdue hnamed hfirst hallowed htotal hlimit => ?_, fun hbegun =>
    ⟨fun st pos hfail d => ?_, fun hfail hblock => ?_, fun pos hfail hpos => ?_⟩⟩
  · have hnot : r ∉ s.m.readsBefore r := fun hr => Nat.lt_irrefl _ (mem_readsBefore hr).2
    have hfirst := beginAll_begins s.m (s.m.readsBefore r)
    have hlast := beginRead_begins (s.m.beginAll (s.m.readsBefore r)) r
    obtain ⟨y, hy, hassoc, hseq, hstarted, hyt⟩ := beginRead_begun (beginAll_mem hnot (readOf_mem hread))
    refine ⟨_, exec_inService_eq (·.readService a seq) rfl hlife (readService_due hread hbegun hdue hnamed),
      beginRead_absent _ hbegun, fun x hx hin => ?_, ⟨y, hy, hassoc, hseq, hstarted, hyt.trans hfirst.tread⟩,
      hlast.objs.trans hfirst.objs, hlast.hall.trans hfirst.hall⟩
    have hwaits := (mem_readsBefore hx).1
    exact beginAll_absent hx hwaits (hlast.unbegun x hin hwaits)
  · obtain ⟨c, hc⟩ := takeValues_claims s.m r.assoc r.entries
    have halone : s.m.beginAll (s.m.readsBefore r) = s.m := by rw [hfirst]; rfl
    have hstart := readService_due hread hbegun hdue hnamed
    rw [halone, beginRead_good hallowed htotal hlimit] at hstart
    have hreads : (s.m.takeValues r.assoc r.entries).1.reads = s.m.reads := by rw [hc]
    exact ⟨_, exec_inService_eq (·.readService a seq) rfl hlife hstart, congrArg (List.map _) hreads,
      (congrArg Mod.objs hc).trans rfl, (congrArg Mod.ro hc).trans rfl, (congrArg Mod.hall hc).trans rfl⟩
  · exact exec_inService_eq (·.readServiceEnd a seq d) rfl hlife (readServiceEnd_failed hread hbegun hfail d)
  · refine exec_inService_eq (·.readServiceEnd a seq true) rfl hlife (readServiceEnd_given hread hbegun hfail ?_)
    simp [Mod.notServed, hblock]
  · refine exec_inService_eq (·.readServiceEnd a seq false) rfl hlife (readServiceEnd_isolated hread hbegun hfail ?_)
    simpa [Mod.notServed] using hpos

end Sys2Proof.Machine
end

section
/-! PROOFS. The link's discovery and association, the switch and its ring, and the lock of a repetitive controller. -/

namespace Sys2Proof.Machine

/-! ### Commands on a module that may be out of service -/

theorem exec_on_eq {c : Instr} {s : State} {n : Mod} (f : Mod → Mod) (h : exec c s = s.on f) (hf : f s.m = n) :
    exec c s = .next (s.withMod n) :=
  hf ▸ h

theorem exec_supplied_eq {c : Instr} {s : State} {n : Mod} (f : Mod → Mod) (h : exec c s = s.supplied f)
    (hlife : s.m.life ≠ .off) (hf : f s.m = n) : exec c s = .next (s.withMod n) :=
  hf ▸ h.trans (State.supplied_on s f hlife)

/-! ### Frames that ask (R314, R321 to R323) -/

theorem sendFrame_eq (m : Mod) (dest : Src) (version : Nat × Nat) (kind assoc tag flags : Nat) (body : List Nat) :
    m.sendFrame dest version kind assoc tag flags body =
      { m with out := m.out ++ [m.frameTo dest version kind assoc tag flags body] } := rfl

/-- What a frame that asks comes to where the module can answer it. -/
def Mod.askNow (m : Mod) : Ask → Mod
  | .hello src hd => m.helloNow src hd
  | .negotiate src r hd => if negWf r then m.negotiateNow src r hd else m
  | .associate src r hd => m.associateNow src r hd

theorem ask_unspoken {m : Mod} {x : Ask} (h : m.spoken x.src = false) : m.ask x = m :=
  if_pos (by simp [h])

section
variable {m : Mod} {x : Ask} (hlife : m.life = .run) (hsound : x.src.sound = true) (h : m.spoken x.src = true)
include hlife hsound h

theorem ask_spoken :
    m.ask x = if !flagsOk x.hd.flags then m.dropFrame
      else if m.blockIn 16 then { m with asks := m.asks ++ [x] }
      else m.askNow x := by
  have hheard : ¬(!m.serving ∨ !x.src.sound ∨ !m.spoken x.src) := by simp [Mod.serving, hlife, hsound, h]
  unfold Mod.ask
  rw [if_neg hheard]
  rfl

theorem ask_reserved (hflags : flagsOk x.hd.flags = false) : m.ask x = m.bump 0x1100 0xB :=
  (ask_spoken hlife hsound h).trans (if_pos (by simp [hflags]))

theorem ask_isolated (hflags : flagsOk x.hd.flags = true) (hblock : m.blockIn 16 = true) :
    m.ask x = { m with asks := m.asks ++ [x] } :=
  (ask_spoken hlife hsound h).trans ((if_neg (by simp [hflags])).trans (if_pos hblock))

theorem ask_now (hflags : flagsOk x.hd.flags = true) (hblock : m.blockIn 16 = false) : m.ask x = m.askNow x :=
  (ask_spoken hlife hsound h).trans ((if_neg (by simp [hflags])).trans (if_neg (by simp [hblock])))

end

/-- Drawing a nonce takes random words and does nothing else that a frame shows. -/
theorem drawNonce_frame (m : Mod) (auth : Nat) :
    (m.drawNonce auth).2.objs = m.objs ∧ (m.drawNonce auth).2.hall = m.hall ∧
    (m.drawNonce auth).2.reserved = m.reserved ∧ (m.drawNonce auth).2.out = m.out ∧
    (m.drawNonce auth).2.reset.udpPort = m.reset.udpPort ∧ (m.drawNonce auth).2.reset.etherType = m.reset.etherType := by
  unfold Mod.drawNonce
  split <;> exact ⟨rfl, rfl, rfl, rfl, rfl, rfl⟩

/-- A frame's form depends on the module's addresses and numbers of protocol alone. -/
theorem frameTo_congr {m n : Mod} (hobjs : n.objs = m.objs) (hport : n.reset.udpPort = m.reset.udpPort)
    (htype : n.reset.etherType = m.reset.etherType) (dest : Src) (version : Nat × Nat) (kind assoc tag flags : Nat)
    (body : List Nat) :
    n.frameTo dest version kind assoc tag flags body = m.frameTo dest version kind assoc tag flags body := by
  unfold Mod.frameTo Mod.framing Mod.ownIp Mod.cfg
  rw [hobjs, hport, htype]

/-- A negotiation that can be met, of which the module has drawn its nonce. -/
theorem negotiateNow_met {m : Mod} {src : Src} {r : NegReq} {hd : FrameHead} {v : Nat × Nat} {k : Nat}
    (hversion : commonVersion r.versions = some v) (hid : m.lapse.freeId = some k) (hstatus : m.lapse.negStatus r = 0) :
    m.negotiateNow src r hd =
      let n := m.lapse.drawNonce r.auth
      let g := negChoose r src v m.tread n.1
      ({ n.2 with reserved := put n.2.reserved k g } : Mod).reply_ src (1, 0) 2 0 hd.tag (negBody 0 g k m.tread) := by
  unfold Mod.negotiateNow
  dsimp only []
  rw [hversion, hid]
  exact if_pos hstatus

theorem associateNow_met {m : Mod} {src : Src} {r : AssocReq} {hd : FrameHead} {g : Agreed}
    (hg : look m.reserved r.reserved = some g) (hsrc : sameSrc g.src src = true) (hstatus : m.assocStatus src r = 0) :
    m.associateNow src r hd = { m with
      reserved := drop m.reserved r.reserved,
      hall := put m.hall r.reserved (m.newPartner g r),
      out := m.out ++ [m.frameTo src (g.major, g.minor) 3 r.reserved hd.tag 2 (assocBody 0 r.reserved (m.tread + 1)
        (if m.authenticated g r.role then proof (m.roleKey r.role) g.partnerNonce g.moduleNonce r.reserved r.role
          else List.replicate 16 0))] } := by
  unfold Mod.associateNow
  dsimp only []
  rw [hg]
  dsimp only []
  rw [if_neg (by simp [hsrc]), if_neg (not_not_intro hstatus), Mod.reply_, sendFrame_eq]
  rfl

/-! ### What the module says by itself, and ARP (R290, R315, R325) -/

theorem announcements (m : Mod) (l : List Nat) :
    overAll l (fun (m : Mod) p => m.sendFrame { port := p, mac := broadcastMac } (1, 0) 1 0 0 0 (m.helloBody 0xFF)) m =
      { m with
        out := m.out ++ l.map fun k =>
          m.frameTo { port := k, mac := broadcastMac } (1, 0) 1 0 0 0 (m.helloBody 0xFF) } := by
  induction l generalizing m with
  | nil => exact congrArg (fun out => ({ m with out := out } : Mod)) (List.append_nil _).symm
  | cons p l ih => exact (ih _).trans (congrArg (fun out => ({ m with out := out } : Mod)) (List.append_assoc ..))

theorem helloAnnounce_due {m : Mod} (hlife : m.life = .run) (hblock : m.blockIn 16 = false) (hon : m.cfg 0x1100 3 ≠ 0)
    (hfirst : m.reset.first ≤ m.tread) (hdue : (m.tread - m.reset.first) % 100000 = 0)
    (hsaid : ∀ a b, Out.send { port := 0, mac := broadcastMac } 1 a b ∉ m.out) :
    m.helloAnnounce = { m with
      out := m.out ++ (List.range 4).map fun k =>
        m.frameTo { port := k, mac := broadcastMac } (1, 0) 1 0 0 0 (m.helloBody 0xFF) } := by
  unfold Mod.helloAnnounce
  extract_lets said
  have hnone : said = false := by
    rw [List.any_eq_false]
    intro o ho
    match o with
    | .send d kind a b =>
      intro h
      obtain ⟨rfl, rfl⟩ := of_decide_eq_true h
      exact hsaid a b ho
    | .msg .. | .notify .. => exact Bool.false_ne_true
  rw [if_neg (by simp [Mod.serving, hlife, hblock, hon, hdue, hnone, hfirst])]
  exact announcements m (List.range 4)

theorem arp_own {m : Mod} {port ip : Nat} (mac : Nat) (hlife : m.life = .run) (hport : port ≤ 4) (hip : ip ≠ 0)
    (hown : m.ownIp port = ip) :
    m.arp port ip mac =
      { m with out := m.out ++ [.send { port := port, mac := mac } 256 0 (leBytes 4 ip ++ leBytes 6 (ownMac port))] } :=
  if_neg (by simp [Mod.serving, hlife, hip, hown]; omega)

/-- Settles O32: the three frames that ask, in the four cases, and what the module says unasked. -/
theorem associating : Obligations.Associating := by
  unfold Obligations.Associating
  intro s src hd hlife hsound
  refine ⟨fun h => ⟨?_, fun r => ?_, fun r => ?_⟩, fun h hflags => ⟨?_, fun r => ?_, fun r => ?_⟩,
    fun h hflags hblock => ⟨?_, fun r => ?_, fun r => ?_⟩, fun h hflags hblock => ⟨?_, fun r v k hwf hv hk hst => ?_,
    fun r g hg hsrc hst => ?_⟩, fun hblock hon hfirst hdue hsaid => ?_, fun port ip mac hport hip hown => ?_⟩
  · exact exec_on_eq (·.ask (.hello src hd)) rfl (ask_unspoken h)
  · exact exec_on_eq (·.ask (.negotiate src r hd)) rfl (ask_unspoken h)
  · exact exec_on_eq (·.ask (.associate src r hd)) rfl (ask_unspoken h)
  · exact exec_on_eq (·.ask (.hello src hd)) rfl (ask_reserved hlife hsound h hflags)
  · exact exec_on_eq (·.ask (.negotiate src r hd)) rfl (ask_reserved hlife hsound h hflags)
  · exact exec_on_eq (·.ask (.associate src r hd)) rfl (ask_reserved hlife hsound h hflags)
  · exact exec_on_eq (·.ask (.hello src hd)) rfl (ask_isolated hlife hsound h hflags hblock)
  · exact exec_on_eq (·.ask (.negotiate src r hd)) rfl (ask_isolated hlife hsound h hflags hblock)
  · exact exec_on_eq (·.ask (.associate src r hd)) rfl (ask_isolated hlife hsound h hflags hblock)
  · exact exec_on_eq (·.ask (.hello src hd)) rfl (ask_now hlife hsound h hflags hblock)
  · have hnow := (ask_now (x := .negotiate src r hd) hlife hsound h hflags hblock).trans
      ((if_pos hwf).trans (negotiateNow_met hv hk hst))
    obtain ⟨hobjs, hhall, -, hout, hport, htype⟩ := drawNonce_frame s.m.lapse r.auth
    refine ⟨_, negChoose r src v s.m.tread (s.m.lapse.drawNonce r.auth).1, exec_on_eq (·.ask (.negotiate src r hd)) rfl hnow, look_put .., rfl, rfl, rfl, rfl,
      rfl, rfl, ?_, hhall, hobjs⟩
    exact congr (congrArg _ hout) (congrArg (fun o => [o]) (frameTo_congr hobjs hport htype ..))
  · have hnow := (ask_now (x := .associate src r hd) hlife hsound h hflags hblock).trans (associateNow_met hg hsrc hst)
    exact ⟨_, exec_on_eq (·.ask (.associate src r hd)) rfl hnow, look_put .., look_drop .., rfl, rfl, rfl⟩
  · exact exec_inService_eq (·.helloAnnounce) rfl hlife (helloAnnounce_due hlife hblock hon hfirst hdue hsaid)
  · exact exec_on_eq (·.arp port ip mac) rfl (arp_own mac hlife hport hip hown)


/-! ### The switch and its ring (R274, R311 to R313, R350) -/

section
variable {m : Mod} {f : SwFrame} (hswitching : m.switching = true) (hport : f.port < 3) (hlen : f.len ≤ 1522)
include hswitching hport hlen

theorem switchFrame_taken :
    m.switchFrame f =
      if !f.fcsOk then m.bump 0x1100 0xF
      else if f.cls = 6 ∧ f.own then
        (if f.port = 2 then m.setSwitch { m.switch with returned := true } else m)
      else if m.ringClosed ∧ f.port = 2 ∧ ¬(f.cls = 7 ∧ m.cfg 0x1300 9 = 2) then m
      else if f.cls = 7 ∧ m.cfg 0x1300 9 = 2 then
        ((m.setSwitch (m.switch.learn f.src f.port m.tread)).peerDelay f.port f.peerDelay).answerTo
          { port := f.port, mac := f.src } 257 0 [f.ptpId]
      else (m.setSwitch (m.switch.learn f.src f.port m.tread)).forward f :=
  if_neg (by simp [hswitching]; omega)

theorem switchFrame_corrupt (hfcs : f.fcsOk = false) : m.switchFrame f = m.bump 0x1100 0xF :=
  (switchFrame_taken hswitching hport hlen).trans (if_pos (by simp [hfcs]))

theorem switchFrame_own (hfcs : f.fcsOk = true) (hown : f.cls = 6 ∧ f.own = true) :
    m.switchFrame f = if f.port = 2 then m.setSwitch { m.switch with returned := true } else m :=
  (switchFrame_taken hswitching hport hlen).trans ((if_neg (by simp [hfcs])).trans (if_pos hown))

/-- A frame that is neither corrupt nor the ring's own test frame. -/
theorem switchFrame_other (hfcs : f.fcsOk = true) (hother : ¬(f.cls = 6 ∧ f.own = true)) :
    m.switchFrame f =
      if m.ringClosed ∧ f.port = 2 ∧ ¬(f.cls = 7 ∧ m.cfg 0x1300 9 = 2) then m
      else if f.cls = 7 ∧ m.cfg 0x1300 9 = 2 then
        ((m.setSwitch (m.switch.learn f.src f.port m.tread)).peerDelay f.port f.peerDelay).answerTo
          { port := f.port, mac := f.src } 257 0 [f.ptpId]
      else (m.setSwitch (m.switch.learn f.src f.port m.tread)).forward f :=
  (switchFrame_taken hswitching hport hlen).trans ((if_neg (by simp [hfcs])).trans (if_neg hother))

end

theorem ringOpens_due {m : Mod} (hclosed : m.rov 0x1100 0x12 = 1) (hsilent : 3 ≤ m.switch.silentFlights) :
    m.ringOpens = (m.setSwitch { m.switch with table := [] }).setRo 0x1100 0x12 2 :=
  if_neg (by simp [hclosed]; omega)

theorem ringCloses_due {m : Mod} (hopen : m.rov 0x1100 0x12 = 2) (hgood : 3 ≤ m.switch.goodFlights) :
    m.ringCloses = (m.setSwitch { m.switch with table := [] }).setRo 0x1100 0x12 1 :=
  if_neg (by simp [hopen]; omega)

theorem portLink_switch (m : Mod) {port speed : Nat} (hspeed : speed ≤ 2) (hport : port < 4) :
    m.portLink port speed = m.setRo 0x1100 0x13 (putBits (m.rov 0x1100 0x13) (8 * port) 8 speed) :=
  (if_neg (by omega)).trans (if_pos hport)

theorem portLink_dataPort (m : Mod) {speed : Nat} (hspeed : speed < 2) :
    m.portLink 4 speed = m.setRo 0x3838 0xE speed :=
  (if_neg (by omega)).trans ((if_neg (by omega)).trans (if_pos ⟨rfl, hspeed⟩))

/-- Settles O33: the branches of the switch, each with the frames that take it. -/
theorem switchEvents : Obligations.SwitchEvents := by
  unfold Obligations.SwitchEvents
  intro s
  refine ⟨fun hlife hclosed hsilent => ?_, fun hlife hopen hgood => ?_, fun f hswitching hport hlen => ?_,
    fun mac hlife => ?_, fun port speed hlife hspeed => ⟨fun hport => ?_, fun hport hslow => ?_⟩⟩
  · exact exec_inService_eq (·.ringOpens) rfl hlife (ringOpens_due hclosed hsilent)
  · exact exec_inService_eq (·.ringCloses) rfl hlife (ringCloses_due hopen hgood)
  · have hexec : ∀ n, s.m.switchFrame f = n → exec (.switchFrame f) s = .next (s.withMod n) :=
      fun n h => exec_on_eq (·.switchFrame f) rfl h
    refine ⟨fun hfcs => ?_, fun hfcs hcls hown => ?_, fun hfcs hother => ⟨fun hring hblocked hnot => ?_,
      fun hring hnot => ?_, fun hmeasures => ?_⟩⟩
    · exact hexec _ (switchFrame_corrupt hswitching hport hlen hfcs)
    · exact hexec _ (switchFrame_own hswitching hport hlen hfcs ⟨hcls, hown⟩)
    · exact exec_on_eq (·.switchFrame f) rfl
        ((switchFrame_other hswitching hport hlen hfcs hother).trans (if_pos ⟨hring, hblocked, hnot⟩))
    · exact hexec _ ((switchFrame_other hswitching hport hlen hfcs hother).trans
        ((if_neg fun hb => hring hb.1 hb.2.1).trans (if_neg hnot)))
    · exact hexec _ ((switchFrame_other hswitching hport hlen hfcs hother).trans
        ((if_neg fun hb => hb.2.2 hmeasures).trans (if_pos hmeasures)))
  · exact exec_inService_eq (·.ageOut mac) rfl hlife rfl
  · exact exec_supplied_eq (·.portLink port speed) rfl hlife (portLink_switch s.m hspeed hport)
  · subst hport
    exact exec_supplied_eq (·.portLink 4 speed) rfl hlife (portLink_dataPort s.m hslow)

/-! ### Repetitive controllers (R153) -/

theorem lockOver_locked {m : Mod} {j : Nat} (h : m.lockOver j = true) : (m.loop j).rep.locked = true := by
  unfold Mod.lockOver at h
  dsimp only [] at h
  split at h
  · exact (of_decide_eq_true h).2.1
  · cases h

theorem lockTimeout_over {m : Mod} {j : Nat} (h : m.lockOver j = true) :
    m.lockTimeout j = (m.setLoop j { m.loop j with
      rep := { (m.loop j).rep with locked := false, bump := true } }).bump (0x2A00 + j) 0x15 := by
  unfold Mod.lockTimeout Mod.setLocked
  rw [if_pos h]
  simp [lockOver_locked h]

/-- Settles O35: the lock of a controller past its tolerance is lost and counted. -/
theorem lockIsLost : Obligations.LockIsLost := by
  unfold Obligations.LockIsLost
  intro s j hlife hover
  refine ⟨_, exec_inService_eq (·.lockTimeout j) rfl hlife (lockTimeout_over hover), ?_⟩
  have hloop := loop_setLoop s.m j
    { s.m.loop j with rep := { (s.m.loop j).rep with locked := false, bump := true } }
  exact ⟨congrArg (·.rep.locked) hloop, congrArg (·.rep.bump) hloop, rov_bumpBy .., rfl, rfl, rfl⟩

end Sys2Proof.Machine
end

section
/-! PROOFS. Conversions: results, injected sequences and averaging windows. -/

namespace Sys2Proof.Machine

/-! ### What sampling writes -/

/-- A module that has taken samples: its inputs, what reports them, its streams and ring, and the configuration in force
that a result is judged by. -/
def Mod.Samples (m n : Mod) : Prop :=
  ∃ ro inputs streams record eff,
    n = { m with ro := ro, inputs := inputs, streams := streams, record := record, eff := eff }

namespace Mod.Samples
variable {m n k : Mod}

theorem refl (m : Mod) : m.Samples m := ⟨_, _, _, _, _, rfl⟩

theorem trans (h : m.Samples n) (g : n.Samples k) : m.Samples k := by
  obtain ⟨_, _, _, _, _, rfl⟩ := h
  obtain ⟨ro, inputs, streams, record, eff, rfl⟩ := g
  exact ⟨ro, inputs, streams, record, eff, rfl⟩

theorem recorded (h : m.Recorded n) : m.Samples n := by
  obtain ⟨⟨ro, streams, record, rfl⟩, -⟩ := h
  exact ⟨_, _, _, _, _, rfl⟩

theorem setRo (m : Mod) (idx sub v : Nat) : m.Samples (m.setRo idx sub v) := ⟨_, _, _, _, _, rfl⟩

theorem setInp (m : Mod) (x : Nat) (v : InpSt) : m.Samples (m.setInp x v) := ⟨_, _, _, _, _, rfl⟩

theorem asOf (m : Mod) (t : Tread) : m.Samples (m.asOf t) :=
  iteInduction (fun _ => ⟨_, _, _, _, _, rfl⟩) (fun _ => refl m)

theorem asNow (m s : Mod) (t : Tread) : m.Samples (m.asNow t s) :=
  iteInduction (fun _ => ⟨_, _, _, _, _, rfl⟩) (fun _ => refl m)

theorem objs (h : m.Samples n) : n.objs = m.objs := by obtain ⟨_, _, _, _, _, rfl⟩ := h; rfl
theorem tracks (h : m.Samples n) : n.tracks = m.tracks := by obtain ⟨_, _, _, _, _, rfl⟩ := h; rfl
theorem field (h : m.Samples n) : n.field = m.field := by obtain ⟨_, _, _, _, _, rfl⟩ := h; rfl
theorem biased (h : m.Samples n) (x : Nat) (t : Tread) : n.biased x t = m.biased x t := by
  obtain ⟨_, _, _, _, _, rfl⟩ := h
  rfl

end Mod.Samples

theorem recAt_recorded (m : Mod) (s : Nat) (t : Tread) (kind key : Nat) (words : List Nat) :
    m.Recorded (m.recAt s t kind key words) := by
  unfold Mod.recAt
  extract_lets v
  split
  · exact .refl m
  · exact iteInduction (fun _ => .refl m) (fun _ => .setStream ..)

theorem setTrig_recorded (m : Mod) (k : Nat) (t : TrigSt) : m.Recorded (m.setTrig k t) := .setRecord ..

theorem noteRaw_recorded (m : Mod) (j : Nat) (code : Int) : m.Recorded (m.noteRaw j code) := by
  refine overAll_keeps .refl .trans _ (fun n k => ?_) m
  refine Mod.Recorded.trans ?_ (setTrig_recorded ..)
  split
  · exact setTrig_recorded ..
  · exact .refl n

theorem capture_recorded (m : Mod) (x : Nat) (t : Tread) (code : Int) (cycles : Nat) :
    m.Recorded (m.capture x t code cycles) := by
  unfold Mod.capture
  refine iteInduction (fun _ => .refl m) (fun _ => overAll_keeps .refl .trans _ (fun n j => ?_) m)
  refine Mod.Recorded.trans ((noteRaw_recorded n j code).trans (.setRecord ..))
    (overAll_keeps .refl .trans _ (fun n w => ?_) _)
  exact iteInduction (fun _ => recAt_recorded ..) (fun _ => .refl n)

theorem Mod.Recorded.inputs {m n : Mod} (h : m.Recorded n) : n.inputs = m.inputs := by
  obtain ⟨⟨_, _, _, rfl⟩, -⟩ := h
  rfl

theorem noteSample_samples (m : Mod) (x : Nat) (t : Tread) (cycles : Nat) (code : Int) :
    m.Samples (m.noteSample x t cycles code) := by
  unfold Mod.noteSample
  extract_lets s m1
  exact iteInduction (fun _ => .setRo ..) (fun _ => (Mod.Samples.setRo ..).trans (.setInp ..))

theorem closeWindow_samples (m : Mod) (x : Nat) (w : Win) : m.Samples (m.closeWindow x w) := by
  unfold Mod.closeWindow
  extract_lets s c sh lack sum missed s1 r p m1
  have hset : m.Samples m1 := .setInp ..
  exact iteInduction (fun _ => .setInp ..)
    (fun _ => iteInduction (fun _ => hset.trans (.recorded (recAt_recorded ..))) (fun _ => hset))

theorem addCode_samples (m : Mod) (x : Nat) (t : Tread) (code : Int) (landed : Bool) :
    m.Samples (m.addCode x t code landed) := by
  unfold Mod.addCode
  extract_lets w w1 others m1
  exact iteInduction (fun _ => (Mod.Samples.setInp ..).trans (closeWindow_samples ..)) (fun _ => .setInp ..)

theorem sample_samples (m : Mod) (x : Nat) (t : Tread) (cycles : Nat) (code : Int) :
    m.Samples (m.sample x t cycles code) :=
  (noteSample_samples ..).trans (addCode_samples ..)

theorem injected_samples (m : Mod) (x : Nat) (t : Tread) (code : Int) (cycles : Nat) :
    m.Samples (m.injected x t code cycles) := by
  unfold Mod.injected
  extract_lets q v m1 m2 m3
  have hvalue : m.Samples m2 :=
    ((Mod.Samples.setRo ..).trans (.setRo ..)).trans (.recorded (recAt_recorded ..))
  exact iteInduction (fun _ => hvalue)
    (fun _ => (hvalue.trans (noteSample_samples ..)).trans (.setInp ..))

/-! ### Windows -/

theorem winAt_congr {m n : Mod} (h : n.inputs = m.inputs) (x : Nat) (e : Tread) : n.winAt x e = m.winAt x e := by
  simp only [Mod.winAt, Mod.inp, h]

theorem winAt_ends (m : Mod) (x : Nat) (e : Tread) : (m.winAt x e).ends = e := by
  unfold Mod.winAt
  rcases h : (m.inp x).wins.find? fun w => decide (w.ends = e) with - | w
  · rw [h]
    rfl
  · rw [h]
    simpa using List.find?_some h

theorem find?_insertBy {β : Type} (lt : β → β → Bool) (q : β → Bool) (x : β) (l : List β) (hx : q x = true)
    (hl : ∀ y ∈ l, q y = false) : (insertBy lt x l).find? q = some x := by
  induction l with
  | nil => simp [insertBy, hx]
  | cons y l ih =>
    obtain ⟨hy, hl⟩ := List.forall_mem_cons.mp hl
    unfold insertBy
    split
    · simp [hx]
    · simp [hy, ih hl]

/-- A window with one more result in it. -/
def Win.with (w : Win) (code : Int) : Win := { w with sum := w.sum + code, got := w.got + 1 }

theorem addCode_open {m : Mod} {x : Nat} {t : Tread} {w : Win} (code : Int)
    (hw : m.winAt x (windowEnd (m.windowLen x) (m.inForce (0x3000 + x) 4) t) = w)
    (hopen : w.got + 1 + w.missed < m.inForce (0x3000 + x) 2) :
    m.addCode x t code true = m.setInp x { m.inp x with
      wins := insertBy (fun (a b : Win) => decide (a.ends < b.ends)) (w.with code)
        ((m.inp x).wins.filter fun v => !decide (v.ends = w.ends)) } := by
  subst hw
  exact if_neg (Nat.not_le.mpr hopen)

/-- A sample's code stands in its window, unless the sample completes it. -/
theorem winAt_addCode {m : Mod} {x : Nat} {t : Tread} {w : Win} (code : Int)
    (hw : m.winAt x (windowEnd (m.windowLen x) (m.inForce (0x3000 + x) 4) t) = w)
    (hopen : w.got + 1 + w.missed < m.inForce (0x3000 + x) 2) :
    (m.addCode x t code true).winAt x w.ends = w.with code := by
  rw [addCode_open code hw hopen]
  unfold Mod.winAt
  rw [inp_setInp, find?_insertBy _ _ _ _ (by simp [Win.with]) (by simp)]
  rfl

theorem sampleCode_unbiased {m : Mod} {x : Nat} {t : Tread} (code : Int) (h : m.biased x t = false) :
    m.sampleCode x t code = code :=
  if_neg (by simp [h])

theorem noteSample_wins (m : Mod) (x : Nat) (t : Tread) (cycles : Nat) (code : Int) :
    ((m.noteSample x t cycles code).inp x).wins = (m.inp x).wins ∧ (m.noteSample x t cycles code).eff = m.eff := by
  unfold Mod.noteSample
  extract_lets s m1
  split
  · exact ⟨rfl, rfl⟩
  · exact ⟨(congrArg InpSt.wins (inp_setInp m1 x _)).trans rfl, rfl⟩

theorem windowLen_congr {m n : Mod} (h : n.eff = m.eff) (x : Nat) : n.windowLen x = m.windowLen x := by
  change ({ m with eff := n.eff } : Mod).windowLen x = m.windowLen x
  rw [h]

/-- The window of a sample that is neither biased nor the last of its window (R163 to R165). -/
theorem winAt_sample {m : Mod} {x : Nat} {t : Tread} {w : Win} (cycles : Nat) (code : Int)
    (hw : m.winAt x (windowEnd (m.windowLen x) (m.inForce (0x3000 + x) 4) t) = w) (hbias : m.biased x t = false)
    (hopen : w.got + 1 + w.missed < m.inForce (0x3000 + x) 2) :
    (m.sample x t cycles code).winAt x w.ends = w.with code := by
  obtain ⟨hwins, heff⟩ := noteSample_wins m x t cycles code
  have hforce : ∀ idx sub, (m.noteSample x t cycles code).inForce idx sub = m.inForce idx sub :=
    fun idx sub => congrArg (stGet · (okey 0 idx sub)) heff
  have hlen : (m.noteSample x t cycles code).windowLen x = m.windowLen x := windowLen_congr heff x
  unfold Mod.sample
  rw [sampleCode_unbiased code hbias]
  refine winAt_addCode code ?_ (by rwa [hforce])
  rw [hlen, hforce, ← hw]
  unfold Mod.winAt
  rw [hwins]

/-! ### Results -/

/-- A result is judged by the configuration of the tread of its sample (R163). -/
theorem resultLands_eq {m : Mod} {c cycles off : Nat} {n : Tread} (slot : Nat) (inj : Bool) (code : Int)
    (hn : n = if off < cycles * 125 / 8 then m.tread - 1 else m.tread) (hc : c < 64) (hawake : m.tileAwake c = true)
    (hcal : (if inj then m.injCal c n else m.calIn c n) = false) :
    m.resultLands c slot inj code cycles off = ((m.asOf n).landed c slot inj code cycles n).asNow n m := by
  have hjudged : m.resultLands c slot inj code cycles off =
      if n < m.effAt then { ({ m with eff := m.effWas }.landed c slot inj code cycles n) with eff := m.eff }
      else m.landed c slot inj code cycles n := by
    subst hn
    exact if_neg (by simp [hawake, hcal]; omega)
  rw [hjudged]
  unfold Mod.asOf Mod.asNow
  split <;> rfl

theorem landed_regular {m : Mod} {c slot : Nat} (code : Int) (cycles : Nat) (n : Tread) (hslot : 0 < slot)
    (hlen : slot < m.regLen c) (hreg : m.regSlot c slot < 4) :
    m.landed c slot false code cycles n =
      (m.sample (4 * c + m.regSlot c slot) n cycles code).capture (4 * c + m.regSlot c slot) n code cycles :=
  (if_neg Bool.false_ne_true).trans (if_pos ⟨hlen, hreg, hslot⟩)

theorem landed_injected {m : Mod} {c slot : Nat} (code : Int) (cycles : Nat) (n : Tread)
    (hlen : slot < m.injLen c) (hreg : m.injSlot c slot < 4) :
    m.landed c slot true code cycles n =
      (m.injected (4 * c + m.injSlot c slot) n code cycles).capture (4 * c + m.injSlot c slot) n code cycles :=
  (if_pos rfl).trans (if_pos ⟨hlen, hreg⟩)

/-- What an injected result leaves in its input's objects (R166). -/
theorem injected_reports {m : Mod} {x : Nat} {n : Tread} (code : Int) (cycles : Nat) (hbias : m.biased x n = false) :
    (m.injected x n code cycles).rov (0x3000 + x) 0xF = (m.inputValue x (Dy.ofInt code)).1 ∧
    (m.injected x n code cycles).rov (0x3000 + x) 0x10 = n := by
  unfold Mod.injected
  rw [sampleCode_unbiased code hbias]
  extract_lets q v m1 m2 m3
  have hrecorded : m2.ro = m1.ro := by
    dsimp only [m2]
    unfold Mod.recAt
    dsimp only []
    repeat' split
    all_goals rfl
  have hvalue : m2.rov (0x3000 + x) 0xF = v.1 ∧ m2.rov (0x3000 + x) 0x10 = n := by
    rw [rov_congr hrecorded, rov_congr hrecorded]
    exact ⟨(rov_setRo_ne _ _ _ _ _ _ (by simp only [okey]; omega)).trans (rov_setRo ..), rov_setRo ..⟩
  have hnoted : ∀ sub, sub = 0xF ∨ sub = 0x10 → (m2.noteSample x n cycles code).rov (0x3000 + x) sub =
      m2.rov (0x3000 + x) sub := by
    intro sub hsub
    have hbit : (m2.setRoBit (0x3000 + x) 8 8 (m2.biased x n)).rov (0x3000 + x) sub = m2.rov (0x3000 + x) sub :=
      rov_setRo_ne _ _ _ _ _ _ (by simp only [okey]; omega)
    refine Eq.trans (rov_congr ?_ _ _) hbit
    unfold Mod.noteSample
    dsimp only []
    split <;> rfl
  split
  · exact hvalue
  · exact ⟨(hnoted _ (.inl rfl)).trans hvalue.1, (hnoted _ (.inr rfl)).trans hvalue.2⟩

/-- What the ring keeps for the capture slots changes no object of an input. -/
theorem asNow_capture_frame (m s : Mod) (x : Nat) (t n : Tread) (code : Int) (cycles : Nat) :
    ((m.capture x t code cycles).asNow n s).inputs = m.inputs ∧
    ∀ idx sub, idx < 0x3800 → ((m.capture x t code cycles).asNow n s).rov idx sub = m.rov idx sub := by
  obtain ⟨⟨_, _, _, heq⟩, hrov⟩ := capture_recorded m x t code cycles
  have hnow : ((m.capture x t code cycles).asNow n s).inputs = (m.capture x t code cycles).inputs ∧
      ((m.capture x t code cycles).asNow n s).ro = (m.capture x t code cycles).ro := by
    unfold Mod.asNow
    split <;> exact ⟨rfl, rfl⟩
  exact ⟨hnow.1.trans ((congrArg Mod.inputs heq).trans rfl), fun idx sub h => (rov_congr hnow.2 ..).trans (hrov idx sub h)⟩

/-! ### Windows that close (R165) -/

/-- The result of a window that closes with what it has. -/
def Mod.windowResult (m : Mod) (x : Nat) (w : Win) : Int :=
  let lack := m.inForce (0x3000 + x) 2 - (w.got + w.missed)
  let sum := w.sum + (lack : Int) * (m.inp x).last
  let sh := m.inForce (0x3000 + x) 3
  if sh = 0 then sum else (sum + (2 ^ (sh - 1) : Nat)) / (2 ^ sh : Nat)

/-- An input without the window that closes. -/
def Mod.windowLeft (m : Mod) (x : Nat) (w : Win) : InpSt :=
  { m.inp x with wins := (m.inp x).wins.filter fun v => !decide (v.ends = w.ends) }

/-- What a closed window presents. -/
def Mod.windowPres (m : Mod) (x : Nat) (w : Win) : Pres :=
  let missed := w.missed + (m.inForce (0x3000 + x) 2 - (w.got + w.missed))
  { r := m.windowResult x w, tread := w.ends, count := m.inForce (0x3000 + x) 2, shift := m.inForce (0x3000 + x) 3,
    incomplete := decide (0 < missed), bad := decide (m.inForce (0x3000 + x) 2 < 2 * missed) }

theorem closeWindow_eq (m : Mod) (x : Nat) (w : Win) :
    m.closeWindow x w =
      if w.ends + 1 < (m.inp x).since + m.windowLen x then m.setInp x (m.windowLeft x w)
      else
        let n := m.setInp x ((m.windowLeft x w).await (m.windowPres x w))
        if n.selected 0 x then n.recAt 0 w.ends 1 x [n.windowWord x (m.windowPres x w)] else n :=
  rfl

theorem recAt_frame (m : Mod) (s : Nat) (t : Tread) (kind key : Nat) (words : List Nat) :
    (m.recAt s t kind key words).ro = m.ro ∧ (m.recAt s t kind key words).inputs = m.inputs := by
  unfold Mod.recAt
  dsimp only []
  repeat' split
  all_goals exact ⟨rfl, rfl⟩

theorem await_pend {s : InpSt} (p : Pres) (h : s.pend = none) : (s.await p).pend = some p := by
  unfold InpSt.await
  rw [h]

theorem await_wins (s : InpSt) (p : Pres) : (s.await p).wins = s.wins := by
  unfold InpSt.await
  repeat' split
  all_goals rfl

theorem closeWindow_ro (m : Mod) (x : Nat) (w : Win) : (m.closeWindow x w).ro = m.ro := by
  rw [closeWindow_eq]
  split
  · rfl
  · dsimp only []
    split
    · exact (recAt_frame ..).1
    · rfl

theorem inp_congr {m n : Mod} (h : n.inputs = m.inputs) (x : Nat) : n.inp x = m.inp x :=
  congrArg (fun l : SMap InpSt => lookD l x {}) h

/-- A window of an input that was in use for the whole of it waits for the latch; another one is dropped. -/
theorem inp_closeWindow (m : Mod) (x : Nat) (w : Win) :
    (m.closeWindow x w).inp x =
      if w.ends + 1 < (m.inp x).since + m.windowLen x then m.windowLeft x w
      else (m.windowLeft x w).await (m.windowPres x w) := by
  rw [closeWindow_eq]
  split
  · exact inp_setInp ..
  · refine (inp_congr ?_ x).trans (inp_setInp m x ((m.windowLeft x w).await (m.windowPres x w)))
    dsimp only []
    split
    · exact (recAt_frame ..).2
    · rfl

theorem closeWindow_wins (m : Mod) (x : Nat) (w : Win) :
    ((m.closeWindow x w).inp x).wins = (m.inp x).wins.filter fun v => !decide (v.ends = w.ends) := by
  rw [inp_closeWindow]
  split
  · rfl
  · exact await_wins ..

theorem closeDue_due {m : Mod} {x : Nat} {w : Win} (h : m.dueWin x = some w) : m.closeDue x = m.closeWindow x w := by
  unfold Mod.closeDue
  rw [h]

/-! ### Injected sequences (R166, R168 to R170) -/

/-- What an edge of a trigger input writes: the input's level, the step chain and what reports it. -/
def Mod.NotesEdge (m n : Mod) : Prop :=
  (∃ trg levels ro gal chain2 chain4 out, n = { m with
    trg := trg, levels := levels, ro := ro, gal := gal, chain2 := chain2, chain4 := chain4, out := out }) ∧
  ∀ idx sub, idx < 0x3860 → n.rov idx sub = m.rov idx sub

theorem Mod.NotesEdge.refl (m : Mod) : m.NotesEdge m := ⟨⟨_, _, _, _, _, _, _, rfl⟩, fun _ _ _ => rfl⟩

theorem trgEdge_notesEdge (m : Mod) (k : Nat) (falling : Bool) : m.NotesEdge (m.trgEdge k falling) := by
  unfold Mod.trgEdge Mod.edge
  refine iteInduction (fun _ => .refl m) (fun _ => ?_)
  extract_lets m1
  obtain ⟨ro, gal, chain2, chain4, out, heq⟩ :=
    chainPut_reports m1 2 [m.tread % 2 ^ 32, 0xB00 + k + 4096 * b2n !falling] 4
  exact ⟨⟨_, _, ro, gal, chain2, chain4, out, heq⟩, fun _ _ h => rov_chainPut 2 _ 4 h⟩

/-- A converter that a firing has asked. -/
def ConvSt.askedAt (s : ConvSt) (off : Nat) : ConvSt := { s with reqAt := some (cycleOf off) }

theorem runTo_askedAt (len upTo n off : Nat) (s : ConvSt) :
    ConvSt.runTo len upTo n (s.askedAt off) = (ConvSt.runTo len upTo n s).askedAt off := by
  induction n generalizing s with
  | zero => rfl
  | succ n ih =>
    unfold ConvSt.runTo
    by_cases h : s.next < len ∧ Max.max (32 * s.next) s.free ≤ 576 ∧ 125 * Max.max (32 * s.next) s.free < 8 * upTo
    · exact (if_pos h).trans ((ih { s with next := s.next + 1, free := Max.max (32 * s.next) s.free + 32 }).trans
        (congrArg (ConvSt.askedAt · off) (if_pos h).symm))
    · exact (if_neg h).trans (congrArg (ConvSt.askedAt · off) (if_neg h).symm)

theorem inject_askedAt (p : Prop) [Decidable p] (s : ConvSt) (len off : Nat) :
    (if p then (s.askedAt off).inject 32 len else s.askedAt off) = (if p then s.inject 32 len else s).askedAt off := by
  split <;> rfl

theorem ended_askedAt (p : Prop) [Decidable p] (s : ConvSt) (off : Nat) :
    (if p then { s.askedAt off with inj := 0 } else s.askedAt off) = (if p then { s with inj := 0 } else s).askedAt off := by
  split <;> rfl

/-- A firing's place is noted, which the converter's sequence does not see. -/
theorem convTo_askedAt (m : Mod) (c off : Nat) :
    (m.setConv c ((m.conv c).askedAt off)).convTo c off = (m.convTo c off).askedAt off := by
  have hlens : (m.setConv c ((m.conv c).askedAt off)).injLen c = m.injLen c ∧
      (m.setConv c ((m.conv c).askedAt off)).regLen c = m.regLen c := ⟨rfl, rfl⟩
  unfold Mod.convTo
  dsimp only []
  rw [conv_setConv, hlens.1, hlens.2, inject_askedAt, runTo_askedAt]
  exact ended_askedAt ..

theorem checkRuns_askedAt (m : Mod) (c off : Nat) :
    (m.setConv c ((m.conv c).askedAt off)).checkRuns c off = m.checkRuns c off := by
  have hlen : (m.setConv c ((m.conv c).askedAt off)).regLen c = m.regLen c := rfl
  unfold Mod.checkRuns
  dsimp only []
  rw [convTo_askedAt, hlen, runTo_askedAt]
  rfl

/-- A firing that finds its converter idle starts the injected sequence at the next edge of the sampling grid. -/
theorem fireAt_idle {m : Mod} {c off : Nat} (hlen : 0 < m.injLen c) (hawake : m.tileAwake c = true)
    (hnew : (m.conv c).reqAt ≠ some (cycleOf off)) (hcal : m.convCal c = false) (hcheck : m.checkRuns c off = false)
    (hidle : (m.convTo c off).inj = 0) (hfree : 125 * (m.convTo c off).free ≤ 8 * off)
    (hroom : firstEdge off + 32 * m.injLen c ≤ 608) :
    m.fireAt c off = ((m.setConv c ((m.conv c).askedAt off)).setConv c ((m.convTo c off).askedAt off)).setConv c
      (((m.convTo c off).askedAt off).inject (firstEdge off) (m.injLen c)) := by
  have hasked : (m.setConv c ((m.conv c).askedAt off)).convCal c = false := by
    unfold Mod.convCal at hcal ⊢
    rw [conv_setConv]
    exact hcal
  have hbusy : ¬8 * off < 125 * (m.convTo c off).free := by omega
  have hlate : ¬608 < firstEdge off + 32 * m.injLen c := by omega
  unfold Mod.fireAt
  extract_lets len old m1 s1 m2 s m3 dropped busy start late
  have hm1 : m1 = m.setConv c ((m.conv c).askedAt off) := rfl
  have hchecked : m2 = m1 := by
    refine if_neg ?_
    rw [hm1, checkRuns_askedAt, hcheck]
    exact Bool.false_ne_true
  have hs : s = (m.convTo c off).askedAt off := (congrArg (Mod.convTo · c off) hchecked).trans (convTo_askedAt m c off)
  have hnotbusy : busy = false := decide_eq_false (by rw [hs]; exact hbusy)
  have hstart : start = firstEdge off := if_neg (by simp [hnotbusy])
  have hnotlate : late = false := decide_eq_false (by rw [hstart]; exact hlate)
  have hstarted : m3.setConv c (s.inject start len) =
      ((m.setConv c ((m.conv c).askedAt off)).setConv c ((m.convTo c off).askedAt off)).setConv c
        (((m.convTo c off).askedAt off).inject (firstEdge off) (m.injLen c)) := by
    rw [show m3 = m2.setConv c s from rfl, hchecked, hs, hstart]
    rfl
  rw [if_neg (by simp [hawake, hnew, len]; omega), if_neg (by rw [hm1, hasked]; exact Bool.false_ne_true),
    if_neg (by rw [hs]; exact not_not_intro hidle)]
  simp only [hnotbusy, hnotlate, Bool.or_false, if_neg Bool.false_ne_true, hstarted, ite_self]

theorem fire_unasked {m : Mod} {c off : Nat} (hoff : off < 10000) (hasked : (m.conv c).asked = []) :
    m.fire c off = m.fireAt c off := by
  have hsettled : m.settleAsked c off = m := by
    unfold Mod.settleAsked
    rw [hasked]
    rfl
  unfold Mod.fire
  rw [if_pos hoff, hsettled]

/-- The module as the firing's edge leaves it. -/
def Mod.firingEdge (m : Mod) (source : Nat) (falling : Bool) : Mod := if source < 4 then m.trgEdge source falling else m

theorem firingEdge_notesEdge (m : Mod) (source : Nat) (falling : Bool) : m.NotesEdge (m.firingEdge source falling) :=
  iteInduction (fun _ => trgEdge_notesEdge ..) (fun _ => .refl m)

/-- What a firing that finds its converter idle leaves (R166, R168). -/
theorem firing_idle {m n : Mod} {c off : Nat} (hedge : m.NotesEdge n) (hoff : off < 10000)
    (hlen : 0 < m.injLen c) (hawake : m.tileAwake c = true) (hasked : (m.conv c).asked = [])
    (hnew : (m.conv c).reqAt ≠ some (cycleOf off)) (hcal : m.convCal c = false) (hcheck : m.checkRuns c off = false)
    (hidle : (m.convTo c off).inj = 0) (hfree : 125 * (m.convTo c off).free ≤ 8 * off)
    (hroom : firstEdge off + 32 * m.injLen c ≤ 608) :
    (n.fire c off).conv c = ((m.convTo c off).askedAt off).inject (firstEdge off) (m.injLen c) ∧
      (n.fire c off).objs = m.objs ∧ (n.fire c off).inputs = m.inputs := by
  obtain ⟨⟨_, _, _, _, _, _, _, heq⟩, hrov⟩ := hedge
  have hconv : n.conv c = m.conv c := by rw [heq]; rfl
  have hconvTo : n.convTo c off = m.convTo c off := by rw [heq]; rfl
  have hinjLen : n.injLen c = m.injLen c := by rw [heq]; rfl
  have htiles : n.tiles = m.tiles := by rw [heq]
  have hchecks : n.checkRuns c off = m.checkRuns c off := by rw [heq]; rfl
  have hnawake : n.tileAwake c = true := by
    unfold Mod.tileAwake Mod.blockIn at hawake ⊢
    rwa [hrov _ _ (by omega), htiles]
  have hncal : n.convCal c = false := by
    unfold Mod.convCal at hcal ⊢
    rwa [hrov _ _ (by omega), hconv]
  rw [fire_unasked hoff (by rwa [hconv]), fireAt_idle (by rwa [hinjLen]) hnawake (by rwa [hconv]) hncal
    (by rwa [hchecks]) (by rwa [hconvTo]) (by rwa [hconvTo]) (by rwa [hinjLen]), hconvTo, hinjLen]
  refine ⟨conv_setConv .., ?_, ?_⟩
  · exact (congrArg Mod.objs heq).trans rfl
  · exact (congrArg Mod.inputs heq).trans rfl

/-- A firing: its edge is noted, and the converter's sequence asked for where its configuration names the source. -/
def Mod.firing (m : Mod) (c source : Nat) (falling : Bool) (off : Offset) : Mod :=
  if c < 64 ∧ (m.firingEdge source falling).firingMeets c source falling then
    (m.firingEdge source falling).fire c off
  else m.firingEdge source falling

theorem firing_runs {m : Mod} {c source : Nat} {falling : Bool} (off : Offset) (hc : c < 64)
    (hmeets : m.firingMeets c source falling = true) :
    m.firing c source falling off = (m.firingEdge source falling).fire c off := by
  have hsame : (m.firingEdge source falling).firingMeets c source falling = m.firingMeets c source falling := by
    obtain ⟨⟨_, _, _, _, _, _, _, heq⟩, -⟩ := firingEdge_notesEdge m source falling
    rw [heq]
    rfl
  exact if_pos ⟨hc, hsame.trans hmeets⟩

/-- Settles O36: a result's sample, a firing, a deferred start and a window that closes. -/
theorem conversionsRun : Obligations.ConversionsRun := by
  unfold Obligations.ConversionsRun
  intro s c hlife hc hawake
  refine ⟨fun slot code cycles off n hn => ⟨fun hslot hlen hreg hcal => ?_, fun hlen hreg hcal => ?_⟩,
    fun source falling off hcal hoff hmeets hlen hasked hnew hcheck hidle hfree hroom => ?_, fun hinj hcal => ?_,
    fun x w hx hdue => ?_⟩
  · have hlanded := (resultLands_eq slot false code hn hc hawake hcal).trans
      (congrArg (Mod.asNow · n s.m) (landed_regular code cycles n hslot hlen hreg))
    have hexec := exec_inService_eq (c := .resultLands c slot false code cycles off)
      (·.resultLands c slot false code cycles off) rfl hlife hlanded
    refine ⟨hexec, fun hbias hopen => ?_⟩
    generalize hx : 4 * c + (s.m.asOf n).regSlot c slot = x at hexec hbias hopen ⊢
    have hof := Mod.Samples.asOf s.m n
    have hall : s.m.Samples ((((s.m.asOf n).sample x n cycles code).capture x n code cycles).asNow n s.m) :=
      ((hof.trans (sample_samples ..)).trans (.recorded (capture_recorded ..))).trans (.asNow ..)
    refine ⟨_, hexec, ?_, hall.objs, hall.tracks, hall.field⟩
    have hwin : ∀ e, (s.m.asOf n).winAt x e = s.m.winAt x e := by
      unfold Mod.asOf
      split <;> exact fun _ => rfl
    refine (winAt_congr (asNow_capture_frame ..).1 ..).trans
      (winAt_sample cycles code (hwin _) ((hof.biased x n).trans hbias) hopen)
  · have hlanded := (resultLands_eq slot true code hn hc hawake hcal).trans
      (congrArg (Mod.asNow · n s.m) (landed_injected code cycles n hlen hreg))
    have hexec := exec_inService_eq (c := .resultLands c slot true code cycles off)
      (·.resultLands c slot true code cycles off) rfl hlife hlanded
    refine ⟨hexec, fun hbias => ?_⟩
    have hof := Mod.Samples.asOf s.m n
    have hall := ((hof.trans (injected_samples (s.m.asOf n) (4 * c + (s.m.asOf n).injSlot c slot) n code cycles)).trans
      (.recorded (capture_recorded _ (4 * c + (s.m.asOf n).injSlot c slot) n code cycles))).trans (.asNow _ s.m n)
    have hrange : 0x3000 + (4 * c + (s.m.asOf n).injSlot c slot) < 0x3800 := by omega
    have hreports := injected_reports code cycles ((hof.biased _ n).trans hbias)
    have hframe := (asNow_capture_frame ((s.m.asOf n).injected (4 * c + (s.m.asOf n).injSlot c slot) n code cycles) s.m
      (4 * c + (s.m.asOf n).injSlot c slot) n n code cycles).2
    exact ⟨_, hexec, (hframe _ _ hrange).trans hreports.1, (hframe _ _ hrange).trans hreports.2, hall.objs, hall.tracks,
      hall.field⟩
  · obtain ⟨hconv, hobjs, hinputs⟩ := firing_idle (firingEdge_notesEdge s.m source falling) hoff hlen hawake hasked hnew
      hcal hcheck hidle hfree hroom
    refine ⟨_, exec_inService_eq (·.firing c source falling off) rfl hlife (firing_runs off hc hmeets), ?_⟩
    exact ⟨congrArg ConvSt.inj hconv, congrArg ConvSt.injEnd hconv, congrArg ConvSt.free hconv,
      congrArg ConvSt.reqAt hconv, hobjs, hinputs⟩
  · exact exec_inService_eq (fun m => if (m.conv c).inj = 4 ∧ m.tileAwake c ∧ !m.convCal c then
      m.setConv c ((m.conv c).inject 32 (m.injLen c)) else m) rfl hlife (if_pos ⟨hinj, hawake, by simp [hcal]⟩)
  · have hframe := closeWindow_samples s.m x w
    refine ⟨_, exec_inService_eq (fun m => if x < 256 then m.closeDue x else m) rfl hlife
      ((if_pos hx).trans (closeDue_due hdue)), closeWindow_wins .., fun hfull hnone => ?_, hframe.objs,
      closeWindow_ro .., hframe.tracks⟩
    have hwait : ((s.m.closeWindow x w).inp x).pend = some (s.m.windowPres x w) := by
      rw [inp_closeWindow, if_neg (Nat.not_lt.mpr hfull)]
      exact await_pend _ hnone
    exact ⟨_, hwait, rfl, rfl, rfl⟩

end Sys2Proof.Machine
end

section
/-! PROOFS. The field side: inputs and paths, the hold window, bank supplies and dark tests. -/

namespace Sys2Proof.Machine

/-! ### Commands on the field side -/

theorem exec_fielded_eq {c : Instr} {s : State} {n : Mod} (f : Mod → Mod) (h : exec c s = s.fielded f)
    (hpowered : s.m.field.powered = true) (hf : f s.m = n) : exec c s = .next (s.withMod n) :=
  hf ▸ h.trans (State.fielded_on s f hpowered)

/-! ### Work on the field side -/

/-- A module whose field side has worked: banks, levels, a pulse and the safety outputs, and what reports them. -/
def Mod.FieldWork (m n : Mod) : Prop :=
  ∃ fbanks doOn changed pulse ro gal chain2 chain4 out safety, n = { m with
    fbanks := fbanks, ro := ro, gal := gal, chain2 := chain2, chain4 := chain4, out := out, safety := safety,
    field := { m.field with doOn := doOn, changed := changed, pulse := pulse } }

namespace Mod.FieldWork
variable {m n k : Mod}

theorem refl (m : Mod) : m.FieldWork m := ⟨_, _, _, _, _, _, _, _, _, _, rfl⟩

theorem trans (h : m.FieldWork n) (g : n.FieldWork k) : m.FieldWork k := by
  obtain ⟨_, _, _, _, _, _, _, _, _, _, rfl⟩ := h
  obtain ⟨f, d, c, p, ro, gal, c2, c4, out, safety, rfl⟩ := g
  exact ⟨f, d, c, p, ro, gal, c2, c4, out, safety, rfl⟩

theorem setFbank (m : Mod) (b : Nat) (v : BankSt) : m.FieldWork (m.setFbank b v) := ⟨_, _, _, _, _, _, _, _, _, _, rfl⟩

theorem setSafOut (m : Mod) (p : Nat) (v : SafOutSt) : m.FieldWork (m.setSafOut p v) := ⟨_, _, _, _, _, _, _, _, _, _, rfl⟩

theorem setLevels (m : Mod) : m.FieldWork m.setLevels := ⟨_, _, _, _, _, _, _, _, _, _, rfl⟩

theorem setRo (m : Mod) (idx sub v : Nat) : m.FieldWork (m.setRo idx sub v) := ⟨_, _, _, _, _, _, _, _, _, _, rfl⟩

theorem reports (h : m.Reports n) : m.FieldWork n := by
  obtain ⟨_, _, _, _, _, rfl⟩ := h
  exact ⟨_, _, _, _, _, _, _, _, _, _, rfl⟩

theorem pulsePass (m : Mod) : m.FieldWork m.pulsePass := by
  unfold Mod.pulsePass
  split
  · exact iteInduction (fun _ => ⟨_, _, _, _, _, _, _, _, _, _, rfl⟩) (fun _ => refl m)
  · exact refl m

theorem abandonDark (m : Mod) (b : Nat) : m.FieldWork (m.abandonDark b) := by
  unfold Mod.abandonDark
  split
  · exact (setFbank ..).trans (reports (bump_reports ..))
  · exact refl m

theorem darkPass (m : Mod) : m.FieldWork m.darkPass :=
  (overAll_keeps refl trans (List.range 6) (fun n b => iteInduction (fun _ => abandonDark n b) (fun _ => refl n)) m).trans
    (pulsePass _)

theorem cutPass (m : Mod) : m.FieldWork m.cutPass := by
  unfold Mod.cutPass
  extract_lets w cuts ends m1 m2
  have hcut : m.FieldWork m1 := overAll_keeps refl trans cuts (fun n b => setFbank n b _) m
  have hend : m1.FieldWork m2 := overAll_keeps refl trans ends (fun n b => setFbank n b _) m1
  exact iteInduction (fun _ => refl m) (fun _ => ((hcut.trans hend).trans (darkPass _)).trans (setLevels _))

theorem logicLoss (m : Mod) : m.FieldWork m.logicLoss := by
  refine trans (overAll_keeps refl trans (List.range 8) (fun n p => ?_) m) (cutPass _)
  exact iteInduction (fun _ => (setSafOut ..).trans (reports (logGal_reports ..))) (fun _ => refl n)

/-- What the field side's work leaves as it is. -/
theorem frame (h : m.FieldWork n) :
    n.objs = m.objs ∧ n.tracks = m.tracks ∧ n.life = m.life ∧ n.tread = m.tread ∧
    n.field.aoFailed = m.field.aoFailed ∧ n.field.aoVal = m.field.aoVal ∧ n.field.doFailed = m.field.doFailed ∧
    n.field.holdValid = m.field.holdValid := by
  obtain ⟨_, _, _, _, _, _, _, _, _, _, rfl⟩ := h
  exact ⟨rfl, rfl, rfl, rfl, rfl, rfl, rfl, rfl⟩

end Mod.FieldWork

/-! ### The hold window (R203 to R205) -/

/-- The module as the end of its hold windows marks it. -/
def Mod.holdMarked (m : Mod) (ms : Nat) : Mod :=
  { m with field := { m.field with
    aoHeld := m.field.aoHeld || m.aoOver ms, aoFailed := m.field.aoFailed || m.aoOver ms,
    doHeld := orBits m.field.doHeld (m.banksOver ms), doFailed := orBits m.field.doFailed (m.banksOver ms),
    holdValid := false,
    aoVal := if m.aoOver ms then m.field.failAo else m.field.aoVal,
    aoCode := if m.aoOver ms then m.aoCodes m.field.failAo else m.field.aoCode } }

theorem holdExpiry_over {m : Mod} {ms : Nat} (h : m.holdOver ms = true) :
    (m.holdMarked ms).FieldWork ((m.holdExpiry ms).logicLoss) := by
  have heq : m.holdExpiry ms = (m.holdMarked ms).darkPass.setLevels := if_neg (by simp [h])
  rw [heq]
  exact ((Mod.FieldWork.darkPass _).trans (.setLevels _)).trans (.logicLoss _)

/-- Settles O40: the end of a hold window, of the hold-up, and a repeat in standby. -/
theorem holdRunsOut : Obligations.HoldRunsOut := by
  unfold Obligations.HoldRunsOut
  intro s
  refine ⟨fun ms hpowered hover => ?_, ⟨_, rfl, powerOff_life _, powerOff_unsupplied _⟩, fun hpowered hstandby => ?_⟩
  · obtain ⟨hobjs, htracks, -, -, hfailed, hval, hbanks, hvalid⟩ := (holdExpiry_over hover).frame
    refine ⟨_, exec_fielded_eq (fun m => if m.holdOver ms then (m.holdExpiry ms).logicLoss else m) rfl hpowered
      (if_pos hover), fun hao => ⟨hfailed.trans ?_, hval.trans ?_⟩, fun hao => ⟨hfailed.trans ?_, hval.trans ?_⟩, hbanks,
      hvalid, hobjs, htracks⟩
    all_goals simp [Mod.holdMarked, hao]
  · refine exec_fielded_eq (·.repeatImage) rfl hpowered (if_neg ?_)
    rcases hstandby with h | h <;> simp [h, hpowered]


/-! ### Debounced inputs, duty periods and the two paths (R188, R192 to R195) -/

theorem debounceTo_held {m : Mod} {i level samples : Nat} (hpowered : m.field.powered = true) (hi : i < 192)
    (hnew : tb m.field.di i ≠ decide (level = 1)) (hheld : m.inForce (0x3300 + i) 1 ≤ m.heldSamples i samples) :
    m.debounceTo i level samples =
      let n := { m with field := { m.field with di := setBit m.field.di i (decide (level = 1)) } }
      if level = 1 then n.bump (0x3300 + i) 5 else n :=
  if_neg (by
    rintro (h | h | h | h)
    · omega
    · simp [hpowered] at h
    · exact hnew h
    · omega)

theorem dutyStart_period {m : Mod} {o : Nat} (k : Nat) (hlife : m.life = .run) (ho : o < 192) (hduty : m.isDuty o = true)
    (hpath : m.field.fallOut = false) (hon : tb m.field.image.dos o = true)
    (hphase : m.phaseTread % Max.max 1 (m.cfg (0x3400 + o) 4) = 0) :
    m.dutyStart o k = ({ m with field := { m.field with
      dutyOn := setBit m.field.dutyOn o
        (decide (0 < dutyCount (lookD m.field.image.duty o 0) (Max.max 1 (m.cfg (0x3400 + o) 4)))) } } : Mod).setLevels := by
  unfold Mod.dutyStart
  dsimp only []
  rw [if_neg (by simp [hduty, hpath, hon]; omega), if_pos (by simpa [hlife] using hphase)]

theorem pathChange_reports (m : Mod) : m.Reports m.pathChange := (bump_reports ..).trans (logGal_reports ..)

theorem forceFaults_keeps (m : Mod) : ∃ ro, m.forceFaults = { m with ro := ro, snapFault := 63 } := by
  have hcounts := overAll_keeps (R := fun m n : Mod => ∃ ro, n = { m with ro := ro }) (fun m => ⟨m.ro, rfl⟩)
    (fun ⟨_, ha⟩ ⟨ro, hb⟩ => ⟨ro, by rw [hb, ha]⟩) ((List.range 6).filter fun b => !tb m.snapFault b)
    (f := fun n b => n.bump (0x34C0 + b) 0x0B) (fun _ _ => ⟨_, rfl⟩) m
  obtain ⟨ro, hro⟩ := hcounts
  exact ⟨ro, congrArg (fun n : Mod => { n with snapFault := 63 }) hro⟩

theorem fallback_out {m : Mod} (hpath : m.field.fallOut = false) (hbad : 3 ≤ m.field.badOut) :
    m.fallback 0 = m.outFalls := by
  unfold Mod.fallback
  dsimp only []
  rw [if_pos rfl, if_neg (by simp [hpath]; omega)]

theorem fallback_in {m : Mod} (hpath : m.field.fallIn = false) (hbad : 3 ≤ m.field.badIn) : m.fallback 1 = m.inFalls := by
  unfold Mod.fallback
  dsimp only []
  rw [if_neg (by decide), if_pos rfl, if_neg (by simp [hpath]; omega)]

theorem mainReturn_out {m : Mod} (hpath : m.field.fallOut = true) (hgood : 999 ≤ m.field.goodOut) :
    m.mainReturn 0 = m.outReturns := by
  unfold Mod.mainReturn
  dsimp only []
  rw [if_pos rfl, if_neg (by simp [hpath]; omega)]

theorem mainReturn_in {m : Mod} (hpath : m.field.fallIn = true) (hgood : 999 ≤ m.field.goodIn) :
    m.mainReturn 1 = { m with field := { m.field with fallIn := false, badIn := 0 } } := by
  unfold Mod.mainReturn
  dsimp only []
  rw [if_neg (by decide), if_pos rfl, if_neg (by simp [hpath]; omega)]

/-- Settles O39: an input's level, a duty period, and each side of the field link going over to a path. -/
theorem pathsAndInputs : Obligations.PathsAndInputs := by
  unfold Obligations.PathsAndInputs
  intro s hpowered
  refine ⟨fun i level samples hi hnew hheld => ?_, fun o k hlife ho hduty hpath hon hphase => ?_, fun hpath hbad => ?_,
    fun hpath hbad => ?_, fun hpath hgood => ?_, fun hpath hgood => ?_⟩
  · exact exec_fielded_eq (·.debounceTo i level samples) rfl hpowered (debounceTo_held hpowered hi hnew hheld)
  · exact exec_fielded_eq (·.dutyStart o k) rfl hpowered (dutyStart_period k hlife ho hduty hpath hon hphase)
  · obtain ⟨_, _, _, _, _, heq⟩ := pathChange_reports { s.m with field := { s.m.field with fallOut := true, goodOut := 0 } }
    exact ⟨_, exec_fielded_eq (·.fallback 0) rfl hpowered ((fallback_out hpath hbad).trans heq), rfl, rfl, rfl, rfl⟩
  · have hfalls := fallback_in hpath hbad
    unfold Mod.inFalls at hfalls
    dsimp only [] at hfalls
    obtain ⟨_, hforced⟩ := forceFaults_keeps { s.m with field := { s.m.field with
      fallIn := true, goodIn := 0, diStale := false, snapDi := s.m.field.diRaw, snapRaw := s.m.field.diRaw } }
    rw [hforced] at hfalls
    obtain ⟨_, _, _, _, _, hreported⟩ := pathChange_reports _
    exact ⟨_, exec_fielded_eq (·.fallback 1) rfl hpowered (hfalls.trans hreported), rfl, rfl, rfl, rfl, rfl⟩
  · exact ⟨_, exec_fielded_eq (·.mainReturn 0) rfl hpowered (mainReturn_out hpath hgood), rfl, rfl, rfl, rfl, rfl, rfl⟩
  · exact ⟨_, exec_fielded_eq (·.mainReturn 1) rfl hpowered (mainReturn_in hpath hgood), rfl, rfl, rfl⟩

/-! ### Bank supplies and switches (R196 to R199) -/

theorem sag_bank {m : Mod} {b : Nat} (hb : b < 6) (h : (m.fbank b).state ≠ 2) :
    m.sag b = (m.setFbank b { m.fbank b with
      state := 1, low := true, under := true, qualified := false }).darkPass.setLevels :=
  if_neg (by simp [h]; omega)

/-- A bank that returns by itself from a sag (R197). -/
def BankSt.returned (s : BankSt) : BankSt :=
  if s.state = 1 ∧ s.qualified = true ∧ s.byCut = false then { s with state := 0 } else s

theorem fbank_returns (l : List Nat) (hl : l.Nodup) (m : Mod) (b : Nat) :
    (overAll l (fun (m : Mod) b => if (m.fbank b).state = 1 ∧ (m.fbank b).qualified ∧ !(m.fbank b).byCut then
      m.setFbank b { m.fbank b with state := 0 } else m) m).fbank b =
      if b ∈ l then (m.fbank b).returned else m.fbank b := by
  induction l generalizing m with
  | nil => rfl
  | cons c l ih =>
    obtain ⟨hc, hl⟩ := List.nodup_cons.mp hl
    refine (ih hl _).trans ?_
    have hone : ∀ x, (if (m.fbank c).state = 1 ∧ (m.fbank c).qualified ∧ !(m.fbank c).byCut then
        m.setFbank c { m.fbank c with state := 0 } else m).fbank x =
        if x = c then (m.fbank c).returned else m.fbank x := by
      intro x
      unfold BankSt.returned
      simp only [Bool.not_eq_true']
      by_cases hx : x = c
      · subst hx
        rw [if_pos rfl]
        split
        · exact fbank_setFbank ..
        · rfl
      · rw [if_neg hx]
        split
        · exact fbank_setFbank_ne _ _ _ _ (Ne.symm hx)
        · rfl
    dsimp only []
    rw [hone]
    by_cases hbc : b = c
    · subst hbc
      simp [hc]
    · simp [hbc]

theorem fbank_autoEnable (m : Mod) (mask : Nat) {b : Nat} (hb : b < 6) :
    (m.autoEnable mask).fbank b =
      if tb mask b = true ∧ m.cfg (0x34C0 + b) 3 = 1 then (m.fbank b).returned else m.fbank b := by
  unfold Mod.autoEnable
  rw [fbank_returns _ (List.nodup_range.filter _)]
  simp [hb]

/-- Two conditions with one answer where either fails are one condition. -/
theorem ite_of_and {α : Type} (p q : Prop) [Decidable p] [Decidable q] (a b : α) :
    (if p ∧ q then a else b) = if p then if q then a else b else b := by
  by_cases hp : p
  · by_cases hq : q
    · rw [if_pos ⟨hp, hq⟩, if_pos hp, if_pos hq]
    · rw [if_neg fun h => hq h.2, if_pos hp, if_neg hq]
  · rw [if_neg fun h => hp h.1, if_neg hp]

/-- Settles O41: the bank's supply and its switches, one event each. -/
theorem bankSupplies : Obligations.BankSupplies := by
  unfold Obligations.BankSupplies
  intro s b hpowered hb
  have hplace : ∀ i, i < 32 → (32 * b + i) / 32 = b ∧ (32 * b + i) % 32 = i ∧ ¬192 ≤ 32 * b + i := fun i hi => by omega
  refine ⟨fun h => ?_, ?_, fun mask => ?_, ?_, ?_, fun i hi => ?_, fun i hi hhot => ?_⟩
  · exact exec_fielded_eq (·.sag b) rfl hpowered (sag_bank hb h)
  · exact exec_fielded_eq (·.qualified b) rfl hpowered (if_neg (by omega))
  · rw [fbank_autoEnable s.m mask hb, BankSt.returned, ← ite_of_and]
    simp only [and_assoc]
  · exact exec_fielded_eq (·.supplyLow b) rfl hpowered (if_neg (by omega))
  · exact exec_fielded_eq (·.supplyBack b) rfl hpowered (if_neg (by omega))
  · obtain ⟨hbank, hswitch, hin⟩ := hplace i hi
    refine ⟨_, exec_fielded_eq (·.overTemp (32 * b + i)) rfl hpowered (if_neg hin), ?_⟩
    simp only [hbank, hswitch]
    exact ⟨congrArg BankSt.hot (fbank_setFbank ..), congrArg BankSt.cooled (fbank_setFbank ..), rfl, rfl,
      fun c hc => fbank_setFbank_ne _ _ _ _ (Ne.symm hc)⟩
  · obtain ⟨hbank, hswitch, hin⟩ := hplace i hi
    refine exec_fielded_eq (·.cooledDown (32 * b + i)) rfl hpowered ((if_neg hin).trans ?_)
    simp only [hbank, hswitch]
    exact if_pos hhot

/-! ### Dark tests (R200, R201) -/

theorem darkStart_free {m : Mod} {b o : Nat} (hbeating : m.beating = true) (hstate : (m.fbank b).state = 0)
    (hidle : (m.fbank b).darkOut = none) (hpath : m.field.fallOut = false) (hgood : tb m.field.doFailed b = false)
    (hspaced : ∀ l, (m.fbank b).darkLast = some l → l + 100 ≤ m.tread) (hnext : m.darkNext b = some o) :
    m.darkStart b = (m.setFbank b { m.fbank b with
      darkOut := some o, darkSince := m.tread, darkNext := o % 32 + 1,
      darkPeriod := m.tread / 100 / Max.max 1 (m.cfg (0x34C0 + b) 8) }).setLevels := by
  unfold Mod.darkStart
  extract_lets st spaced period
  have hspace : spaced = true := by
    dsimp only [spaced, st]
    split
    · next l hl => exact decide_eq_true (hspaced l hl)
    · rfl
  rw [if_neg (by simp [st, hbeating, hstate, hidle, hpath, hgood, hspace]), hnext]

theorem darkEnd_over {m : Mod} {b o : Nat} (readback : Nat) (hrun : (m.fbank b).darkOut = some o)
    (hover : m.life ≠ .run ∨ m.cfg (0x34C0 + b) 9 < (m.tread - (m.fbank b).darkSince + 1) * 10) :
    m.darkEnd b readback = (m.setFbank b { m.fbank b with
      darkOut := none, darkLast := some m.tread,
      darkBad := if (m.group o).all (fun x => !tb readback x) then (m.fbank b).darkBad
        else setBit (m.fbank b).darkBad (o % 32) true }).setLevels := by
  unfold Mod.darkEnd
  simp only [hrun]
  refine if_neg fun h => ?_
  rcases hover with hlife | htime
  · exact hlife h.1
  · exact Nat.not_le.mpr htime h.2

/-- Settles O42: a dark test's start and its end. -/
theorem darkTests : Obligations.DarkTests := by
  unfold Obligations.DarkTests
  intro s b o hpowered hb
  refine ⟨fun hbeating hstate hidle hpath hgood hspaced hnext => ?_, fun readback hrun hover => ?_⟩
  · have hbank := fbank_setFbank s.m b { s.m.fbank b with
      darkOut := some o, darkSince := s.m.tread, darkNext := o % 32 + 1,
      darkPeriod := s.m.tread / 100 / Max.max 1 (s.m.cfg (0x34C0 + b) 8) }
    exact ⟨_, exec_fielded_eq (fun m => if b < 6 then m.darkStart b else m) rfl hpowered
      ((if_pos hb).trans (darkStart_free hbeating hstate hidle hpath hgood hspaced hnext)),
      congrArg BankSt.darkOut hbank, congrArg BankSt.darkSince hbank, rfl, rfl⟩
  · have hbank := fbank_setFbank s.m b { s.m.fbank b with
      darkOut := none, darkLast := some s.m.tread,
      darkBad := if (s.m.group o).all (fun x => !tb readback x) then (s.m.fbank b).darkBad
        else setBit (s.m.fbank b).darkBad (o % 32) true }
    exact ⟨_, exec_fielded_eq (·.darkEnd b readback) rfl hpowered (darkEnd_over readback hrun hover),
      congrArg BankSt.darkOut hbank, congrArg BankSt.darkLast hbank, congrArg BankSt.darkBad hbank, rfl, rfl⟩

end Sys2Proof.Machine
end

section
/-! PROOFS. The safety domain: its states, its cycle, and the events of its pairs. -/

namespace Sys2Proof.Machine

/-! ### What leaves the safety domain alone -/

theorem abandonDark_safety (m : Mod) (b : Nat) : (m.abandonDark b).safety = m.safety := by
  unfold Mod.abandonDark
  split <;> rfl

theorem pulsePass_safety (m : Mod) : m.pulsePass.safety = m.safety := by
  unfold Mod.pulsePass
  split
  · split <;> rfl
  · rfl

theorem darkPass_safety (m : Mod) : m.darkPass.safety = m.safety := by
  refine (pulsePass_safety _).trans (overAll_safety _ _ _ fun n b => ?_)
  split
  · exact abandonDark_safety n b
  · rfl

theorem setLevels_safety (m : Mod) : m.setLevels.safety = m.safety := rfl

theorem cutPass_safety (m : Mod) : m.cutPass.safety = m.safety := by
  unfold Mod.cutPass
  extract_lets w cuts ends m1 m2
  have hcut : m1.safety = m.safety := overAll_safety cuts _ m fun _ _ => rfl
  have hend : m2.safety = m1.safety := overAll_safety ends _ m1 fun _ _ => rfl
  split
  · rfl
  · exact ((setLevels_safety _).trans (darkPass_safety m2)).trans (hend.trans hcut)

theorem pairEvent_safety (m : Mod) (side k code event : Nat) : (m.pairEvent side k code event).safety = m.safety :=
  logGal_safety ..

/-! ### The pairs' states -/

theorem safOut_congr {m n : Mod} (h : n.safety = m.safety) (p : Nat) : n.safOut p = m.safOut p :=
  congrArg (fun s : SafetySt => lookD s.outputs p {}) h

theorem safIn_congr {m n : Mod} (h : n.safety = m.safety) (k : Nat) : n.safIn k = m.safIn k :=
  congrArg (fun s : SafetySt => lookD s.inputs k {}) h

theorem safOut_setSafOut_ne (m : Mod) (p q : Nat) (v : SafOutSt) (h : p ≠ q) :
    (m.setSafOut p v).safOut q = m.safOut q := lookD_put_ne _ _ _ _ _ h

/-! ### What the cycle's work keeps of the domain -/

/-- Work that leaves the domain's state, its counts and ALIVE as they are. -/
structure Mod.KeepsDomain (m n : Mod) : Prop where
  dom : n.safety.dom = m.safety.dom
  alive : n.safety.alive = m.safety.alive
  cycle : n.safety.cycle = m.safety.cycle
  pulse : n.safety.pulse = m.safety.pulse
  disagree : n.safety.disagree = m.safety.disagree

namespace Mod.KeepsDomain
variable {m n k : Mod}

theorem of_safety (h : n.safety = m.safety) : m.KeepsDomain n := by
  constructor <;> rw [h]

theorem refl (m : Mod) : m.KeepsDomain m := of_safety rfl

theorem trans (h : m.KeepsDomain n) (g : n.KeepsDomain k) : m.KeepsDomain k :=
  ⟨g.dom.trans h.dom, g.alive.trans h.alive, g.cycle.trans h.cycle, g.pulse.trans h.pulse,
    g.disagree.trans h.disagree⟩

theorem setSafIn (m : Mod) (k : Nat) (v : SafInSt) : m.KeepsDomain (m.setSafIn k v) := ⟨rfl, rfl, rfl, rfl, rfl⟩

theorem setSafOut (m : Mod) (p : Nat) (v : SafOutSt) : m.KeepsDomain (m.setSafOut p v) := ⟨rfl, rfl, rfl, rfl, rfl⟩

theorem pairEvent (m : Mod) (side k code event : Nat) : m.KeepsDomain (m.pairEvent side k code event) :=
  of_safety (pairEvent_safety ..)

theorem cutPass (m : Mod) : m.KeepsDomain m.cutPass := of_safety (cutPass_safety m)

theorem latchOut (m : Mod) (p code event : Nat) : m.KeepsDomain (m.latchOut p code event) :=
  ((setSafOut ..).trans (pairEvent ..)).trans (cutPass _)

theorem failsOn (m : Mod) (p ch : Nat) : m.KeepsDomain (m.failsOn p ch) := by
  unfold Mod.failsOn
  exact iteInduction (fun _ => setSafOut ..) (fun _ =>
    iteInduction (fun _ => (setSafOut ..).trans (latchOut ..)) (fun _ => (setSafOut ..).trans (pairEvent ..)))

theorem readOut (m : Mod) (rb : List (Nat × Bool)) (p : Nat) : m.KeepsDomain (m.readOut rb p) := by
  unfold Mod.readOut
  extract_lets s level low a b m1 m2
  have hfirst : m.KeepsDomain m2 :=
    (setSafOut ..).trans (iteInduction (fun _ => failsOn m1 p 0) (fun _ => refl m1))
  exact iteInduction (fun _ => hfirst.trans (failsOn m2 p 1)) (fun _ => hfirst)

theorem cycleOut (m : Mod) (rb : List (Nat × Bool)) (p : Nat) : m.KeepsDomain (m.cycleOut rb p) := by
  unfold Mod.cycleOut
  extract_lets m1 old m2 s manual
  have hread : m.KeepsDomain m2 := (readOut m rb p).trans (setSafOut ..)
  have hset : ∀ v, m.KeepsDomain (m2.setSafOut p v) := fun v => hread.trans (setSafOut m2 p v)
  refine iteInduction (fun _ => ?_) (fun _ => iteInduction (fun _ => hset _) (fun _ => hread))
  refine iteInduction (fun _ => hset _) (fun _ => iteInduction (fun _ => hread) (fun _ => ?_))
  exact iteInduction (fun _ => iteInduction (fun _ => hset _) (fun _ => hset _)) (fun _ => hread)

theorem inputFault (m : Mod) (k ch code : Nat) : m.KeepsDomain (m.inputFault k ch code) := by
  unfold Mod.inputFault
  exact iteInduction (fun _ => refl m) (fun _ =>
    iteInduction (fun _ => (setSafIn ..).trans (pairEvent ..)) (fun _ => (setSafIn ..).trans (pairEvent ..)))

end Mod.KeepsDomain

/-! ### Outputs that stay off -/

/-- Work that switches no output of a safety pair on. -/
structure Mod.StaysOff (m n : Mod) : Prop where
  stays : ∀ p, (m.safOut p).on = false → (n.safOut p).on = false

theorem setCh_on (s : SafOutSt) (c : Nat) (x : SafSwSt) : (s.setCh c x).on = s.on := by
  unfold SafOutSt.setCh
  split <;> rfl

namespace Mod.StaysOff
variable {m n k : Mod}

theorem of_safety (h : n.safety = m.safety) : m.StaysOff n := ⟨fun p hp => by rwa [safOut_congr h]⟩

theorem refl (m : Mod) : m.StaysOff m := ⟨fun _ h => h⟩

theorem trans (h : m.StaysOff n) (g : n.StaysOff k) : m.StaysOff k := ⟨fun p hp => g.stays p (h.stays p hp)⟩

theorem setSafOut {p : Nat} {v : SafOutSt} (h : (m.safOut p).on = false → v.on = false) :
    m.StaysOff (m.setSafOut p v) := by
  refine ⟨fun q hq => ?_⟩
  by_cases hpq : p = q
  · subst hpq
    rw [safOut_setSafOut]
    exact h hq
  · rwa [safOut_setSafOut_ne _ _ _ _ hpq]

theorem latchOut (m : Mod) (p code event : Nat) : m.StaysOff (m.latchOut p code event) :=
  ((setSafOut fun _ => rfl).trans (of_safety (pairEvent_safety ..))).trans (of_safety (cutPass_safety _))

theorem failsOn (m : Mod) (p ch : Nat) : m.StaysOff (m.failsOn p ch) := by
  unfold Mod.failsOn
  refine iteInduction (fun _ => setSafOut fun h => ?_) (fun _ =>
    iteInduction (fun _ => (setSafOut fun h => ?_).trans (latchOut ..))
      (fun _ => (setSafOut fun h => ?_).trans (of_safety (pairEvent_safety ..))))
  all_goals simpa [setCh_on] using h

theorem readOut (m : Mod) (rb : List (Nat × Bool)) (p : Nat) : m.StaysOff (m.readOut rb p) := by
  unfold Mod.readOut
  extract_lets s level low a b m1 m2
  have hset : m.StaysOff m1 := setSafOut fun h => h
  have hfirst : m.StaysOff m2 := hset.trans (iteInduction (fun _ => failsOn m1 p 0) (fun _ => refl m1))
  exact iteInduction (fun _ => hfirst.trans (failsOn m2 p 1)) (fun _ => hfirst)

end Mod.StaysOff

/-! ### All outputs switched off (R211) -/

theorem overAll_off (f : Mod → Nat → Mod) (l : List Nat) (m : Mod) (hkeep : ∀ (n : Mod) (p : Nat), n.StaysOff (f n p))
    (hoff : ∀ (n : Mod) (p : Nat), ((f n p).safOut p).on = false) {p : Nat} (hp : p ∈ l) : ((overAll l f m).safOut p).on = false := by
  induction l generalizing m with
  | nil => cases hp
  | cons q l ih =>
    rcases List.mem_cons.mp hp with rfl | hp
    · exact (overAll_keeps Mod.StaysOff.refl .trans l hkeep (f m p)).stays p (hoff m p)
    · exact ih (f m q) hp

theorem allOff_off (m : Mod) {p : Nat} (hp : p < 8) : (m.allOff.safOut p).on = false := by
  refine overAll_off _ _ m (fun n p => ?_) (fun n p => ?_) (List.mem_range.mpr hp)
  · exact iteInduction (fun _ => .setSafOut fun _ => rfl) (fun _ => .refl n)
  · split
    · rw [safOut_setSafOut]
      rfl
    · next h => exact Bool.eq_false_iff.mpr h

theorem allOff_keepsDomain (m : Mod) : m.KeepsDomain m.allOff :=
  overAll_keeps .refl .trans (List.range 8)
    (fun n _ => iteInduction (fun _ => .setSafOut ..) (fun _ => .refl n)) m

/-- A domain that stops: its outputs are switched off, and it reports no life (R210, R343). -/
structure Mod.Stops (m n : Mod) : Prop where
  dom : n.safety.dom = 3
  alive : n.safety.alive = false
  cycle : n.safety.cycle = m.safety.cycle
  pulse : n.safety.pulse = m.safety.pulse
  off : ∀ p, p < 8 → (n.safOut p).on = false

theorem safeStop_stops {m : Mod} (h : m.safety.dom ≠ 3) : m.Stops m.safeStop := by
  have hdom := allOff_keepsDomain m
  have hsafety : m.safeStop.safety = { m.allOff.safety with dom := 3, disagree := 0, alive := false } := by
    unfold Mod.safeStop
    rw [if_neg h]
    dsimp only []
    rw [logGal_safety, bump_safety, cutPass_safety]
  refine ⟨by rw [hsafety], by rw [hsafety], by simp only [hsafety, hdom.cycle],
    by simp only [hsafety, hdom.pulse], fun p hp => ?_⟩
  have hout : m.safeStop.safOut p = m.allOff.safOut p := by unfold Mod.safOut; rw [hsafety]
  rw [hout]
  exact allOff_off m hp

/-! ### A cycle of the safety domain (R208, R212) -/

/-- Work on the inputs of the safety pairs, which leaves the outputs as they are. -/
def Mod.KeepsOutputs (m n : Mod) : Prop := m.KeepsDomain n ∧ n.safety.outputs = m.safety.outputs

namespace Mod.KeepsOutputs
variable {m n k : Mod}

theorem of_safety (h : n.safety = m.safety) : m.KeepsOutputs n := ⟨.of_safety h, by rw [h]⟩

theorem refl (m : Mod) : m.KeepsOutputs m := of_safety rfl

theorem trans (h : m.KeepsOutputs n) (g : n.KeepsOutputs k) : m.KeepsOutputs k := ⟨h.1.trans g.1, g.2.trans h.2⟩

theorem setSafIn (m : Mod) (k : Nat) (v : SafInSt) : m.KeepsOutputs (m.setSafIn k v) := ⟨.setSafIn m k v, rfl⟩

theorem pairEvent (m : Mod) (side k code event : Nat) : m.KeepsOutputs (m.pairEvent side k code event) :=
  of_safety (pairEvent_safety ..)

theorem inputFault (m : Mod) (k ch code : Nat) : m.KeepsOutputs (m.inputFault k ch code) := by
  unfold Mod.inputFault
  exact iteInduction (fun _ => refl m) (fun _ =>
    iteInduction (fun _ => (setSafIn ..).trans (pairEvent ..)) (fun _ => (setSafIn ..).trans (pairEvent ..)))

theorem judgePair (m : Mod) (k : Nat) : m.KeepsOutputs (m.judgePair k) := by
  unfold Mod.judgePair
  extract_lets s fa fb m1 m2
  have hfirst : m.KeepsOutputs m2 :=
    (setSafIn ..).trans (iteInduction (fun _ => inputFault m1 k 0 _) (fun _ => refl m1))
  exact iteInduction (fun _ => hfirst.trans (inputFault m2 k 1 _)) (fun _ => hfirst)

theorem cycleIn (m : Mod) (chans : List (Nat × ChanIn)) (k : Nat) : m.KeepsOutputs (m.cycleIn chans k) := by
  unfold Mod.cycleIn
  extract_lets cfg s a b s1 m1
  have hset : m.KeepsOutputs m1 := setSafIn ..
  exact iteInduction (fun _ => setSafIn ..)
    (fun _ => iteInduction (fun _ => hset.trans (judgePair m1 k)) (fun _ => hset))

theorem cycleIns (m : Mod) (chans : List (Nat × ChanIn)) : m.KeepsOutputs (m.cycleIns chans) :=
  overAll_keeps refl trans (List.range 16) (fun n k => cycleIn n chans k) m

end Mod.KeepsOutputs


theorem lookD_map_age (l : SMap SafOutSt) (p : Nat) :
    (lookD (l.map fun (q : Nat × SafOutSt) => (q.1, q.2.age)) p {}).on = (lookD l p {}).on := by
  unfold lookD
  induction l with
  | nil => rfl
  | cons q l ih =>
    obtain ⟨k, v⟩ := q
    by_cases hk : k = p
    · simp [look, hk, SafOutSt.age]
    · simpa [look, hk] using ih

/-- The supply pulse moved on (R216). -/
def Mod.pulsed (m : Mod) : Mod := { m with safety := { m.safety with pulse := (m.safety.pulse + 1) % 8 } }

/-- The module as its inputs' cycle leaves it, its clock counted on and its supply pulse moved on (R208). -/
def Mod.cycleBegun (m : Mod) (i : SafetyIn) : Mod :=
  (({ m with safety := m.safety.tick i (i.keepAlive && m.keepsAlive) } : Mod).cycleIns i.chans).pulsed

theorem safetyCycle_eq (m : Mod) (i : SafetyIn) :
    m.safetyCycle i =
      if (m.cycleBegun i).safety.dom ≠ 1 then
        (overAll (List.range 8) (fun (m : Mod) p => m.readOut i.readback p) (m.cycleBegun i)).cutPass
      else if 2 ≤ (m.cycleBegun i).safety.disagree then (m.cycleBegun i).safeStop
      else ((m.cycleBegun i).cycleOuts i.readback).cutPass :=
  rfl

/-- What the beginning of a cycle leaves. -/
structure Mod.Begun (m n : Mod) (i : SafetyIn) : Prop where
  dom : n.safety.dom = m.safety.dom
  alive : n.safety.alive = (i.keepAlive && m.keepsAlive && decide (m.safety.dom ≠ 3))
  cycle : n.safety.cycle = m.safety.cycle + 1
  pulse : n.safety.pulse = (m.safety.pulse + 1) % 8
  disagree : n.safety.disagree = if i.disagree then m.safety.disagree + 1 else 0
  off : ∀ p, (m.safOut p).on = false → (n.safOut p).on = false

theorem pulsed_begun {m k n : Mod} {i : SafetyIn} (hk : k.safety = m.safety.tick i (i.keepAlive && m.keepsAlive))
    (h : k.KeepsOutputs n) : m.Begun n.pulsed i := by
  obtain ⟨⟨hdom, halive, hcycle, hpulse, hdisagree⟩, houtputs⟩ := h
  rw [hk] at hdom halive hcycle hpulse hdisagree houtputs
  refine ⟨hdom, halive, hcycle, congrArg (fun n => (n + 1) % 8) hpulse, hdisagree, fun p hp => ?_⟩
  have hout : n.pulsed.safOut p = lookD (m.safety.outputs.map fun (q : Nat × SafOutSt) => (q.1, q.2.age)) p {} :=
    congrArg (fun l : SMap SafOutSt => lookD l p {}) houtputs
  rw [hout, lookD_map_age]
  exact hp

theorem cycleBegun_begun (m : Mod) (i : SafetyIn) : m.Begun (m.cycleBegun i) i :=
  pulsed_begun rfl (Mod.KeepsOutputs.cycleIns _ i.chans)

theorem readOuts_keepsDomain (m : Mod) (rb : List (Nat × Bool)) :
    m.KeepsDomain (overAll (List.range 8) (fun (m : Mod) p => m.readOut rb p) m).cutPass :=
  (overAll_keeps .refl .trans (List.range 8) (fun n p => Mod.KeepsDomain.readOut n rb p) m).trans (.cutPass _)

theorem readOuts_staysOff (m : Mod) (rb : List (Nat × Bool)) :
    m.StaysOff (overAll (List.range 8) (fun (m : Mod) p => m.readOut rb p) m).cutPass :=
  (overAll_keeps .refl .trans (List.range 8) (fun n p => Mod.StaysOff.readOut n rb p) m).trans
    (.of_safety (cutPass_safety _))

theorem cycleOuts_keepsDomain (m : Mod) (rb : List (Nat × Bool)) : m.KeepsDomain (m.cycleOuts rb).cutPass :=
  (overAll_keeps .refl .trans (List.range 8) (fun n p => Mod.KeepsDomain.cycleOut n rb p) m).trans (.cutPass _)

/-- A cycle in which the domain does not stop keeps what its beginning leaves. -/
theorem safetyCycle_keepsDomain {m : Mod} {i : SafetyIn}
    (h : (m.cycleBegun i).safety.dom ≠ 1 ∨ (m.cycleBegun i).safety.disagree < 2) :
    (m.cycleBegun i).KeepsDomain (m.safetyCycle i) := by
  rw [safetyCycle_eq]
  split
  · exact readOuts_keepsDomain ..
  · next hdom =>
    rw [if_neg (by omega)]
    exact cycleOuts_keepsDomain ..

theorem safetyCycle_stops {m : Mod} {i : SafetyIn} (hdom : (m.cycleBegun i).safety.dom = 1)
    (hdisagree : 2 ≤ (m.cycleBegun i).safety.disagree) : (m.cycleBegun i).Stops (m.safetyCycle i) := by
  rw [safetyCycle_eq, if_neg (not_not_intro hdom), if_pos hdisagree]
  exact safeStop_stops (by omega)

theorem safetyCycle_count (m : Mod) (i : SafetyIn) :
    (m.safetyCycle i).safety.cycle = m.safety.cycle + 1 ∧
    (m.safetyCycle i).safety.pulse = (m.safety.pulse + 1) % 8 := by
  obtain ⟨-, -, hcycle, hpulse, -, -⟩ := cycleBegun_begun m i
  by_cases h : (m.cycleBegun i).safety.dom ≠ 1 ∨ (m.cycleBegun i).safety.disagree < 2
  · have hkeep := safetyCycle_keepsDomain h
    exact ⟨hkeep.cycle.trans hcycle, hkeep.pulse.trans hpulse⟩
  · obtain ⟨hdom, hdisagree⟩ := not_or.1 h
    have hstop := safetyCycle_stops (Decidable.not_not.1 hdom) (Nat.not_lt.1 hdisagree)
    exact ⟨hstop.cycle.trans hcycle, hstop.pulse.trans hpulse⟩

/-- Settles O43: the domain's stop, its cycle, its start, and what runs out in it. -/
theorem safetyDomainStates : Obligations.SafetyDomainStates := by
  unfold Obligations.SafetyDomainStates
  intro s hlife
  refine ⟨fun hdom => ?_, fun i => ?_, fun h => ?_, fun hdom hbad => ?_, fun a harm hlate => ?_, ?_⟩
  · obtain ⟨hstop, halive, -, -, hoff⟩ := safeStop_stops hdom
    exact ⟨_, exec_supplied_eq (·.safeStop) rfl hlife rfl, hstop, halive, hoff⟩
  · obtain ⟨hdom, halive, -, -, hdisagree, hoff⟩ := cycleBegun_begun s.m i
    obtain ⟨hcycle, hpulse⟩ := safetyCycle_count s.m i
    have hexec : exec (.safetyCycle i) s = .next (s.withMod (s.m.safetyCycle i)) :=
      exec_supplied_eq (·.safetyCycle i) rfl hlife rfl
    refine ⟨_, hexec, ?_⟩
    rw [State.withMod_m]
    refine ⟨hcycle, hpulse, fun hagree => ?_, fun hstop => ?_, fun hrun hdis htwice => ?_⟩
    · exact (safetyCycle_keepsDomain (.inr (by simp [hdisagree, hagree]))).alive.trans halive
    · have hnot : (s.m.cycleBegun i).safety.dom ≠ 1 := by omega
      have hkeep := safetyCycle_keepsDomain (.inl hnot)
      refine ⟨(hkeep.dom.trans hdom).trans hstop, (hkeep.alive.trans halive).trans (by simp [hstop]), fun p hp => ?_⟩
      rw [safetyCycle_eq, if_pos hnot]
      exact (readOuts_staysOff ..).stays p (hoff p hp)
    · have hstop := safetyCycle_stops (hdom.trans hrun) (by rw [hdisagree, if_pos hdis]; omega)
      exact ⟨hstop.dom, hstop.off⟩
  · refine exec_supplied_eq (·.domainRuns) rfl hlife ((if_pos ?_).trans (if_neg ?_))
    · exact h.symm.imp_left And.left
    · rcases h with h | ⟨-, hok⟩
      · omega
      · simp [hok]
  · have hstops : s.m.domainRuns = s.m.safeStop := (if_pos (.inl hdom)).trans (if_pos ⟨hdom, by simp [hbad]⟩)
    exact ⟨_, exec_supplied_eq (·.domainRuns) rfl hlife hstops, (safeStop_stops (by omega)).dom⟩
  · refine exec_supplied_eq (·.armTimeout) rfl hlife ?_
    unfold Mod.armTimeout
    simp only [harm]
    exact if_pos hlate
  · exact exec_supplied_eq (fun m => { m with safety := { m.safety with alive := false } }) rfl hlife rfl


/-! ### Events of the safety pairs (R216 to R219, R224 to R226) -/

/-- A cut's consequences leave the safety domain and the partners' objects as they are. -/
theorem cutPass_frame (m : Mod) : m.cutPass.safety = m.safety ∧ m.cutPass.objs = m.objs :=
  ⟨cutPass_safety m, (Mod.FieldWork.cutPass m).frame.1⟩

theorem pairEvent_frame (m : Mod) (side k code event : Nat) :
    (m.pairEvent side k code event).safety = m.safety ∧ (m.pairEvent side k code event).objs = m.objs :=
  ⟨pairEvent_safety .., (logGal_reports ..).objs⟩

/-- An output pair that is latched off with a code. -/
def SafOutSt.latchedOff (s : SafOutSt) (code cycle : Nat) : SafOutSt :=
  { s.off true cycle with fault := code, latched := true, left := 0 }

/-- What latching an output pair off leaves. -/
theorem latchOut_frame (m : Mod) (p code event : Nat) :
    (m.latchOut p code event).safOut p = (m.safOut p).latchedOff code m.safety.cycle ∧
    (m.latchOut p code event).safety.inputs = m.safety.inputs ∧ (m.latchOut p code event).objs = m.objs := by
  have hlatch : m.latchOut p code event =
      ((m.setSafOut p ((m.safOut p).latchedOff code m.safety.cycle)).pairEvent 1 p code event).cutPass := rfl
  obtain ⟨hcut, hcutObjs⟩ :=
    cutPass_frame ((m.setSafOut p ((m.safOut p).latchedOff code m.safety.cycle)).pairEvent 1 p code event)
  obtain ⟨hevent, heventObjs⟩ :=
    pairEvent_frame (m.setSafOut p ((m.safOut p).latchedOff code m.safety.cycle)) 1 p code event
  rw [hlatch]
  exact ⟨(safOut_congr (hcut.trans hevent) p).trans (safOut_setSafOut ..),
    (congrArg SafetySt.inputs (hcut.trans hevent)).trans rfl, hcutObjs.trans heventObjs⟩

theorem safetyDebounce_held {m : Mod} {k ch n : Nat} (hk : k < 16) (huse : m.act (0x3510 + k) 1 ≠ 0)
    (hheld : ((m.safIn k).ch ch).held = some n) (htime : m.act (0x3510 + k) 2 ≤ n) :
    m.safetyDebounce k ch = m.setSafIn k ((m.safIn k).setCh ch
      { (m.safIn k).ch ch with demand := !((m.safIn k).ch ch).demand, held := none }) := by
  unfold Mod.safetyDebounce
  simp only [hheld]
  exact if_neg (by simp [huse, hk, htime])

theorem discrepancyFault_lasts {m : Mod} {k : Nat} (hk : k < 16) (huse : m.act (0x3510 + k) 1 ≠ 0)
    (hlatched : (m.safIn k).latched = false) (hdiffer : (m.safIn k).a.demand ≠ (m.safIn k).b.demand)
    (htime : m.act (0x3510 + k) 3 < (m.safIn k).discrepancy) :
    m.discrepancyFault k = (m.setSafIn k { m.safIn k with fault := 5, latched := true, left := 0 }).pairEvent 0 k 5 0 :=
  if_neg (by simp [huse, hk, hlatched, hdiffer, htime])

theorem offDelayExpiry_over {m : Mod} {p : Nat} (hp : p < 8) (hon : (m.safOut p).on = true)
    (hdelay : (m.safOut p).delay = some 0) :
    m.offDelayExpiry p =
      (m.setSafOut p ((m.safOut p).off (decide (m.act (0x3530 + p) 3 = 0)) m.safety.cycle)).cutPass :=
  if_neg (by simp [hp, hon, hdelay])

theorem failsOff_low {m : Mod} {p ch : Nat} (hp : p < 8) (hch : ch < 2) (hon : (m.safOut p).on = true)
    (hlatched : (m.safOut p).latched = false) (hgood : ((m.safOut p).ch ch).fault = false)
    (hlow : 2 ≤ ((m.safOut p).ch ch).low) :
    m.failsOff p ch =
      (m.setSafOut p ((m.safOut p).setCh ch { (m.safOut p).ch ch with fault := true, tested := false })).latchOut p
        (if (m.safOut p).faulted then 12 else 9 + ch) 0 :=
  if_neg (by simp [hp, hch, hon, hlatched, hgood]; omega)

theorem windowExpiry_in {m : Mod} {k : Nat} (hk : k < 16) (hlatched : (m.safIn k).latched = false)
    (hleft : (m.safIn k).left = 0) (hfault : (m.safIn k).faulted = true) :
    m.windowExpiry 0 k = (m.setSafIn k { m.safIn k with fault := 6, latched := true }).pairEvent 0 k 6 2 := by
  unfold Mod.windowExpiry
  rw [if_pos rfl]
  exact if_neg (by simp [hk, hlatched, hleft, hfault])

theorem windowExpiry_out {m : Mod} {p : Nat} (hp : p < 8) (hlatched : (m.safOut p).latched = false)
    (hleft : (m.safOut p).left = 0) (hfault : (m.safOut p).faulted = true) :
    m.windowExpiry 1 p = m.latchOut p 6 2 := by
  unfold Mod.windowExpiry
  rw [if_neg (by decide), if_pos rfl]
  exact if_neg (by simp [hp, hlatched, hleft, hfault])

theorem safeDark_passes {m : Mod} {p ch us : Nat} (hp : p < 8) (hch : ch < 2) (hon : (m.safOut p).on = true)
    (hgood : ((m.safOut p).ch ch).fault = false)
    (hdue : (m.safOut p).testDue ch (m.act (0x3530 + p) 7 * 1000) m.safety.cycle = true)
    (hfirst : m.safety.lastTest ≠ some m.safety.cycle) (hfell : us < m.act (0x3530 + p) 8) :
    m.safeDark p ch (some us) =
      let n := m.setSafOut p ((m.safOut p).setCh ch { (m.safOut p).ch ch with test := some m.safety.cycle })
      { n with safety := { n.safety with lastTest := some m.safety.cycle } } := by
  unfold Mod.safeDark
  dsimp only []
  rw [if_neg (by omega), if_neg (by simp [hgood]), if_neg (by simp [hdue, hfirst]), if_pos hon,
    if_pos (decide_eq_true hfell)]

theorem latchedOff_fault {s : SafOutSt} (ch code cycle : Nat) (x : SafSwSt) (hx : x.fault = true) :
    (((s.setCh ch x).latchedOff code cycle).ch ch).fault = true := by
  unfold SafOutSt.latchedOff SafOutSt.off SafOutSt.setCh SafOutSt.ch
  by_cases h : ch = 0 <;> simp [h, hx]

/-- Settles O44, event by event. -/
theorem safetyPairEvents : Obligations.SafetyPairEvents := by
  unfold Obligations.SafetyPairEvents
  intro s hlife
  refine ⟨fun k ch n hk hch huse hheld htime => ?_, fun k hk huse hlatched hdiffer htime => ?_,
    fun p hp hon hdelay => ?_, fun p ch hp hch hon hlatched hgood hlow => ?_, fun k hk hlatched hleft hfault => ?_,
    fun p hp hlatched hleft hfault => ?_, fun p ch us hp hch hon hgood hdue hfirst hfell => ?_⟩
  · exact exec_supplied_eq (·.safetyDebounce k ch) rfl hlife (safetyDebounce_held hk huse hheld htime)
  · obtain ⟨hsafety, hobjs⟩ :=
      pairEvent_frame (s.m.setSafIn k { s.m.safIn k with fault := 5, latched := true, left := 0 }) 0 k 5 0
    exact ⟨_, exec_supplied_eq (·.discrepancyFault k) rfl hlife (discrepancyFault_lasts hk huse hlatched hdiffer htime),
      (safIn_congr hsafety k).trans (safIn_setSafIn ..), (congrArg SafetySt.outputs hsafety).trans rfl, hobjs⟩
  · obtain ⟨hsafety, hobjs⟩ :=
      cutPass_frame (s.m.setSafOut p ((s.m.safOut p).off (decide (s.m.act (0x3530 + p) 3 = 0)) s.m.safety.cycle))
    have hout := (safOut_congr hsafety p).trans (safOut_setSafOut ..)
    refine ⟨_, exec_supplied_eq (·.offDelayExpiry p) rfl hlife (offDelayExpiry_over hp hon hdelay),
      congrArg SafOutSt.on hout, congrArg SafOutSt.delay hout, fun h => (congrArg SafOutSt.needRestart hout).trans ?_,
      (congrArg SafetySt.inputs hsafety).trans rfl, hobjs⟩
    simpa [SafOutSt.off] using h
  · obtain ⟨hout, hinputs, hobjs⟩ := latchOut_frame
      (s.m.setSafOut p ((s.m.safOut p).setCh ch { (s.m.safOut p).ch ch with fault := true, tested := false })) p
      (if (s.m.safOut p).faulted then 12 else 9 + ch) 0
    rw [safOut_setSafOut] at hout
    exact ⟨_, exec_supplied_eq (·.failsOff p ch) rfl hlife (failsOff_low hp hch hon hlatched hgood hlow),
      congrArg SafOutSt.on hout, congrArg SafOutSt.latched hout, congrArg SafOutSt.fault hout,
      (congrArg (fun o : SafOutSt => (o.ch ch).fault) hout).trans (latchedOff_fault ch _ _ _ rfl), hinputs, hobjs⟩
  · obtain ⟨hsafety, hobjs⟩ :=
      pairEvent_frame (s.m.setSafIn k { s.m.safIn k with fault := 6, latched := true }) 0 k 6 2
    exact ⟨_, exec_supplied_eq (·.windowExpiry 0 k) rfl hlife (windowExpiry_in hk hlatched hleft hfault),
      (safIn_congr hsafety k).trans (safIn_setSafIn ..), (congrArg SafetySt.outputs hsafety).trans rfl, hobjs⟩
  · obtain ⟨hout, hinputs, hobjs⟩ := latchOut_frame s.m p 6 2
    exact ⟨_, exec_supplied_eq (·.windowExpiry 1 p) rfl hlife (windowExpiry_out hp hlatched hleft hfault),
      congrArg SafOutSt.on hout, congrArg SafOutSt.latched hout, congrArg SafOutSt.fault hout, hinputs, hobjs⟩
  · exact ⟨_, exec_supplied_eq (·.safeDark p ch (some us)) rfl hlife
      (safeDark_passes hp hch hon hgood hdue hfirst hfell), safOut_setSafOut .., rfl, rfl, rfl⟩

end Sys2Proof.Machine
end

section
/-! PROOFS. The stages of the axes, their paths and hold currents (O45). -/

namespace Sys2Proof.Machine

/-! ### Faults of axes -/

/-- Work on the axes' faults: it leaves an axis's silence and the status that is due to it as they are, and the links'
answers where no link is judged. -/
structure Mod.FindsFaults (m n : Mod) : Prop where
  objs : n.objs = m.objs
  links : n.links = m.links
  silent : ∀ a, (n.axis a).silent = (m.axis a).silent
  due : ∀ a, (n.axis a).statusDue = (m.axis a).statusDue

namespace Mod.FindsFaults
variable {m n k : Mod}

theorem refl (m : Mod) : m.FindsFaults m := ⟨rfl, rfl, fun _ => rfl, fun _ => rfl⟩

theorem trans (h : m.FindsFaults n) (g : n.FindsFaults k) : m.FindsFaults k :=
  ⟨g.objs.trans h.objs, g.links.trans h.links, fun a => (g.silent a).trans (h.silent a),
    fun a => (g.due a).trans (h.due a)⟩

theorem setAxis {a : Nat} {v : AxisSt} (hsilent : v.silent = (m.axis a).silent)
    (hdue : v.statusDue = (m.axis a).statusDue) : m.FindsFaults (m.setAxis a v) := by
  have hboth : ∀ b, ((m.setAxis a v).axis b).silent = (m.axis b).silent ∧
      ((m.setAxis a v).axis b).statusDue = (m.axis b).statusDue := by
    intro b
    by_cases hab : a = b
    · subst hab
      rw [axis_setAxis]
      exact ⟨hsilent, hdue⟩
    · rw [axis_setAxis_ne _ _ _ _ hab]
      exact ⟨rfl, rfl⟩
  exact ⟨rfl, rfl, fun b => (hboth b).1, fun b => (hboth b).2⟩

theorem axisFault (m : Mod) (a code : Nat) : m.FindsFaults (m.axisFault a code) := by
  unfold Mod.axisFault
  dsimp only []
  split
  · exact setAxis rfl rfl
  · exact setAxis rfl rfl
  · exact setAxis rfl rfl
  · exact setAxis rfl rfl
  · exact refl m

theorem axisFound (m : Mod) (a code : Nat) (new : Bool) : m.FindsFaults (m.axisFound a code new) :=
  iteInduction (fun _ => axisFault m a code) (fun _ => refl m)

end Mod.FindsFaults

/-- What judging a link leaves: the silence of its axes and the status due to them. -/
theorem judgeLink_keeps (m : Mod) (k : Nat) :
    (m.judgeLink k).objs = m.objs ∧ (∀ a, ((m.judgeLink k).axis a).silent = (m.axis a).silent) ∧
    ∀ a, ((m.judgeLink k).axis a).statusDue = (m.axis a).statusDue := by
  unfold Mod.judgeLink
  extract_lets stages l all good fault m1 m2
  have hcounted : m2.objs = m.objs ∧ m2.axes = m.axes := by
    dsimp only [m2]
    split <;> exact ⟨rfl, rfl⟩
  have haxis : ∀ a, m2.axis a = m.axis a := fun a => congrArg (fun l : SMap AxisSt => lookD l a {}) hcounted.2
  suffices h : m2.FindsFaults (if fault then overAll stages (fun m s => m.axisFound (8 * k + s) 4 !l.fault) m2
      else overAll (stages.filter fun s => decide (3 ≤ (m2.axis (8 * k + s)).silent)) (fun m s =>
        m.axisFound (8 * k + s) 2 (decide ((m.axis (8 * k + s)).silent = 3))) m2) from
    ⟨h.objs.trans hcounted.1, fun a => (h.silent a).trans (by rw [haxis]), fun a => (h.due a).trans (by rw [haxis])⟩
  exact iteInduction
    (fun _ => overAll_keeps .refl .trans _ (fun n s => Mod.FindsFaults.axisFound n _ _ _) m2)
    (fun _ => overAll_keeps .refl .trans _ (fun n s => Mod.FindsFaults.axisFound n _ _ _) m2)

/-! ### Stage returns (R234, R235, R244) -/

section
variable {m : Mod} {a : Nat} (ha : a < 32) (hused : tb (m.cfg (0x3640 + a / 8) 1) (a % 8) = true)
  (hawake : tb m.tiles.awake (8 + a / 8) = true) (hblock : m.blockIn (8 + a / 8) = false)
include ha hused hawake hblock

theorem stageReturn_silent :
    m.stageReturn a none =
      let n := (m.setAxis a { m.axis a with silent := satAdd 4 (m.axis a).silent 1, differ := 0 }).bump (0x3640 + a / 8) 4
      if a % 8 = lastStage (m.cfg (0x3640 + a / 8) 1) then n.judgeLink (a / 8) else n := by
  unfold Mod.stageReturn
  dsimp only []
  rw [if_neg (by simp [ha, hused, hawake, hblock])]
  simp

/-- An answer of a stage in its tread: its silence ends, its status is due two treads on. -/
theorem stageReturn_answered {w st : Nat} (hst : returnStatus a w = some st)
    (hslot : m.tread % 2 = b2n (slotLate (a % 8))) :
    ∃ s n, s.silent = 0 ∧ s.statusDue = some (2 * (m.tread / 2) + 2, st) ∧
      ((m.setAxis a s).setLink (a / 8) { m.link (a / 8) with answered := true }).FindsFaults n ∧
      m.stageReturn a (some w) = if a % 8 = lastStage (m.cfg (0x3640 + a / 8) 1) then n.judgeLink (a / 8) else n := by
  unfold Mod.stageReturn
  extract_lets l k mask late s before m1
  have hret : (if m.tread % 2 = b2n late then (some w).bind (returnStatus a) else none) = some st := by
    rw [if_pos hslot]
    exact hst
  rw [if_neg (by simp [k, mask, ha, hused, hawake, hblock])]
  suffices h : ∃ s : AxisSt, s.silent = 0 ∧ s.statusDue = some (2 * (m.tread / 2) + 2, st) ∧
      ((m.setAxis a s).setLink k { m.link k with answered := true }).FindsFaults m1 by
    obtain ⟨s, hsilent, hdue, hm1⟩ := h
    exact ⟨s, m1, hsilent, hdue, hm1, rfl⟩
  unfold m1
  rw [hret]
  dsimp -zeta only []
  extract_lets link inHold differ held bad m2 link2 m3 m4 m5
  refine ⟨{ s with silent := 0, differ := differ, held := held, statusDue := some (2 * (m.tread / 2) + 2, st) }, rfl,
    rfl, ?_⟩
  have hlow : m3.FindsFaults m4 := iteInduction (fun _ => .axisFound ..) (fun _ => .refl m3)
  have haddr : m4.FindsFaults m5 := iteInduction (fun _ => .axisFound ..) (fun _ => .refl m4)
  exact (hlow.trans haddr).trans (iteInduction (fun _ => .axisFault ..) (fun _ => .refl m5))

end

/-! ### Plans and hold currents (R238, R240) -/

theorem planComplete_over {m : Mod} {a : Nat}
    (hmoves : (m.axis a).state = 2 ∨ (m.axis a).state = 3 ∨ (m.axis a).state = 4) (hplanned : (m.axis a).replan = false)
    (hover : planTime (m.axis a).plan - planSlack ≤ treadTime (m.axis a).clock) :
    m.planComplete a = m.setAxis a ((m.axis a).complete (m.axis a).mot.y) :=
  if_pos ⟨hmoves, by simp [hplanned], hover⟩

/-- Settles O45: the two outcomes of a stage's return, the end of a path and the hold delay. -/
theorem axisEvents : Obligations.AxisEvents := by
  unfold Obligations.AxisEvents
  intro s a hlife
  refine ⟨fun ha hused hawake hblock => ⟨?_, fun w st hst hslot => ?_⟩, fun hmoves hplanned hover => ?_,
    fun hset h2 h3 h4 hstill hdelay => ?_⟩
  · exact exec_inService_eq (·.stageReturn a none) rfl hlife (stageReturn_silent ha hused hawake hblock)
  · obtain ⟨x, n, hsilent, hdue, hfound, heq⟩ := stageReturn_answered ha hused hawake hblock hst hslot
    have haxis := axis_setAxis s.m a x
    have hlink : n.link (a / 8) = { s.m.link (a / 8) with answered := true } :=
      (congrArg (fun l : SMap AxisLinkSt => lookD l (a / 8) {}) hfound.links).trans (lookD_put ..)
    have hnsilent : (n.axis a).silent = 0 := ((hfound.silent a).trans (congrArg AxisSt.silent haxis)).trans hsilent
    have hndue : (n.axis a).statusDue = some (2 * (s.m.tread / 2) + 2, st) :=
      ((hfound.due a).trans (congrArg AxisSt.statusDue haxis)).trans hdue
    obtain ⟨hjobjs, hjsilent, hjdue⟩ := judgeLink_keeps n (a / 8)
    refine ⟨_, exec_inService_eq (·.stageReturn a (some w)) rfl hlife heq, ?_⟩
    rw [State.withMod_m]
    split
    · next hlast =>
      exact ⟨(hjsilent a).trans hnsilent, (hjdue a).trans hndue, hjobjs.trans hfound.objs, fun h => absurd hlast h⟩
    · exact ⟨hnsilent, hndue, hfound.objs, fun _ => congrArg AxisLinkSt.answered hlink⟩
  · have haxis := axis_setAxis s.m a ((s.m.axis a).complete (s.m.axis a).mot.y)
    refine ⟨_, exec_inService_eq (·.planComplete a) rfl hlife (planComplete_over hmoves hplanned hover),
      congrArg AxisSt.mot haxis, congrArg AxisSt.queue haxis, (congrArg AxisSt.state haxis).trans ?_, rfl, rfl,
      fun b hb => axis_setAxis_ne _ _ _ _ (Ne.symm hb)⟩
    have hstop : ((s.m.axis a).state = 3 ∨ (s.m.axis a).state = 4) ↔ (s.m.axis a).state ≠ 2 := by omega
    simp [AxisSt.complete, hstop]
  · exact exec_inService_eq (·.holdDelay a) rfl hlife (if_pos ⟨hset, h2, h3, h4, by simp [hstill], hdelay⟩)

end Sys2Proof.Machine
end

section
/-! PROOFS. The recorder's blocks, the triggers and their windows (O46, O48). -/

namespace Sys2Proof.Machine

/-! ### Tables whose entries pass a filter or a map -/

theorem look_filter {α : Type} {keep : Nat × α → Bool} {k : Nat} (hkeep : ∀ v, keep (k, v) = true) (l : SMap α) :
    look (l.filter keep) k = look l k := by
  induction l with
  | nil => rfl
  | cons p l ih =>
    obtain ⟨a, v⟩ := p
    by_cases ha : a = k
    · subst ha
      rw [List.filter_cons_of_pos (hkeep v)]
      simp [look]
    · rw [List.filter_cons]
      split <;> simp [look, ha, ih]

theorem look_map {α : Type} {f : Nat × α → Nat × α} (hkey : ∀ p, (f p).1 = p.1) (l : SMap α) (k : Nat) :
    look (l.map f) k = (look l k).map fun v => (f (k, v)).2 := by
  induction l with
  | nil => rfl
  | cons p l ih =>
    obtain ⟨a, v⟩ := p
    rw [List.map_cons, show f (a, v) = (a, (f (a, v)).2) from Prod.ext (hkey _) rfl]
    by_cases ha : a = k
    · simp [look, ha]
    · simp [look, ha, ih]

/-! ### Blocks and packets (R256, R260, R261, R272, R273) -/

theorem blockClose_due {m : Mod} {k first : Nat} (hk : k ≤ 6) (hfirst : (m.stream k).first = some first)
    (hdue : m.blockFull k = true ∨ m.blockEnd k first + lagOf k ≤ m.tread + 1) :
    m.blockClose k = m.closeBlock k (m.tread - lagOf k) false := by
  unfold Mod.blockClose
  simp only [hfirst]
  exact if_pos ⟨hk, hdue⟩

theorem ringWrite_first {m : Mod} {k : Nat} {b : Block} (hb : (m.stream k).drain = some b)
    (hturn : m.drainsTo b.no = [k]) : m.ringWrite k = m.writeDrain k := by
  unfold Mod.ringWrite
  simp only [hb, hturn]
  rfl

/-- A ring of `size` blocks with `b` written as number `n`: the blocks that it no longer holds go, but for those from
`unsent` on, which lose their bytes. -/
def ringPut (ring : SMap Block) (n unsent size : Nat) (b : Block) : SMap Block :=
  ((put ring n b).filter fun p => decide (n < p.1 + size ∨ unsent ≤ p.1)).map fun p =>
    if n < p.1 + size then p else (p.1, { p.2 with bytes := 0 })

theorem look_ringPut (ring : SMap Block) (n unsent : Nat) {size : Nat} (b : Block) (hsize : 0 < size) :
    look (ringPut ring n unsent size b) n = some b := by
  have hroom : n < n + size := Nat.lt_add_of_pos_right hsize
  unfold ringPut
  rw [look_map (fun p => by split <;> rfl), look_filter (fun v => decide_eq_true (.inl hroom)), look_put]
  exact congrArg some (congrArg Prod.snd (if_pos hroom))

/-- The ring with one more block (R260, R261). -/
def Mod.ringWith (m : Mod) (b : Block) : SMap Block :=
  ringPut m.record.ring m.record.next (if m.cfg 0x3838 1 = 1 then m.rov 0x3838 0x0F else m.record.next) ringSize b

theorem look_ringWith (m : Mod) (b : Block) : look (m.ringWith b) m.record.next = some b :=
  look_ringPut _ _ _ _ (Nat.succ_pos _)

theorem writeDrain_eq {m : Mod} {k : Nat} {b : Block} (hb : (m.stream k).drain = some b) :
    m.writeDrain k = ((m.setRecord { m.record with
      ring := m.ringWith b, next := m.record.next + 1, bytes := m.record.bytes + 4096 }).noteRing k (m.stream k) b
        m.record.next).noteGap b := by
  unfold Mod.writeDrain
  simp only [hb]
  rfl

theorem record_noteGap (m : Mod) (b : Block) : (m.noteGap b).record = m.record := by
  unfold Mod.noteGap
  split <;> rfl

theorem writeDrain_ring {m : Mod} {k : Nat} {b : Block} (hb : (m.stream k).drain = some b) :
    look (m.writeDrain k).record.ring m.record.next = some b ∧ (m.writeDrain k).record.next = m.record.next + 1 := by
  rw [writeDrain_eq hb, record_noteGap]
  exact ⟨look_ringWith m b, rfl⟩

theorem noteGap_none {m : Mod} {b : Block} (h : b.gap = 0) : m.noteGap b = m := if_pos h

/-- A gap is counted on its block's stream (R256), and the streams are the same otherwise. -/
theorem streams_noteGap {m : Mod} {b : Block} (h : b.gap ≠ 0) : (m.noteGap b).streams =
    put m.streams b.stream { m.stream b.stream with gaps := (m.stream b.stream).gaps + 1 } := by
  unfold Mod.noteGap
  rw [if_neg h]
  rfl

theorem gaps_noteGap {m : Mod} {b : Block} (h : b.gap ≠ 0) :
    ((m.noteGap b).stream b.stream).gaps = (m.stream b.stream).gaps + 1 :=
  congrArg StreamSt.gaps ((congrArg (fun l : SMap StreamSt => lookD l b.stream {}) (streams_noteGap h)).trans
    (lookD_put ..))

theorem drain_noteGap (m : Mod) (b : Block) (k : Nat) : ((m.noteGap b).stream k).drain = (m.stream k).drain ∧
    ((m.noteGap b).stream k).ringExpect = (m.stream k).ringExpect := by
  by_cases h : b.gap = 0
  · rw [noteGap_none h]
    exact ⟨rfl, rfl⟩
  · have hstream := congrArg (fun l : SMap StreamSt => lookD l k {}) (streams_noteGap (m := m) h)
    by_cases hk : b.stream = k
    · subst hk
      have hput := hstream.trans (lookD_put ..)
      exact ⟨(congrArg StreamSt.drain hput).trans rfl, (congrArg StreamSt.ringExpect hput).trans rfl⟩
    · have hput := hstream.trans (lookD_put_ne _ _ _ _ _ hk)
      exact ⟨congrArg StreamSt.drain hput, congrArg StreamSt.ringExpect hput⟩

theorem stream_noteRing (m : Mod) (k : Nat) (v : StreamSt) (b : Block) (n : Nat) :
    (m.noteRing k v b n).stream k = { v with drain := none, ringExpect := b.next } := lookD_put ..

theorem gaps_noteRing (m : Mod) (k j : Nat) (b : Block) (n : Nat) :
    ((m.noteRing k (m.stream k) b n).stream j).gaps = (m.stream j).gaps := by
  by_cases h : k = j
  · subst h
    rw [stream_noteRing]
  · exact congrArg StreamSt.gaps (lookD_put_ne _ _ _ _ _ h)

/-- The streams after a block is written to the ring (R260, R261): its buffer is free, and its gap is counted. -/
theorem writeDrain_streams {m : Mod} {k : Nat} {b : Block} (hb : (m.stream k).drain = some b) :
    ((m.writeDrain k).stream k).drain = none ∧ ((m.writeDrain k).stream k).ringExpect = b.next ∧
      (b.gap = 0 → ((m.writeDrain k).stream b.stream).gaps = (m.stream b.stream).gaps) ∧
      (b.gap ≠ 0 → ((m.writeDrain k).stream b.stream).gaps = (m.stream b.stream).gaps + 1) := by
  rw [writeDrain_eq hb]
  generalize hx : m.setRecord { m.record with
    ring := m.ringWith b, next := m.record.next + 1, bytes := m.record.bytes + 4096 } = x
  have hstream : ∀ j, m.stream j = x.stream j := fun j => by rw [← hx]; rfl
  rw [hstream k, hstream b.stream]
  obtain ⟨hdrain, hexpect⟩ := drain_noteGap (x.noteRing k (x.stream k) b m.record.next) b k
  have hself := stream_noteRing x k (x.stream k) b m.record.next
  have hgaps := gaps_noteRing x k b.stream b m.record.next
  refine ⟨hdrain.trans (congrArg StreamSt.drain hself), hexpect.trans (congrArg StreamSt.ringExpect hself), fun h => ?_,
    fun h => (gaps_noteGap h).trans (congrArg (· + 1) hgaps)⟩
  rw [noteGap_none h]
  exact hgaps

theorem writeDrain_objs (m : Mod) (k : Nat) : (m.writeDrain k).objs = m.objs := by
  obtain ⟨⟨_, _, _, heq⟩, -⟩ := writeDrain_recorded m k
  exact (congrArg Mod.objs heq).trans rfl

/-- Settles O46: a block that closes, a block that drains, a packet of either chain. -/
theorem recordingEvents : Obligations.RecordingEvents := by
  unfold Obligations.RecordingEvents
  intro s k hlife
  refine ⟨fun first hk hfirst hdue => ?_, fun b _ _ hb hturn => ?_, fun words tail hwords hlow htail => ⟨?_, ?_⟩⟩
  · exact exec_inService_eq (·.blockClose k) rfl hlife (blockClose_due hk hfirst hdue)
  · obtain ⟨hring, hnext⟩ := writeDrain_ring hb
    obtain ⟨hdrain, hexpect, hnone, hgap⟩ := writeDrain_streams hb
    exact ⟨_, exec_inService_eq (·.ringWrite k) rfl hlife (ringWrite_first hb hturn), hring, hnext, hdrain, hexpect,
      hnone, hgap, writeDrain_objs ..⟩
  · exact exec_inService_eq
      (fun m => if (2 = 2 ∨ 2 = 4) ∧ words.length ≤ 256 ∧ 1 ≤ tail ∧ tail ≤ 4 then m.chainPut 2 words tail else m)
      rfl hlife (if_pos ⟨.inl rfl, hwords, hlow, htail⟩)
  · exact exec_inService_eq
      (fun m => if (4 = 2 ∨ 4 = 4) ∧ words.length ≤ 256 ∧ 1 ≤ tail ∧ tail ≤ 4 then m.chainPut 4 words tail else m)
      rfl hlife (if_pos ⟨.inr rfl, hwords, hlow, htail⟩)

/-! ### Triggers and their windows (R278 to R281) -/

/-- A module whose streams have drained: the windows of the captures, the triggers' states and what reports these stay. -/
structure Mod.KeepsTriggers (m n : Mod) : Prop where
  windows : n.record.windows = m.record.windows
  trigs : n.record.trigs = m.record.trigs
  state : ∀ k, n.trigState k = m.trigState k

namespace Mod.KeepsTriggers

theorem refl (m : Mod) : m.KeepsTriggers m := ⟨rfl, rfl, fun _ => rfl⟩

theorem trans {m n k : Mod} (h : m.KeepsTriggers n) (g : n.KeepsTriggers k) : m.KeepsTriggers k :=
  ⟨g.windows.trans h.windows, g.trigs.trans h.trigs, fun i => (g.state i).trans (h.state i)⟩

theorem setStream (m : Mod) (s : Nat) (v : StreamSt) : m.KeepsTriggers (m.setStream s v) := ⟨rfl, rfl, fun _ => rfl⟩

theorem setRo (m : Mod) (idx v : Nat) {sub : Nat} (h : sub < 15) : m.KeepsTriggers (m.setRo idx sub v) :=
  ⟨rfl, rfl, fun k => rov_setRo_ne _ _ _ _ _ _ (by simp only [okey]; omega)⟩

theorem bumpBy (m : Mod) (idx n : Nat) {sub : Nat} (h : sub < 15) : m.KeepsTriggers (m.bumpBy idx sub n) := .setRo m idx _ h

theorem drainBlock (m : Mod) (s : Nat) (v : StreamSt) (b : Block) (used : Bool) :
    m.KeepsTriggers (m.drainBlock s v b used) := by
  unfold Mod.drainBlock
  split
  · exact (setStream ..).trans (.setStream ..)
  · exact ((bumpBy _ _ 1 (by omega)).trans (.setStream ..)).trans (.setStream ..)

theorem setRing (m : Mod) (ring : SMap Block) (next bytes : Nat) :
    m.KeepsTriggers (m.setRecord { m.record with ring := ring, next := next, bytes := bytes }) :=
  ⟨rfl, rfl, fun _ => rfl⟩

theorem countBlock (m : Mod) (s : Nat) (z : StreamSt) (base : Nat) : m.KeepsTriggers (m.countBlock s z base) :=
  ⟨rfl, rfl, fun _ => rfl⟩

theorem closeBlock (m : Mod) (s : Nat) (last : Tread) (capLast : Bool) :
    m.KeepsTriggers (m.closeBlock s last capLast) := by
  unfold Mod.closeBlock
  extract_lets
  split
  · exact .refl m
  · extract_lets
    split
    · exact .refl m
    · exact (countBlock ..).trans (drainBlock ..)

theorem noteRing (m : Mod) (s : Nat) (v : StreamSt) (b : Block) (n : Nat) : m.KeepsTriggers (m.noteRing s v b n) := by
  unfold Mod.noteRing
  exact (((setStream ..).trans (.bumpBy _ _ 1 (by omega))).trans (.setRo _ _ _ (by omega))).trans
    (.setRo _ _ _ (by omega))

theorem noteGap (m : Mod) (b : Block) : m.KeepsTriggers (m.noteGap b) := by
  unfold Mod.noteGap
  split
  · exact .refl m
  · exact (((setStream ..).trans (.bumpBy _ _ _ (by omega))).trans (.setRo _ _ _ (by omega))).trans
      (.setRo _ _ _ (by omega))

theorem writeDrain (m : Mod) (s : Nat) : m.KeepsTriggers (m.writeDrain s) := by
  cases hb : (m.stream s).drain with
  | none =>
    unfold Mod.writeDrain
    simp only [hb]
    exact .refl m
  | some b =>
    rw [writeDrain_eq hb]
    exact ((setRing m _ _ _).trans (noteRing ..)).trans (noteGap ..)

theorem ringWrite (m : Mod) (s : Nat) : m.KeepsTriggers (m.ringWrite s) := by
  unfold Mod.ringWrite
  split
  · exact .refl m
  · exact overAll_keeps .refl .trans _ writeDrain m

theorem closeDown (m : Mod) (s : Nat) (last : Tread) (capLast : Bool) (n : Nat) :
    m.KeepsTriggers (m.closeDown s last capLast n) := by
  induction n generalizing m with
  | zero => exact .refl m
  | succ n ih =>
    have hclose := closeBlock m s last capLast
    unfold Mod.closeDown
    extract_lets m1
    split
    · exact hclose
    · exact iteInduction (fun _ => hclose) (fun _ => (hclose.trans (ringWrite ..)).trans (ih _))

theorem endStream (m : Mod) (s : Nat) (last : Tread) (capLast : Bool) : m.KeepsTriggers (m.endStream s last capLast) := by
  have hclose := closeDown m s last capLast (m.blocksLeft s last)
  unfold Mod.endStream
  exact hclose.trans (setStream ..)

end Mod.KeepsTriggers

theorem endStream_recorded (m : Mod) (s : Nat) (last : Tread) (capLast : Bool) : m.Recorded (m.endStream s last capLast) :=
  (closeDown_recorded ..).trans (.setStream ..)

theorem first_endStream (m : Mod) (s : Nat) (last : Tread) (capLast : Bool) :
    ((m.endStream s last capLast).stream s).first = none := by
  unfold Mod.endStream
  extract_lets n
  exact congrArg StreamSt.first (lookD_put ..)

theorem trigNext_eq (m : Mod) (k : Nat) : m.trigNext k =
    if m.trigCfg k 0xD ≠ 0 ∧ m.trigCfg k 0xD ≤ (m.trig k).taken then m.setRo (0x3840 + k) 0x0F 4
    else if m.trigCfg k 0xB = 0 ∨ m.trigCfg k 0xC = 0 then m.setRo (0x3840 + k) 0x0F 1
    else (m.setTrig k { m.trig k with holdFrom := m.tread, left := m.trigCfg k 0xC }).setRo (0x3840 + k) 0x0F 3 := rfl

/-- A trigger that waited for its window: where it stands next (R279, R281). -/
theorem trigState_trigNext (m : Mod) (k : Nat) : (m.trigNext k).trigState k =
    if m.trigCfg k 0xD ≠ 0 ∧ m.trigCfg k 0xD ≤ (m.trig k).taken then 4
    else if m.trigCfg k 0xB = 0 ∨ m.trigCfg k 0xC = 0 then 1 else 3 := by
  rw [trigNext_eq]
  split
  · exact rov_setRo ..
  · split <;> exact rov_setRo ..

/-- What a trigger that goes on leaves: the captures, the streams, the objects and the count of its captures. -/
theorem trigNext_keeps (m : Mod) (k : Nat) : (m.trigNext k).record.windows = m.record.windows ∧
    (m.trigNext k).streams = m.streams ∧ (m.trigNext k).objs = m.objs ∧
    ((m.trigNext k).trig k).taken = (m.trig k).taken := by
  rw [trigNext_eq]
  split
  · exact ⟨rfl, rfl, rfl, rfl⟩
  · split
    · exact ⟨rfl, rfl, rfl, rfl⟩
    · exact ⟨rfl, rfl, rfl, (congrArg TrigSt.taken (lookD_put ..)).trans rfl⟩

/-- The module with the window `w` of trigger `k` closed, before the trigger goes on (R281). -/
def Mod.windowClosed (m : Mod) (k : Nat) (w : Window) : Mod :=
  let n := m.endStream w.slot w.last true
  let n := n.setRecord { n.record with windows := n.record.windows.filter fun x => !decide (x = w) }
  let n := (n.setRo 0x3850 0x12 n.record.windows.length).bump 0x3850 0x13
  n.setTrig k { n.trig k with taken := (n.trig k).taken + 1 }

theorem windowClose_of_found {m : Mod} {k : Nat} {w : Window}
    (hw : (m.record.windows.find? fun w => decide (w.trig = k ∧ w.last < m.tread)) = some w) :
    m.windowClose k = if (m.windowClosed k w).trigState k = 2 then (m.windowClosed k w).trigNext k
      else m.windowClosed k w := by
  unfold Mod.windowClose
  simp only [hw]
  rfl

theorem windowClosed_eq (m : Mod) (k : Nat) (w : Window) :
    (m.windowClosed k w).record.windows = m.record.windows.filter (fun x => !decide (x = w)) ∧
    ((m.windowClosed k w).stream w.slot).first = none ∧ ((m.windowClosed k w).trig k).taken = (m.trig k).taken + 1 ∧
    (m.windowClosed k w).objs = m.objs ∧ (k < 8 → (m.windowClosed k w).trigState k = m.trigState k) := by
  have hkeeps := Mod.KeepsTriggers.endStream m w.slot w.last true
  have hfirst := first_endStream m w.slot w.last true
  obtain ⟨⟨_, _, _, hobjs⟩, -⟩ := endStream_recorded m w.slot w.last true
  unfold Mod.windowClosed
  generalize m.endStream w.slot w.last true = n at hkeeps hfirst hobjs
  extract_lets r x n1 n2
  have htrig : n2.trig k = m.trig k := congrArg (fun l : SMap TrigSt => lookD l k {}) hkeeps.trigs
  refine ⟨congrArg (·.filter fun x => !decide (x = w)) hkeeps.windows, hfirst, ?_, (congrArg Mod.objs hobjs).trans rfl,
    fun hk => ?_⟩
  · exact (congrArg TrigSt.taken (lookD_put ..)).trans (congrArg (TrigSt.taken · + 1) htrig)
  · have hro : n2.trigState k = n1.trigState k :=
      (rov_bumpBy_ne _ _ _ _ _ _ (by simp only [okey]; omega)).trans
        (rov_setRo_ne _ _ _ _ _ _ (by simp only [okey]; omega))
    exact hro.trans (hkeeps.state k)

/-- The module after the edge that a trigger of the trigger inputs is for (R278). -/
def Mod.trigEdge (m : Mod) (k : Nat) (falling : Bool) : Mod :=
  if m.trigCfg k 1 = 5 then m.trgEdge (m.trigCfg k 8 % 4) falling else m

theorem trigEdge_notesEdge (m : Mod) (k : Nat) (falling : Bool) : m.NotesEdge (m.trigEdge k falling) :=
  iteInduction (fun _ => trgEdge_notesEdge ..) (fun _ => .refl m)

theorem triggerFire_met {m : Mod} {k off : Nat} {raw : Option Int} {falling : Bool} (hk : k < 8)
    (hin : m.blockIn 14 = false) (hfired : (m.trig k).fired ≠ some m.tread)
    (hmeets : (m.trigEdge k falling).trigMeets k raw falling = true) (harmed : (m.trigEdge k falling).trigState k = 1) :
    m.triggerFire k off raw falling = (m.trigEdge k falling).fireTrigger k off
      (raw.isSome && decide ((m.trigEdge k falling).trigCfg k 3 ≠ 0xFF)) := by
  obtain ⟨⟨_, _, _, _, _, _, _, heq⟩, hrov⟩ := trigEdge_notesEdge m k falling
  have htread : (m.trigEdge k falling).tread = m.tread := (congrArg Mod.tread heq).trans rfl
  have hblock : (m.trigEdge k falling).blockIn 14 = false := (congrArg (tb · 14) (hrov 0x1410 2 (by omega))).trans hin
  have hstart : (if m.trigCfg k 1 = 5 ∧ k < 8 then m.trgEdge (m.trigCfg k 8 % 4) falling else m) =
      m.trigEdge k falling := by simp only [hk, and_true, Mod.trigEdge]
  unfold Mod.triggerFire
  simp only [hstart]
  rw [if_neg (by simp [hblock, htread, hfired, hmeets]; omega), if_pos harmed]

/-- Settles O48: a trigger that fires, the end of a hold-off, a window that closes. -/
theorem triggerEvents : Obligations.TriggerEvents := by
  unfold Obligations.TriggerEvents
  intro s k hlife hk
  refine ⟨fun off raw falling => ?_, fun hstate hkind hdue => ?_, fun w hw => ?_⟩
  · intro m hin hfired hmeets harmed
    exact exec_inService_eq (·.triggerFire k off raw falling) rfl hlife
      (triggerFire_met hk hin hfired hmeets harmed)
  · exact exec_inService_eq (fun m => if k < 8 then m.holdOffEnd k else m) rfl hlife
      ((if_pos hk).trans (if_pos ⟨hstate, hkind, hdue⟩))
  · obtain ⟨hwindows, hfirst, htaken, hobjs, hstate⟩ := windowClosed_eq s.m k w
    obtain ⟨hkwindows, hkstreams, hkobjs, hktaken⟩ := trigNext_keeps (s.m.windowClosed k w) k
    have hnext := trigState_trigNext (s.m.windowClosed k w) k
    have hcfg : ∀ sub, (s.m.windowClosed k w).trigCfg k sub = s.m.trigCfg k sub := fun sub =>
      congrArg (stGet · (okey 0 (0x3840 + k) sub)) hobjs
    simp only [hcfg, htaken] at hnext
    refine ⟨_, exec_inService_eq (·.windowClose k) rfl hlife (windowClose_of_found hw), ?_⟩
    rw [State.withMod_m, hstate hk]
    split
    · next hwait =>
      exact ⟨hkwindows.trans hwindows,
        (congrArg (fun l : SMap StreamSt => (lookD l w.slot {}).first) hkstreams).trans hfirst,
        hktaken.trans htaken, hkobjs.trans hobjs, hnext.trans (by simp [hwait])⟩
    · next hwait => exact ⟨hwindows, hfirst, htaken, hobjs, hstate hk⟩

end Sys2Proof.Machine
end

section
/-! PROOFS. Resets and lost locks (O49). -/

namespace Sys2Proof.Machine

/-! ### What a record of the gallery and the cut of the banks leave of the objects -/

theorem rov_suppress (m : Mod) (code idx sub : Nat) : (m.suppress code).rov idx sub = m.rov idx sub := rfl

theorem rov_logRecord (m : Mod) (d : GalDue) (idx sub : Nat) (h : okey 0 0x1500 7 ≠ okey 0 idx sub) :
    (m.logRecord d).rov idx sub = m.rov idx sub := by
  unfold Mod.logRecord
  split
  · exact rov_bumpBy_ne _ _ _ _ _ _ h
  · split
    · rfl
    · unfold Mod.enqueueDue
      extract_lets q n
      split <;> rfl

theorem rov_logGal (m : Mod) (code source : Nat) (words : List Nat) (idx sub : Nat)
    (h : okey 0 0x1500 7 ≠ okey 0 idx sub) : (m.logGal code source words).rov idx sub = m.rov idx sub :=
  rov_logRecord _ _ _ _ h

/-- The objects below those of the field side. -/
def Mod.SameLowRo (m n : Mod) : Prop := ∀ idx sub, idx < 0x1600 → n.rov idx sub = m.rov idx sub

namespace Mod.SameLowRo
variable {m n k : Mod}

theorem refl (m : Mod) : m.SameLowRo m := fun _ _ _ => rfl

theorem trans (h : m.SameLowRo n) (g : n.SameLowRo k) : m.SameLowRo k := fun i s hi => (g i s hi).trans (h i s hi)

theorem setFbank (m : Mod) (b : Nat) (v : BankSt) : m.SameLowRo (m.setFbank b v) := fun _ _ _ => rfl

theorem abandonDark (m : Mod) (b : Nat) : m.SameLowRo (m.abandonDark b) := by
  unfold Mod.abandonDark
  split
  · exact fun _ _ hi => rov_bumpBy_ne _ _ _ _ _ _ (by simp only [okey]; omega)
  · exact refl m

theorem pulsePass (m : Mod) : m.SameLowRo m.pulsePass := by
  unfold Mod.pulsePass
  split
  · exact iteInduction (fun _ => fun _ _ hi => rov_setRo_ne _ _ _ _ _ _ (by simp only [okey]; omega)) (fun _ => refl m)
  · exact refl m

theorem setLevels (m : Mod) : m.SameLowRo m.setLevels := fun _ _ _ => rfl

theorem darkPass (m : Mod) : m.SameLowRo m.darkPass :=
  (overAll_keeps refl trans (List.range 6) (fun n b => iteInduction (fun _ => abandonDark n b) (fun _ => refl n)) m).trans
    (pulsePass _)

theorem cutPass (m : Mod) : m.SameLowRo m.cutPass := by
  unfold Mod.cutPass
  extract_lets w cuts ends m1 m2
  have hcut : m.SameLowRo m1 := overAll_keeps refl trans cuts (fun n b => setFbank n b _) m
  have hend : m1.SameLowRo m2 := overAll_keeps refl trans ends (fun n b => setFbank n b _) m1
  exact iteInduction (fun _ => refl m) (fun _ => ((hcut.trans hend).trans (darkPass _)).trans (setLevels _))

end Mod.SameLowRo

/-! ### Resets (R284 to R288) -/

/-- A module held by a logic reset of a cause (R285, R288): nothing staged, read or waiting is left. -/
structure Mod.HeldBy (n : Mod) (cause flag : Nat) : Prop where
  life : n.life = .held
  cause : n.rov 0x1400 1 = cause
  flag : n.reset.flag = flag
  request : n.reset.request = none
  staged : n.staged = []
  reads : n.reads = []
  waiting : n.waiting = []

theorem endStandby_frame (m : Mod) :
    m.endStandby.staged = m.staged ∧ m.endStandby.reads = m.reads ∧ m.endStandby.waiting = m.waiting := by
  unfold Mod.endStandby
  split <;> exact ⟨rfl, rfl, rfl⟩

theorem dropLogic_frame (m : Mod) : m.dropLogic.staged = [] ∧ m.dropLogic.reads = [] ∧ m.dropLogic.waiting = [] := by
  unfold Mod.dropLogic
  exact ⟨rfl, rfl, rfl⟩

theorem logicReset_holds {m : Mod} (cause flag : Nat) (h : m.life ≠ .off) : (m.logicReset cause flag).HeldBy cause flag := by
  obtain ⟨hstaged, hreads, hwaiting⟩ := endStandby_frame m.dropLogic
  obtain ⟨hnostaged, hnoreads, hnowaiting⟩ := dropLogic_frame m
  unfold Mod.logicReset
  rw [if_neg h]
  generalize m.dropLogic.endStandby = n at hstaged hreads hwaiting
  exact ⟨rfl, rov_setRo .., rfl, rfl, hstaged.trans hnostaged, hreads.trans hnoreads, hwaiting.trans hnowaiting⟩

theorem brownout_holds {m : Mod} {ns : Nat} (us : Nat) (hlong : 2000 < ns) (hb : tb (m.rov 0x1400 0x2F) 1 = false)
    (h : m.life ≠ .off) : (m.brownout ns us).HeldBy 2 0 := by
  obtain ⟨n, hn, heq⟩ := brownout_bridged m ns us hlong hb
  rw [heq]
  exact logicReset_holds 2 0 (hn.life ▸ h)

theorem requestedHold_holds {m : Mod} {cause flag n : Nat} (hrequest : m.reset.request = some (cause, flag, n))
    (hflight : m.tread % 100 = 0) (hn : n < m.tread) (h : m.life ≠ .off) : m.requestedHold.HeldBy cause flag := by
  unfold Mod.requestedHold
  simp only [hrequest]
  rw [if_neg (not_or.2 ⟨not_not_intro hflight, Nat.not_lt.2 hn⟩)]
  refine logicReset_holds cause flag ?_
  split <;> simpa using h

theorem powerSafety_keeps (m : Mod) (activeOk pendingOk : Bool) :
    (m.powerSafety activeOk pendingOk).life = m.life ∧ (m.powerSafety activeOk pendingOk).hall = m.hall ∧
    (m.powerSafety activeOk pendingOk).tracks = m.tracks ∧ (m.powerSafety activeOk pendingOk).staged = m.staged ∧
    (m.powerSafety activeOk pendingOk).safety.dom = 0 ∧ m.SameLowRo (m.powerSafety activeOk pendingOk) := by
  unfold Mod.powerSafety
  extract_lets s pend m1 m2
  have hlow : m.SameLowRo m2.cutPass := (Mod.SameLowRo.cutPass m2).trans (Mod.SameLowRo.refl _)
  have hsafety := congrArg SafetySt.dom (cutPass_safety m2)
  obtain ⟨_, _, _, _, _, _, _, _, _, _, heq⟩ := Mod.FieldWork.cutPass m2
  exact ⟨(congrArg Mod.life heq).trans rfl, (congrArg Mod.hall heq).trans rfl, (congrArg Mod.tracks heq).trans rfl,
    (congrArg Mod.staged heq).trans rfl, hsafety, hlow⟩

/-- A power-on reset starts from an empty module in reset and reports its cause and its straps (R284, R287). -/
theorem powerOn_starts (m : Mod) (bootsel clkmode : Nat) (activeOk pendingOk : Bool) :
    ∃ n : Mod, n.life = .held ∧ n.hall = [] ∧ n.tracks = [] ∧ n.staged = [] ∧
      m.powerOn bootsel clkmode activeOk pendingOk = ((n.setRo 0x1400 1 1).setRo 0x1400 0x0D
        (bootsel % 4 + 4 * (clkmode % 4))).freshField.powerSafety activeOk pendingOk := by
  unfold Mod.powerOn
  extract_lets
  exact ⟨_, rfl, rfl, rfl, rfl, rfl⟩

theorem powerOn_holds (m : Mod) (bootsel clkmode : Nat) (activeOk pendingOk : Bool) :
    (m.powerOn bootsel clkmode activeOk pendingOk).life = .held ∧
    (m.powerOn bootsel clkmode activeOk pendingOk).rov 0x1400 1 = 1 ∧
    (m.powerOn bootsel clkmode activeOk pendingOk).hall = [] ∧
    (m.powerOn bootsel clkmode activeOk pendingOk).tracks = [] ∧
    (m.powerOn bootsel clkmode activeOk pendingOk).staged = [] ∧
    (m.powerOn bootsel clkmode activeOk pendingOk).rov 0x1400 0xD = bootsel % 4 + 4 * (clkmode % 4) ∧
    (m.powerOn bootsel clkmode activeOk pendingOk).safety.dom = 0 := by
  obtain ⟨n, hlife, hhall, htracks, hstaged, heq⟩ := powerOn_starts m bootsel clkmode activeOk pendingOk
  rw [heq]
  generalize hfresh : ((n.setRo 0x1400 1 1).setRo 0x1400 0x0D (bootsel % 4 + 4 * (clkmode % 4))).freshField = x
  have hcause : x.rov 0x1400 1 = 1 :=
    hfresh ▸ (rov_setRo_ne (n.setRo 0x1400 1 1) 0x1400 0x0D _ 0x1400 1 (by decide)).trans (rov_setRo ..)
  have hstraps : x.rov 0x1400 0xD = bootsel % 4 + 4 * (clkmode % 4) := hfresh ▸ rov_setRo (n.setRo 0x1400 1 1) _ _ _
  have hxlife : x.life = .held := hfresh ▸ hlife
  have hxhall : x.hall = [] := hfresh ▸ hhall
  have hxtracks : x.tracks = [] := hfresh ▸ htracks
  have hxstaged : x.staged = [] := hfresh ▸ hstaged
  obtain ⟨hslife, hshall, hstracks, hsstaged, hdom, hlow⟩ := powerSafety_keeps x activeOk pendingOk
  exact ⟨hslife.trans hxlife, (hlow _ _ (by decide)).trans hcause, hshall.trans hxhall, hstracks.trans hxtracks,
    hsstaged.trans hxstaged, (hlow _ _ (by decide)).trans hstraps, hdom⟩

/-! ### Lost locks of the PLLs (R398) -/

/-- What a miscompare of a pair late in the tread leaves: the pair is out of step, the rest of the engine as it was. -/
structure Mod.PairMissed (m n : Mod) (pair : Nat) : Prop where
  life : n.life = m.life
  objs : n.objs = m.objs
  field : n.field = m.field
  forced : n.engine.forceA = m.engine.forceA ∧ n.engine.forceB = m.engine.forceB
  out : n.rov 0x2000 (3 + pair) ≠ 0
  other : n.rov 0x2000 (4 - pair) = m.rov 0x2000 (4 - pair)
  active : n.rov 0x2000 2 = m.rov 0x2000 2

theorem missed_pairMissed (m : Mod) {pair : Nat} (h : pair ≤ 1) : m.PairMissed (m.missed pair) pair := by
  have hkey : ∀ sub, sub < 5 → okey 0 0x2000 (5 + pair) ≠ okey 0 0x2000 sub := by simp only [okey]; omega
  have hother : okey 0 0x2000 (3 + pair) ≠ okey 0 0x2000 (4 - pair) := by simp only [okey]; omega
  have hactive : okey 0 0x2000 (3 + pair) ≠ okey 0 0x2000 2 := by simp only [okey]; omega
  unfold Mod.missed Mod.resync
  extract_lets n recent l src n2
  have hn2 : (∃ a b, n2 = { n with engine := { n.engine with missA := a, missB := b } }) :=
    iteInduction (motive := fun x => ∃ a b, x = { n with engine := { n.engine with missA := a, missB := b } })
      (fun _ => ⟨_, _, rfl⟩) (fun _ => ⟨_, _, rfl⟩)
  have hrov : ∀ sub, sub < 5 → n2.rov 0x2000 sub = m.rov 0x2000 sub := fun sub hsub => by
    obtain ⟨_, _, heq⟩ := hn2
    rw [heq]
    exact rov_bumpBy_ne _ _ _ _ _ _ (hkey sub hsub)
  obtain ⟨_, _, heq⟩ := hn2
  have hset : ∀ v, v ≠ 0 → m.PairMissed (n2.setRo 0x2000 (3 + pair) v) pair := fun v hv =>
    ⟨(congrArg Mod.life heq :), (congrArg Mod.objs heq :), (congrArg Mod.field heq :),
      ⟨(congrArg (·.engine.forceA) heq :), (congrArg (·.engine.forceB) heq :)⟩, fun hzero => hv ((rov_setRo ..).symm.trans hzero),
      (rov_setRo_ne _ _ _ _ _ _ hother).trans (hrov _ (by omega)),
      (rov_setRo_ne _ _ _ _ _ _ hactive).trans (hrov _ (by omega))⟩
  have h1 := hset 1 (by omega)
  split
  · exact hset 2 (by omega)
  · split <;> exact ⟨h1.life, h1.objs, h1.field, h1.forced, h1.out, h1.other, h1.active⟩

theorem lateMiss_single {m : Mod} {pair : Nat} (hpair : pair ≤ 1) (hin : m.rov 0x2000 (3 + pair) = 0)
    (hother : m.rov 0x2000 (4 - pair) = 0) :
    (m.lateMiss pair).life = m.life ∧ (m.lateMiss pair).rov 0x2000 (3 + pair) ≠ 0 ∧
    (m.lateMiss pair).rov 0x2000 2 = (if m.rov 0x2000 2 = pair then 1 - pair else m.rov 0x2000 2) ∧
    ((m.lateMiss pair).engine.forceA = m.engine.forceA ∧ (m.lateMiss pair).engine.forceB = m.engine.forceB) ∧
    (m.lateMiss pair).objs = m.objs ∧ (m.lateMiss pair).field = m.field := by
  have h := missed_pairMissed m hpair
  unfold Mod.lateMiss
  rw [if_neg (by simp [hin])]
  dsimp only []
  rw [if_neg (by simp [h.other, hother]), h.active]
  split
  · obtain ⟨_, _, _, _, _, heq⟩ := logGal_reports (((m.missed pair).setRo 0x2000 2 (1 - pair)).bump 0x2000 7) 0x010
      (1 - pair) ((1 - pair) :: treadWords (((m.missed pair).setRo 0x2000 2 (1 - pair)).bump 0x2000 7).tread)
    have hrov : ∀ sub, sub < 7 → ((m.missed pair).takeover (1 - pair)).rov 0x2000 sub =
        ((m.missed pair).setRo 0x2000 2 (1 - pair)).rov 0x2000 sub := fun sub hsub =>
      (rov_logGal _ _ _ _ _ _ (by simp only [okey]; omega)).trans
        (rov_bumpBy_ne _ _ _ _ _ _ (by simp only [okey]; omega))
    refine ⟨(congrArg Mod.life heq).trans h.life, ?_, (hrov 2 (by omega)).trans (rov_setRo ..),
      ⟨(congrArg (·.engine.forceA) heq).trans h.forced.1, (congrArg (·.engine.forceB) heq).trans h.forced.2⟩,
      (congrArg Mod.objs heq).trans h.objs, (congrArg Mod.field heq).trans h.field⟩
    rw [hrov _ (by omega), rov_setRo_ne _ _ _ _ _ _ (by simp only [okey]; omega)]
    exact h.out
  · exact ⟨h.life, h.out, h.active, h.forced, h.objs, h.field⟩

theorem lateMiss_last {m : Mod} {pair : Nat} (hpair : pair ≤ 1) (hrun : m.life = .run)
    (hin : m.rov 0x2000 (3 + pair) = 0) (hother : m.rov 0x2000 (4 - pair) ≠ 0) : (m.lateMiss pair).HeldBy 5 0 := by
  have h := missed_pairMissed m hpair
  unfold Mod.lateMiss
  rw [if_neg (by simp [hin])]
  dsimp only []
  rw [if_pos (by simpa [h.other] using hother)]
  exact logicReset_holds 5 0 (by simp [hrun])

/-- The module whose pair's step fails late in the next `more` treads (log 133). -/
def Mod.forcing (m : Mod) (pair more : Nat) : Mod :=
  { m with engine := if pair = 0 then { m.engine with forceA := more } else { m.engine with forceB := more } }

theorem pairLoss_eq (m : Mod) (pair more : Nat) : m.pairLoss pair more =
    if m.life = .run then (m.forcing pair more).lateMiss pair else m.forcing pair more := rfl

theorem forcing_forced (m : Mod) (pair more : Nat) :
    (if pair = 0 then (m.forcing pair more).engine.forceA else (m.forcing pair more).engine.forceB) = more := by
  unfold Mod.forcing
  split
  · rfl
  · rfl

theorem pairLoss_idle {m : Mod} {pair : Nat} (more : Nat) (h : m.life ≠ .run ∨ m.rov 0x2000 (3 + pair) ≠ 0) :
    m.pairLoss pair more = m.forcing pair more := by
  rw [pairLoss_eq]
  split
  · next hrun => exact if_pos (h.resolve_left (not_not_intro hrun))
  · rfl

theorem pllLoss_pair (m : Mod) {pair : Nat} (more : Nat) (h : pair ≤ 1) : m.pllLoss pair more = m.pairLoss pair more := by
  obtain rfl | rfl : pair = 0 ∨ pair = 1 := by omega
  · rfl
  · rfl

/-- A PLL of the fabric, neither pair's own nor one of the two that are only reported: a logic reset (R398). -/
theorem pllLoss_fabric {m : Mod} {d : Nat} (more : Nat) (hlow : 2 ≤ d) (hhigh : d ≤ 6) (h : m.life ≠ .standby) :
    m.pllLoss d more = m.logicReset 4 0 := by
  unfold Mod.pllLoss
  split
  · omega
  · omega
  · omega
  · omega
  · exact if_pos ⟨hhigh, h⟩

theorem exec_pllLockLoss {s : State} {n : Mod} (d more : Nat) (hsw : s.m.switching = true) (h : s.m.pllLoss d more = n) :
    exec (.pllLockLoss d more) s = .next (s.withMod n) :=
  exec_on_eq (fun m => if m.switching then m.pllLoss d more else m) rfl ((if_pos hsw).trans h)

/-- Settles O49: the power-on reset, the logic resets by their causes, the loss of power, and the lost locks of the PLLs. -/
theorem resetsHold : Obligations.ResetsHold := by
  unfold Obligations.ResetsHold
  intro s
  refine ⟨fun straps stored => ?_, fun hlife => ⟨fun ns us hlong => ⟨fun hb => ?_, fun hb => ?_⟩, fun n hn => ?_⟩,
    fun hrun => ⟨fun n hn => ?_, fun cause flag n hrequest hflight hn => ?_⟩, fun hsw => ⟨fun d more hlow hhigh => ?_,
    fun pair more hpair => ⟨fun hidle => ?_, fun hrun hin hother => ?_, fun hrun hin hother => ?_⟩, fun more => ?_,
    fun more => ?_⟩⟩
  · obtain ⟨hlife, hcause, hhall, htracks, hstaged, hstraps, hdom⟩ :=
      powerOn_holds s.m straps.bootsel straps.clkmode stored.activeOk stored.pendingOk
    exact ⟨_, rfl, hlife, hcause, hhall, htracks, hstaged, hstraps, by simp, hdom⟩
  · have h := brownout_holds us hlong hb hlife
    exact ⟨_, rfl, h.life, h.cause, h.staged, h.reads, h.waiting⟩
  · exact ⟨_, exec_on_eq (·.brownout ns us) rfl (brownout_unbridged s.m ns us hlong hb), rfl, rfl, by simp⟩
  · have h := logicReset_holds 3 0 hlife
    exact ⟨_, exec_on_eq (·.resetPin n) rfl (if_neg (by omega)), h.life, h.cause, h.staged, h.reads, h.waiting⟩
  · have h := logicReset_holds (m := s.m) 4 0 (by simp [hrun])
    exact ⟨_, exec_inService_eq (·.watchdog n) rfl hrun (if_neg (by omega)), h.life, h.cause, h.staged, h.reads, h.waiting⟩
  · have h := requestedHold_holds hrequest hflight hn (by simp [hrun])
    exact ⟨_, exec_inService_eq (·.requestedHold) rfl hrun rfl, h.life, h.cause, h.flag, h.request, h.staged⟩
  · have hlife := life_of_switching hsw
    have h := logicReset_holds (m := s.m) 4 0 (by rintro hoff; simp [hoff] at hlife)
    exact ⟨_, exec_pllLockLoss d more hsw (pllLoss_fabric more hlow hhigh (by rintro hstandby; simp [hstandby] at hlife)),
      h.life, h.cause⟩
  · exact exec_pllLockLoss pair more hsw ((pllLoss_pair s.m more hpair).trans (pairLoss_idle more hidle))
  · obtain ⟨hlife, hout, hactive, ⟨hforceA, hforceB⟩, hobjs, hfield⟩ :=
      lateMiss_single (m := s.m.forcing pair more) hpair hin hother
    refine ⟨_, exec_pllLockLoss pair more hsw
      ((pllLoss_pair s.m more hpair).trans ((pairLoss_eq ..).trans (if_pos hrun))), hlife.trans hrun, hout, hactive, ?_,
      hobjs, hfield⟩
    rw [State.withMod_m, hforceA, hforceB]
    exact forcing_forced s.m pair more
  · have h := lateMiss_last (m := s.m.forcing pair more) hpair hrun hin hother
    exact ⟨_, exec_pllLockLoss pair more hsw
      ((pllLoss_pair s.m more hpair).trans ((pairLoss_eq ..).trans (if_pos hrun))), h.life, h.cause⟩
  · exact exec_pllLockLoss 7 more hsw rfl
  · exact exec_pllLockLoss 8 more hsw rfl

end Sys2Proof.Machine
end

section
/-! PROOFS. The way back to service, supplies and per-block resets (O50, O51). -/

namespace Sys2Proof.Machine

/-! ### The way back to service (R291 to R295) -/

theorem firstFlight_spec (now : Nat) : firstFlight now % 100 = 0 ∧ now + 2 ≤ firstFlight now := by
  constructor
  · exact Nat.mul_mod_left ..
  · have hlast := Nat.mod_lt (now + 2 + 99) (show 0 < 100 by omega)
    have hsplit := Nat.div_add_mod (now + 2 + 99) 100
    show now + 2 ≤ (now + 2 + 99) / 100 * 100
    omega

/-- What the bring-up leaves the module ready for: the first whole flight of its way back (R294). -/
theorem bringUp_ready (m : Mod) (b : BringUp) :
    (m.bringUp b).reset.first % 100 = 0 ∧ b.now < (m.bringUp b).reset.first ∧
    (m.bringUp b).tread + 2 = (m.bringUp b).reset.first ∧ (m.bringUp b).reset.needP3 = false := by
  obtain ⟨hflight, hlater⟩ := firstFlight_spec (Max.max b.now m.tread)
  have hnow : b.now + 2 ≤ Max.max b.now m.tread + 2 := Nat.add_le_add_right (Nat.le_max_left ..) 2
  exact ⟨hflight, Nat.lt_of_lt_of_le (Nat.lt_add_of_pos_right (Nat.succ_pos 1)) (Nat.le_trans hnow hlater),
    Nat.sub_add_cancel (Nat.le_trans (Nat.le_add_left ..) hlater), rfl⟩

theorem rejoin_tread (m : Mod) (n : Tread) : (m.rejoin n).tread = m.tread := by
  unfold Mod.rejoin
  dsimp only []

theorem prepare_tread {m : Mod} (h : m.life = .ready) : m.prepare.tread = m.reset.first - 1 := by
  unfold Mod.prepare
  rw [if_neg (by simp [h])]
  dsimp only []
  split <;> simp [rejoin_tread]

theorem loadOptions_bootsel (m : Mod) (b : BringUp) : (m.loadOptions b).reset.bootsel = m.reset.bootsel := by
  unfold Mod.loadOptions
  extract_lets m1 m2 m3
  have h1 : m1.reset.bootsel = m.reset.bootsel := by
    unfold m1 Mod.storedOptions
    split <;> rfl
  have h2 : m2.reset.bootsel = m1.reset.bootsel := iteInduction (motive := fun x : Mod => x.reset.bootsel = m1.reset.bootsel)
    (fun _ => by
      obtain ⟨_, _, _, _, _, heq⟩ := logGal_reports m1 0x060 0 [b2n b.optionA]
      exact (congrArg (·.reset.bootsel) heq).trans rfl) (fun _ => rfl)
  have h3 : m3.reset.bootsel = m2.reset.bootsel := iteInduction (motive := fun x : Mod => x.reset.bootsel = m2.reset.bootsel)
    (fun _ => rfl) (fun _ => rfl)
  exact h3.trans (h2.trans h1)

theorem restartServo_reset (m : Mod) : m.restartServo.reset = m.reset := by
  unfold Mod.restartServo
  split
  · rfl
  · dsimp only []
    split <;> rfl

/-- A release that needs no start over P3 brings the module up, one that does waits for it (R291, R292). -/
theorem resetRelease_eq {m : Mod} (b : BringUp) (hlife : m.life = .held) (hneed : m.reset.needP3 = false) :
    ∃ n : Mod, n.life = .held ∧ n.reset.needP3 = (decide (m.reset.bootsel = 1) && !factoryOptions b) ∧
      m.resetRelease b = if decide (m.reset.bootsel = 1) && !factoryOptions b then n else n.bringUp b := by
  have hboot : ((m.timeTo (b.now / 100)).loadOptions b).restartServo.reset.bootsel = m.reset.bootsel :=
    (congrArg ResetSt.bootsel (restartServo_reset _)).trans (loadOptions_bootsel _ b)
  unfold Mod.resetRelease
  rw [if_neg (by simp [hlife, hneed])]
  dsimp only []
  rw [hboot]
  refine ⟨_, ?_, ?_, rfl⟩
  · split <;> simp [hlife]
  · rfl

/-- Settles O50: a release, a release that waits for P3, firmware over P3, and the preparation tread. -/
theorem bringUpProceeds : Obligations.BringUpProceeds := by
  unfold Obligations.BringUpProceeds
  intro s b
  refine ⟨fun hlife hneed hfree => ?_, fun hlife hneed hboot hopt => ?_, fun hlife hneed => ?_, fun hlife => ?_⟩
  · obtain ⟨n, -, -, heq⟩ := resetRelease_eq b hlife hneed
    have hp3 : (decide (s.m.reset.bootsel = 1) && !factoryOptions b) = false := by
      obtain hboot | hopt := hfree
      · rw [decide_eq_false hboot, Bool.false_and]
      · rw [hopt, Bool.not_true, Bool.and_false]
    rw [hp3] at heq
    obtain ⟨hflight, hlater, htread, hno⟩ := bringUp_ready n b
    exact ⟨_, exec_on_eq (·.resetRelease b) rfl heq, bringUp_life n b, hflight, hlater, htread, hno⟩
  · obtain ⟨n, hn, hp3, heq⟩ := resetRelease_eq b hlife hneed
    simp only [hboot, hopt, decide_true, Bool.not_false, Bool.and_true, if_true] at hp3 heq
    exact ⟨_, exec_on_eq (·.resetRelease b) rfl heq, hn, hp3⟩
  · obtain ⟨hflight, hlater, htread, hno⟩ := bringUp_ready s.m b
    exact ⟨_, exec_on_eq (·.firmwareP3 true b) rfl (if_pos ⟨hlife, hneed, rfl⟩), bringUp_life s.m b, hflight, hlater,
      htread, hno⟩
  · exact ⟨_, exec_on_eq (·.prepare) rfl rfl, (prepare_life s.m).trans (if_pos hlife), prepare_tread hlife⟩

/-! ### Supplies and blocks (R285, R289, R290, R309, R386) -/

/-- A module that has answered partners: replies, what waits and an image's error, the blocks in reset as they were. -/
def Mod.Answers (m n : Mod) : Prop :=
  (∃ ro hall replies canPorts waiting, n = { m with
    ro := ro, hall := hall, replies := replies, canPorts := canPorts, waiting := waiting }) ∧
  n.rov 0x1410 2 = m.rov 0x1410 2

namespace Mod.Answers
variable {m n k : Mod}

theorem refl (m : Mod) : m.Answers m := ⟨⟨_, _, _, _, _, rfl⟩, rfl⟩

theorem trans (h : m.Answers n) (g : n.Answers k) : m.Answers k := by
  obtain ⟨⟨_, _, _, _, _, rfl⟩, hblock⟩ := h
  obtain ⟨⟨ro, hall, replies, ports, waiting, rfl⟩, gblock⟩ := g
  exact ⟨⟨ro, hall, replies, ports, waiting, rfl⟩, gblock.trans hblock⟩

theorem send (m : Mod) (r : Reply) : m.Answers (m.send r) := by
  refine ⟨?_, rov_send m r 0x1410 2⟩
  obtain h | ⟨c, s, h⟩ | ⟨p, rs, cache, -, h⟩ := send_cases m r <;> rw [h] <;> exact ⟨_, _, _, _, _, rfl⟩

theorem setWaiting (m : Mod) (l : List (Bool × Reply)) : m.Answers { m with waiting := l } := ⟨⟨_, _, _, _, _, rfl⟩, rfl⟩

theorem setHall (m : Mod) (l : SMap Partner) : m.Answers { m with hall := l } := ⟨⟨_, _, _, _, _, rfl⟩, rfl⟩

theorem setRo (m : Mod) (map sub v : Nat) : m.Answers (m.setRo (0x6000 + map) sub v) :=
  ⟨⟨_, _, _, _, _, rfl⟩, rov_setRo_ne _ _ _ _ _ _ (by simp only [okey]; omega)⟩

theorem imageFailed (m : Mod) (a map status pos : Nat) : m.Answers (m.imageFailed a map status pos) := by
  unfold Mod.imageFailed
  extract_lets x
  have hx : m.Answers x := ((setRo ..).trans (.setRo ..)).trans (.setRo ..)
  split
  · exact hx.trans (.setHall ..)
  · exact hx

theorem releaseHeld (n : Nat) (m : Mod) : m.Answers (Mod.releaseHeld n m) := by
  induction n generalizing m with
  | zero => exact refl m
  | succ n ih =>
    unfold Mod.releaseHeld
    split
    · exact ((setWaiting m _).trans (send ..)).trans (ih _)
    · exact refl m

theorem flush (m : Mod) : m.Answers m.flush := releaseHeld _ m

end Mod.Answers

/-- The writes that need a block in reset, those sealed by then apart (R54). -/
def Mod.isolatedWrites (m : Mod) (sealed_ : Tread) : List Staged :=
  m.staged.filter fun s => decide (sealed_ < s.due) && (m.isolatedAt s.entries).isSome

/-- The reads that need a block in reset and whose service has not begun (R54). -/
def Mod.isolatedReads (m : Mod) : List ReadSt := m.reads.filter fun s => !s.begun && (m.isolatedAt s.entries).isSome

/-- The module without the writes and the reads that a block in reset refuses. -/
def Mod.withoutIsolated (m : Mod) (sealed_ : Tread) : Mod :=
  { m with staged := m.staged.filter (!(m.isolatedWrites sealed_).contains ·), reads := m.reads.filter (!m.isolatedReads.contains ·) }

theorem refuseIsolated_answers (m : Mod) (sealed_ : Tread) : (m.withoutIsolated sealed_).Answers (m.refuseIsolated sealed_) := by
  unfold Mod.refuseIsolated
  extract_lets w r m1 m2
  have hwrites : m1.Answers m2 := overAll_keeps .refl .trans w (fun n s => by
    dsimp only []
    split
    · exact .imageFailed ..
    · exact .send ..) m1
  exact (hwrites.trans (overAll_keeps .refl .trans r (fun n s => .send ..) m2)).trans (.flush _)

theorem mem_staged_withoutIsolated {m : Mod} {sealed_ : Tread} {x : Staged} :
    x ∈ (m.withoutIsolated sealed_).staged ↔ x ∈ m.staged ∧ (m.isolatedAt x.entries = none ∨ x.due ≤ sealed_) := by
  have hdue : ¬ sealed_ < x.due ↔ x.due ≤ sealed_ := Nat.not_lt
  simp only [Mod.withoutIsolated, Mod.isolatedWrites, List.mem_filter, Bool.not_eq_true', List.contains_eq_mem,
    decide_eq_false_iff_not, Bool.and_eq_true, decide_eq_true_eq, not_and, Option.isSome_iff_ne_none, ← hdue]
  refine and_congr_right fun hx => ⟨fun h => ?_, fun h _ hlate hneeds => h.elim hneeds (· hlate)⟩
  by_cases hlate : sealed_ < x.due
  · exact .inl (Decidable.not_not.1 (h hx hlate))
  · exact .inr hlate

theorem begun_mem_withoutIsolated {m : Mod} {sealed_ : Tread} {x : ReadSt} (hx : x ∈ m.reads) (hbegun : x.begun = true) :
    x ∈ (m.withoutIsolated sealed_).reads := by
  simp [Mod.withoutIsolated, Mod.isolatedReads, hx, hbegun]

theorem blockIn_enterBlock (m : Mod) : (m.enterBlock 16).blockIn 16 = true :=
  (congrArg (tb · 16) (rov_setRo ..)).trans (tb_setBit_same ..)

/-- Settles O51: PFAIL, the charged hold-up bank, a housekeeping processor that hangs, and a block's way out of reset. -/
theorem supplyAndBlocks : Obligations.SupplyAndBlocks := by
  unfold Obligations.SupplyAndBlocks
  intro s
  refine ⟨fun hlife => ⟨fun us hlong hpfail => ?_, fun us n hpfail => ?_, ?_⟩, fun hsw hblock off => ?_,
    fun hlife bit hbit hblock => ?_⟩
  · exact exec_supplied_eq (·.pfailFall us) rfl hlife (if_neg (by simp [hpfail]; omega))
  · refine exec_supplied_eq (·.pfailRise us) rfl hlife ?_
    unfold Mod.pfailRise
    simp only [hpfail]
  · exact exec_supplied_eq (fun m => m.setRo 0x1400 0x2F (setBit (m.rov 0x1400 0x2F) 1 false)) rfl hlife rfl
  · obtain ⟨⟨_, _, _, _, _, heq⟩, hin⟩ := refuseIsolated_answers (s.m.enterBlock 16) (s.m.sealedTo off)
    refine ⟨_, exec_on_eq
      (fun m => if !m.switching ∨ m.blockIn 16 then m else (m.enterBlock 16).refuseIsolated (m.sealedTo off)) rfl
      (if_neg (by simp [hsw, hblock])), (congrArg (tb · 16) hin).trans (blockIn_enterBlock s.m),
      (congrArg Mod.objs heq).trans rfl, (congrArg Mod.tracks heq).trans rfl, (congrArg Mod.field heq).trans rfl,
      fun x => ?_, fun x hx hbegun => ?_⟩
    · rw [State.withMod_m, (congrArg Mod.staged heq :)]
      exact mem_staged_withoutIsolated
    · rw [State.withMod_m, (congrArg Mod.reads heq :)]
      exact begun_mem_withoutIsolated (sealed_ := s.m.sealedTo off) hx hbegun
  · exact exec_inService_eq (fun m => if bit < 18 ∧ m.blockIn bit then (m.leaveBlock bit).serveAsks else m) rfl hlife
      (if_pos ⟨hbit, hblock⟩)

end Sys2Proof.Machine
end

section
/-! PROOFS. The timebase and the time outputs (O52, O53). -/

namespace Sys2Proof.Machine

/-! ### The timebase (R345 to R353) -/

/-- A module whose timebase has worked: its servo and what reports it, the reference input, the offset and the path delay
as they were. -/
def Mod.TimeWork (m n : Mod) : Prop :=
  (∃ time ro gal chain2 chain4 out, n = { m with
    time := time, ro := ro, gal := gal, chain2 := chain2, chain4 := chain4, out := out }) ∧
  ∀ sub, 2 ≤ sub → sub ≤ 4 → n.rov 0x1300 sub = m.rov 0x1300 sub

namespace Mod.TimeWork
variable {m n k : Mod}

theorem refl (m : Mod) : m.TimeWork m := ⟨⟨_, _, _, _, _, _, rfl⟩, fun _ _ _ => rfl⟩

theorem trans (h : m.TimeWork n) (g : n.TimeWork k) : m.TimeWork k := by
  obtain ⟨⟨_, _, _, _, _, _, rfl⟩, hro⟩ := h
  obtain ⟨⟨t, ro, gal, c2, c4, out, rfl⟩, gro⟩ := g
  exact ⟨⟨t, ro, gal, c2, c4, out, rfl⟩, fun sub hlow hhigh => (gro sub hlow hhigh).trans (hro sub hlow hhigh)⟩

theorem setTime (m : Mod) (t : TimeSt) : m.TimeWork (m.setTime t) := ⟨⟨_, _, _, _, _, _, rfl⟩, fun _ _ _ => rfl⟩

theorem setRo (m : Mod) (v : Nat) {sub : Nat} (h : sub = 1 ∨ 5 ≤ sub ∧ sub < 256) : m.TimeWork (m.setRo 0x1300 sub v) :=
  ⟨⟨_, _, _, _, _, _, rfl⟩, fun _ _ _ => rov_setRo_ne _ _ _ _ _ _ (by simp only [okey]; omega)⟩

theorem logGal (m : Mod) (code source : Nat) (words : List Nat) : m.TimeWork (m.logGal code source words) := by
  obtain ⟨_, _, _, _, _, heq⟩ := logGal_reports m code source words
  exact ⟨⟨m.time, _, _, _, _, _, heq⟩, fun _ _ _ => rov_logGal _ _ _ _ _ _ (by simp only [okey]; omega)⟩

theorem holdFrequency (m : Mod) : m.TimeWork m.holdFrequency := setRo m _ (by omega)

theorem recordBehind (m : Mod) : m.TimeWork m.recordBehind := by
  unfold Mod.recordBehind
  exact iteInduction (fun _ => (setTime ..).trans (logGal ..)) (fun _ => refl m)

theorem stepTime (m : Mod) (ns : Nat) : m.TimeWork (m.stepTime ns) := by
  have hstart : m.TimeWork ((m.setTime { m.time with timeSet := true, stepTo := some (flightAfter ns) }).bump 0x1300 0x12) :=
    (setTime ..).trans (.setRo _ _ (by omega))
  unfold Mod.stepTime
  refine iteInduction (fun _ => hstart) (fun _ => iteInduction (fun _ => ?_) (fun _ => ?_))
  · exact ((hstart.trans (.setRo _ _ (by omega))).trans (.setRo _ _ (by omega))).trans (.holdFrequency _)
  · exact hstart.trans (.setRo _ _ (by omega))

theorem masterBehind (m : Mod) : m.TimeWork m.masterBehind :=
  (((setTime ..).trans (.setRo _ _ (by omega))).trans (.holdFrequency _)).trans (.recordBehind _)

theorem servo (m : Mod) (o : Int) : m.TimeWork (m.servo o) :=
  ((setTime ..).trans (.setRo _ _ (by omega))).trans (.setRo _ _ (by omega))

theorem holdover (m : Mod) : m.TimeWork m.holdover := by
  unfold Mod.holdover
  refine iteInduction (fun _ => setTime ..) (fun _ => ?_)
  exact (((setTime ..).trans (.setRo _ _ (by omega))).trans (.setRo _ _ (by omega))).trans (.holdFrequency _)

theorem selectMaster (m : Mod) : m.TimeWork m.selectMaster := by
  unfold Mod.selectMaster
  extract_lets t1 m1 best old new m2 t2 m3 t3 m4
  have h2 : m.TimeWork m2 := by
    refine (show m.TimeWork m1 from setTime ..).trans ?_
    unfold m2
    generalize best = a
    cases a with
    | some a => exact (setRo _ _ (by omega)).trans (.setRo _ _ (by omega))
    | none => exact refl m1
  have h3 : m.TimeWork m3 := h2.trans (.setTime ..)
  refine iteInduction (fun _ => h3) (fun _ => iteInduction (fun _ => ?_) (fun _ => h3.trans (.setTime ..)))
  exact ((h3.trans (.setTime ..)).trans (.holdover _)).trans (.setRo _ _ (by omega))

end Mod.TimeWork

/-! #### A Sync of the selected master (R346, R347) -/

/-- What a Sync with the offset `o` does once the offset is reported. -/
def Mod.followOffset (m : Mod) (o : Int) : Mod :=
  if !m.time.timeSet then (m.stepTime (Max.max (m.now : Int) ((m.now : Int) - o)).toNat).setRo 0x1300 1 2
  else if 1000000000 < o then m.masterBehind
  else if o < -1000000000 then m.setTime { m.time with valid := 0, near := 0, far := 0 }
  else if m.time.following ∨ m.time.valid + 1 ≥ 16 then m.servo o
  else m.setTime { m.time with valid := m.time.valid + 1 }

/-- The offset and the path delay reported. -/
def Mod.reportOffset (m : Mod) (o : Int) (d : Nat) : Mod :=
  (m.setRo 0x1300 3 (satTo .i32 (Dy.ofInt o))).setRo 0x1300 4 (Min.min d 0xFFFFFFFF)

theorem sync_taken {m : Mod} {i : SyncIn} (htakes : m.ptpTakes i.port i.domain i.udp = true) (hlow : -7 ≤ i.interval)
    (hhigh : i.interval ≤ 1) (hheard : m.time.heard = some i.master) :
    m.sync i = (m.reportOffset ((i.t2 : Int) - i.t1 - i.correction - m.pathDelay i) (m.pathDelay i)).followOffset
      ((i.t2 : Int) - i.t1 - i.correction - m.pathDelay i) :=
  if_neg (by simp [htakes, hheard]; omega)

theorem followOffset_work (m : Mod) (o : Int) : m.TimeWork (m.followOffset o) := by
  unfold Mod.followOffset
  refine iteInduction (fun _ => (Mod.TimeWork.stepTime ..).trans (.setRo _ _ (by omega))) (fun _ => ?_)
  refine iteInduction (fun _ => .masterBehind m) (fun _ => iteInduction (fun _ => .setTime ..) (fun _ => ?_))
  exact iteInduction (fun _ => .servo ..) (fun _ => .setTime ..)

theorem stepTime_time (m : Mod) (ns : Nat) :
    (m.stepTime ns).time = { m.time with timeSet := true, stepTo := some (flightAfter ns) } := by
  unfold Mod.stepTime
  dsimp only []
  split
  · rfl
  · split <;> rfl

theorem followOffset_first {m : Mod} {o : Int} (h : m.time.timeSet = false) :
    (m.followOffset o).time.timeSet = true ∧ (m.followOffset o).rov 0x1300 1 = 2 ∧
      (o < 0 → (m.followOffset o).time.stepTo = some (flightAfter (m.now + o.natAbs))) := by
  have htime := stepTime_time m (Max.max (m.now : Int) ((m.now : Int) - o)).toNat
  have heq : m.followOffset o = (m.stepTime (Max.max (m.now : Int) ((m.now : Int) - o)).toNat).setRo 0x1300 1 2 :=
    if_pos (by simp [h])
  rw [heq]
  refine ⟨congrArg TimeSt.timeSet htime, rov_setRo .., fun ho => (congrArg TimeSt.stepTo htime).trans ?_⟩
  have hns : (Max.max (m.now : Int) ((m.now : Int) - o)).toNat = m.now + o.natAbs := by omega
  rw [hns]

theorem masterBehind_state (m : Mod) : m.masterBehind.rov 0x1300 1 = 5 := by
  have hrecord : ∀ n : Mod, n.recordBehind.rov 0x1300 1 = n.rov 0x1300 1 := fun n => by
    unfold Mod.recordBehind
    exact iteInduction (motive := fun x : Mod => x.rov 0x1300 1 = n.rov 0x1300 1)
      (fun _ => rov_logGal _ _ _ _ _ _ (by decide)) (fun _ => rfl)
  exact (hrecord _).trans ((rov_setRo_ne _ _ _ _ _ _ (by decide)).trans (rov_setRo ..))

theorem followOffset_behind {m : Mod} {o : Int} (h : m.time.timeSet = true) (ho : 1000000000 < o) :
    (m.followOffset o).rov 0x1300 1 = 5 := by
  have heq : m.followOffset o = m.masterBehind := (if_neg (by simp [h])).trans (if_pos ho)
  rw [heq]
  exact masterBehind_state m

/-! #### The selected master and the reference input (R348, R351 to R353) -/

theorem holdover_state {m : Mod} (h : m.rov 0x1300 1 ≠ 0) : m.holdover.rov 0x1300 1 = 4 := by
  unfold Mod.holdover
  dsimp only []
  split
  · next hs => exact hs.resolve_left h
  · exact (rov_setRo_ne _ _ _ _ _ _ (by decide)).trans ((rov_bumpBy_ne _ _ _ _ _ _ (by decide)).trans (rov_setRo ..))

theorem holdover_masters (m : Mod) : m.holdover.time.master = m.time.master ∧ m.holdover.time.masters = m.time.masters := by
  unfold Mod.holdover
  dsimp only []
  split <;> exact ⟨rfl, rfl⟩

theorem selectMaster_none {m : Mod} {id : Nat} (hmaster : m.time.master = some id)
    (hnone : (m.time.masters.filter fun x => decide (m.tread < x.2 + announceSpan x.1)) = []) :
    m.selectMaster = (m.setTime { m.time with
      masters := [], heard := none, master := none, valid := 0, following := false }).holdover.bump 0x1300 0x13 := by
  unfold Mod.selectMaster
  rw [hnone]
  simp [bestMaster, Mod.setTime, hmaster]

theorem masterLost_expired {m : Mod} {id : Nat} (hmaster : m.time.master = some id) (hfree : m.rov 0x1300 1 ≠ 0)
    (hexpired : ∀ x ∈ m.time.masters, x.2 + announceSpan x.1 ≤ m.tread) :
    m.masterLost.time.master = none ∧ m.masterLost.time.masters = [] ∧ m.masterLost.rov 0x1300 1 = 4 := by
  have heq : m.masterLost = m.selectMaster := if_pos (by simp [hmaster])
  rw [heq, selectMaster_none hmaster (List.filter_eq_nil_iff.2 fun x hx => by simpa using hexpired x hx)]
  generalize hn : m.setTime { m.time with
    masters := [], heard := none, master := none, valid := 0, following := false } = n
  obtain ⟨hkmaster, hkmasters⟩ := holdover_masters n
  have hnfree : n.rov 0x1300 1 ≠ 0 := hn ▸ hfree
  exact ⟨hkmaster.trans (hn ▸ rfl), hkmasters.trans (hn ▸ rfl),
    (rov_bumpBy_ne _ _ _ _ _ _ (by decide)).trans (holdover_state hnfree)⟩

theorem refLoss_lost {m : Mod} (hlost : m.time.refLost = false) (hmode : m.time.clkmode = 1 ∨ m.time.clkmode = 3) :
    m.refLoss.time.refLost = true ∧ m.refLoss.rov 0x1300 2 = 1 ∧ m.refLoss.objs = m.objs ∧
      (m.time.clkmode = 1 → m.rov 0x1300 1 ≠ 0 → m.refLoss.rov 0x1300 1 = 4) := by
  have heq : m.refLoss = if m.time.clkmode = 1 then ((m.setTime { m.time with refLost := true }).setRo 0x1300 2 1).holdover
      else (m.setTime { m.time with refLost := true }).setRo 0x1300 2 1 := if_neg (by simp [hlost]; omega)
  have hkeep : ∀ n : Mod, n.holdover.time.refLost = n.time.refLost := fun n => by
    unfold Mod.holdover
    dsimp only []
    split <;> rfl
  generalize hn : (m.setTime { m.time with refLost := true }).setRo 0x1300 2 1 = n at heq
  have hnlost : n.time.refLost = true := hn ▸ rfl
  have hntwo : n.rov 0x1300 2 = 1 := hn ▸ rov_setRo ..
  have hnobjs : n.objs = m.objs := hn ▸ rfl
  have hnone : n.rov 0x1300 1 = m.rov 0x1300 1 := hn ▸ rov_setRo_ne _ _ _ _ _ _ (by decide)
  rw [heq]
  split
  · obtain ⟨⟨_, _, _, _, _, _, hframe⟩, hro⟩ := Mod.TimeWork.holdover n
    exact ⟨(hkeep n).trans hnlost, (hro 2 (by omega) (by omega)).trans hntwo, ((congrArg Mod.objs hframe).trans rfl).trans hnobjs,
      fun _ hfree => holdover_state (hnone ▸ hfree)⟩
  · next hmode => exact ⟨hnlost, hntwo, hnobjs, fun h => absurd h hmode⟩

theorem refReturn_back {m : Mod} (hlost : m.time.refLost = true) :
    m.refReturn.time.refLost = false ∧ m.refReturn.rov 0x1300 2 = 0 ∧ m.refReturn.objs = m.objs ∧
      (m.time.clkmode = 1 → m.rov 0x1300 1 = 4 → m.refReturn.rov 0x1300 1 = 1) := by
  have heq : m.refReturn = if m.time.clkmode = 1 ∧ ((m.setTime { m.time with refLost := false }).setRo 0x1300 2 0).rov 0x1300 1 = 4
      then ((m.setTime { m.time with refLost := false }).setRo 0x1300 2 0).setRo 0x1300 1 1
      else (m.setTime { m.time with refLost := false }).setRo 0x1300 2 0 := if_neg (by simp [hlost])
  have hstate : ((m.setTime { m.time with refLost := false }).setRo 0x1300 2 0).rov 0x1300 1 = m.rov 0x1300 1 :=
    rov_setRo_ne _ _ _ _ _ _ (by decide)
  rw [heq, hstate]
  split
  · exact ⟨rfl, (rov_setRo_ne _ _ _ _ _ _ (by decide)).trans (rov_setRo ..), rfl, fun _ _ => rov_setRo ..⟩
  · next h => exact ⟨rfl, rov_setRo .., rfl, fun hmode hfour => absurd ⟨hmode, hfour⟩ h⟩

theorem followUpTimeout_due {m : Mod} {id : Nat} {e : PtpWait}
    (h : (m.switch.ptp.find? fun e => decide (e.id = id ∧ e.at_ + 100000 ≤ m.tread)) = some e) :
    m.followUpTimeout id = (m.setSwitch { m.switch with ptp := m.switch.ptp.erase e }).bump 0x1300 0x15 := by
  unfold Mod.followUpTimeout
  simp only [h]

/-- Settles O52: a Sync, an ANNOUNCE, a lost master, a Follow_Up that does not come, and the reference input. -/
theorem timebaseEvents : Obligations.TimebaseEvents := by
  unfold Obligations.TimebaseEvents
  intro s
  refine ⟨fun hlife => ⟨fun i htakes hlow hhigh hheard => ?_, fun i htakes hlow hhigh => ?_,
    fun id hmaster hfree hnot hexpired => ?_, fun id e he => ?_⟩, fun hlife => ⟨fun hlost hmode => ?_, fun hlost => ?_⟩⟩
  · intro d o
    have hwork := followOffset_work (s.m.reportOffset o d) o
    obtain ⟨⟨_, _, _, _, _, _, hframe⟩, hro⟩ := hwork
    refine ⟨_, exec_inService_eq (·.sync i) rfl hlife (sync_taken htakes hlow hhigh hheard),
      (hro 3 (by omega) (by omega)).trans ?_, (hro 4 (by omega) (by omega)).trans (rov_setRo ..),
      (congrArg Mod.tread hframe).trans rfl, (congrArg Mod.objs hframe).trans rfl, fun h => followOffset_first h,
      fun h ho => followOffset_behind h ho⟩
    exact (rov_setRo_ne _ _ _ _ _ _ (by decide)).trans (rov_setRo ..)
  · exact exec_inService_eq (·.announce i) rfl hlife (if_neg (by simp [htakes]; omega))
  · obtain ⟨hnone, hempty, hstate⟩ := masterLost_expired hmaster hfree hexpired
    have hwork : s.m.TimeWork s.m.masterLost := iteInduction (fun _ => .selectMaster s.m) (fun _ => .refl s.m)
    obtain ⟨⟨_, _, _, _, _, _, hframe⟩, -⟩ := hwork
    exact ⟨_, exec_inService_eq (·.masterLost) rfl hlife rfl, hnone, hempty, hstate,
      (congrArg Mod.tread hframe).trans rfl, (congrArg Mod.objs hframe).trans rfl⟩
  · exact exec_inService_eq (·.followUpTimeout id) rfl hlife (followUpTimeout_due he)
  · obtain ⟨hnow, htwo, hobjs, hstate⟩ := refLoss_lost hlost hmode
    exact ⟨_, exec_supplied_eq (·.refLoss) rfl hlife rfl, hnow, htwo, hstate, hobjs⟩
  · obtain ⟨hnow, htwo, hobjs, hstate⟩ := refReturn_back hlost
    exact ⟨_, exec_supplied_eq (·.refReturn) rfl hlife rfl, hnow, htwo, hstate, hobjs⟩

/-! ### Time outputs (R354, R355) -/

/-- An edge of an output writes its level and the packet that reports it. -/
theorem edge_reports (m : Mod) (t : Tread) (sig : Sig) (level : Bool) :
    ({ m with levels := setBit m.levels (sig - 0x940) level } : Mod).Reports (m.edge t sig level) := chainPut_reports ..

theorem rov_edge (m : Mod) (t : Tread) (sig : Sig) (level : Bool) {idx sub : Nat}
    (h : okey 0 0x3860 1 ≠ okey 0 idx sub) : (m.edge t sig level).rov idx sub = m.rov idx sub := by
  unfold Mod.edge Mod.chainPut
  dsimp only []
  rw [if_pos rfl]
  split
  · exact rov_bumpBy_ne _ _ _ _ _ _ h
  · rfl

theorem tpo_setTpo (m : Mod) (k : Nat) (s : TpoSt) : (m.setTpo k s).tpo k = s := lookD_put ..

/-- The module as a pulse of a time output that begins at `n` leaves it, before the edge is told (R354, R355). -/
def Mod.pulseBegun (m : Mod) (k n : Nat) : Mod :=
  let s := m.tpoFrom k (m.tpo k) m.now
  let m := m.setTpo k { s with next := if s.single then none else some (n + Max.max 1 (m.cfg (0x1340 + k) 3)),
                               ends := some (n + m.cfg (0x1340 + k) 4) }
  let m := ((m.bump (0x1340 + k) 8).setRo (0x1340 + k) 0xA n).setRo (0x1340 + k) 7 2
  { m with tpoNow := setBit m.tpoNow k true }

theorem tpoPulse_due {m : Mod} {k n : Nat} (hnext : (m.tpoFrom k (m.tpo k) m.now).next = some n) (hnow : m.now ≤ n)
    (hn : n < (m.tread + 1) * 10000) :
    m.tpoPulse k = (m.pulseBegun k n).edge (n / 10000) (0xAF0 + k) true := by
  unfold Mod.tpoPulse
  simp only [hnext]
  exact if_neg (not_or.2 ⟨Nat.not_lt.2 hnow, Nat.not_le.2 hn⟩)

theorem pulseBegun_tpo (m : Mod) (k n : Nat) : (m.pulseBegun k n).tpo k = { m.tpo k with
    next := if (m.tpo k).single then none else some (n + Max.max 1 (m.cfg (0x1340 + k) 3)),
    ends := some (n + m.cfg (0x1340 + k) 4) } := tpo_setTpo ..

theorem pulseBegun_reported (m : Mod) (k n : Nat) :
    (m.pulseBegun k n).rov (0x1340 + k) 8 = (m.rov (0x1340 + k) 8 + 1) % 2 ^ counterBits (0x1340 + k) 8 ∧
      (m.pulseBegun k n).rov (0x1340 + k) 0xA = n ∧ (m.pulseBegun k n).rov (0x1340 + k) 7 = 2 := by
  have hkey : ∀ a b, a < 256 → b < 256 → a ≠ b → okey 0 (0x1340 + k) a ≠ okey 0 (0x1340 + k) b := by
    simp only [okey]
    omega
  unfold Mod.pulseBegun
  extract_lets s x y
  have hcount : y.rov (0x1340 + k) 8 = (x.rov (0x1340 + k) 8 + 1) % 2 ^ counterBits (0x1340 + k) 8 :=
    (rov_setRo_ne _ _ _ _ _ _ (hkey 7 8 (by omega) (by omega) (by omega))).trans
      ((rov_setRo_ne _ _ _ _ _ _ (hkey 0xA 8 (by omega) (by omega) (by omega))).trans (rov_bumpBy ..))
  have hat : y.rov (0x1340 + k) 0xA = n :=
    (rov_setRo_ne _ _ _ _ _ _ (hkey 7 0xA (by omega) (by omega) (by omega))).trans (rov_setRo ..)
  have hstate : y.rov (0x1340 + k) 7 = 2 := rov_setRo ..
  have hx : x.rov (0x1340 + k) 8 = m.rov (0x1340 + k) 8 := rov_congr (by rfl) _ _
  rw [hx] at hcount
  have hreported : ∀ z : Mod, z.ro = y.ro → z.rov (0x1340 + k) 8 =
      (m.rov (0x1340 + k) 8 + 1) % 2 ^ counterBits (0x1340 + k) 8 ∧ z.rov (0x1340 + k) 0xA = n ∧
      z.rov (0x1340 + k) 7 = 2 := fun z hz =>
    ⟨(rov_congr hz ..).trans hcount, (rov_congr hz ..).trans hat, (rov_congr hz ..).trans hstate⟩
  exact hreported _ rfl

/-- The module as the pulse that ends leaves it, before the edge is told (R355). -/
def Mod.pulseEnded (m : Mod) (k : Nat) : Mod :=
  let s := m.tpo k
  let m := m.setTpo k { s with ends := none }
  let m := if s.next.isNone then m.setRo (0x1340 + k) 7 0 else m
  { m with tpoNow := setBit m.tpoNow k false }

theorem tpoEnd_due {m : Mod} {k n : Nat} (hends : (m.tpo k).ends = some n) (hn : n < (m.tread + 1) * 10000) :
    m.tpoEnd k = (m.pulseEnded k).edge (n / 10000) (0xAF0 + k) false := by
  unfold Mod.tpoEnd
  simp only [hends]
  exact if_neg (Nat.not_le.2 hn)

theorem pulseEnded_spec (m : Mod) (k : Nat) :
    (m.pulseEnded k).tpo k = { m.tpo k with ends := none } ∧
      ((m.tpo k).next = none → (m.pulseEnded k).rov (0x1340 + k) 7 = 0) ∧
      (m.pulseEnded k).tpoNow = setBit m.tpoNow k false ∧ (m.pulseEnded k).objs = m.objs := by
  have hself := tpo_setTpo m k { m.tpo k with ends := none }
  unfold Mod.pulseEnded
  extract_lets s x y
  have hy : y.tpos = x.tpos ∧ y.tpoNow = x.tpoNow ∧ y.objs = x.objs ∧ (s.next = none → y.rov (0x1340 + k) 7 = 0) := by
    unfold y
    cases hnext : s.next with
    | none => exact ⟨rfl, rfl, rfl, fun _ => rov_setRo ..⟩
    | some n => exact ⟨rfl, rfl, rfl, fun h => absurd h (by simp)⟩
  obtain ⟨htpos, hnow, hobjs, hstate⟩ := hy
  exact ⟨(congrArg (fun l : SMap TpoSt => lookD l k {}) htpos).trans hself, hstate,
    congrArg (setBit · k false) hnow, hobjs⟩

/-- Settles O53: a pulse of a time output, and its end. -/
theorem timeOutputsPulse : Obligations.TimeOutputsPulse := by
  unfold Obligations.TimeOutputsPulse
  intro s k n hlife hn
  have hkey : ∀ sub, 2 ≤ sub → sub < 256 → okey 0 0x3860 1 ≠ okey 0 (0x1340 + k) sub := by
    simp only [okey]
    omega
  refine ⟨fun hnext hnow => ?_, fun hends => ?_⟩
  · obtain ⟨_, _, _, _, _, heq⟩ := edge_reports (s.m.pulseBegun k n) (n / 10000) (0xAF0 + k) true
    obtain ⟨hcount, hat, hstate⟩ := pulseBegun_reported s.m k n
    have hrov : ∀ sub, 2 ≤ sub → sub < 256 → ((s.m.pulseBegun k n).edge (n / 10000) (0xAF0 + k) true).rov (0x1340 + k) sub =
        (s.m.pulseBegun k n).rov (0x1340 + k) sub := fun sub hlow hhigh => rov_edge _ _ _ _ (hkey sub hlow hhigh)
    exact ⟨_, exec_inService_eq (·.tpoPulse k) rfl hlife (tpoPulse_due hnext hnow hn),
      (congrArg (Mod.tpo · k) heq).trans (pulseBegun_tpo s.m k n), (hrov 8 (by omega) (by omega)).trans hcount,
      (hrov 0xA (by omega) (by omega)).trans hat, (hrov 7 (by omega) (by omega)).trans hstate,
      (congrArg Mod.tpoNow heq).trans rfl, (congrArg Mod.objs heq).trans rfl⟩
  · obtain ⟨_, _, _, _, _, heq⟩ := edge_reports (s.m.pulseEnded k) (n / 10000) (0xAF0 + k) false
    obtain ⟨htpo, hstate, hlevel, hobjs⟩ := pulseEnded_spec s.m k
    exact ⟨_, exec_inService_eq (·.tpoEnd k) rfl hlife (tpoEnd_due hends hn), (congrArg (Mod.tpo · k) heq).trans htpo,
      fun h => (rov_edge _ _ _ _ (hkey 7 (by omega) (by omega))).trans (hstate h), (congrArg Mod.tpoNow heq).trans hlevel,
      (congrArg Mod.objs heq).trans hobjs⟩

end Sys2Proof.Machine
end

section
/-! PROOFS. What a CAN port hears and sends (O54, O55). -/

namespace Sys2Proof.Machine

/-! ### Ports and message objects -/

theorem Mod.Reports.canPort {m n : Mod} (h : m.Reports n) (p : Nat) : n.canPort p = m.canPort p := by
  obtain ⟨_, _, _, _, _, rfl⟩ := h
  rfl

theorem Mod.Reports.canObjs {m n : Mod} (h : m.Reports n) : n.canObjs = m.canObjs := by
  obtain ⟨_, _, _, _, _, rfl⟩ := h
  rfl

theorem Mod.Reports.canObj {m n : Mod} (h : m.Reports n) (k : Nat) : n.canObj k = m.canObj k :=
  congrArg (fun l : SMap CanObjSt => lookD l k {}) h.canObjs

theorem canPort_setCanPort (m : Mod) (p : Nat) (s : CanPortSt) : (m.setCanPort p s).canPort p = s := lookD_put ..

theorem canObj_setCanObj (m : Mod) (k : Nat) (s : CanObjSt) : (m.setCanObj k s).canObj k = s := lookD_put ..

theorem putMo_reports (m : Mod) (k : Nat) (s : CanObjSt) : (m.setCanObj k s).Reports (m.putMo k s) := setRo_reports ..

theorem canObj_putMo (m : Mod) (k : Nat) (s : CanObjSt) : (m.putMo k s).canObj k = s :=
  ((putMo_reports m k s).canObj k).trans (canObj_setCanObj ..)

theorem canPort_putMo (m : Mod) (k : Nat) (s : CanObjSt) (p : Nat) : (m.putMo k s).canPort p = m.canPort p :=
  (putMo_reports m k s).canPort p

theorem objs_putMo (m : Mod) (k : Nat) (s : CanObjSt) : (m.putMo k s).objs = m.objs := (putMo_reports m k s).objs

/-- The status word and the counters of a message object are no port's objects. -/
theorem moKey_ne_port (k a p sub : Nat) : okey 0 (moKey k a).1 (moKey k a).2 ≠ okey 0 (0x3780 + p) sub := by
  simp only [okey, moKey]
  omega

theorem portState_putMo (m : Mod) (k : Nat) (s : CanObjSt) (p : Nat) : (m.putMo k s).portState p = m.portState p :=
  rov_setRo_ne _ _ _ _ _ _ (moKey_ne_port _ _ _ _)

theorem portState_canBump (m : Mod) (k sub p : Nat) : (m.canBump k sub).portState p = m.portState p :=
  rov_bumpBy_ne _ _ _ _ _ _ (moKey_ne_port _ _ _ _)

theorem setErrors_reports (m : Mod) (p tec rec_ : Nat) :
    (m.setCanPort p { m.canPort p with tec := tec, rec_ := rec_ }).Reports (m.setErrors p tec rec_) := by
  unfold Mod.setErrors
  extract_lets s m1 m2
  have h : m1.Reports m2 := (setRo_reports ..).trans (setRo_reports ..)
  exact iteInduction (fun _ => h.trans (setRo_reports ..)) (fun _ => h)

theorem canPort_setErrors (m : Mod) (p tec rec_ : Nat) :
    (m.setErrors p tec rec_).canPort p = { m.canPort p with tec := tec, rec_ := rec_ } :=
  ((setErrors_reports m p tec rec_).canPort p).trans (canPort_setCanPort ..)

theorem portState_setErrors (m : Mod) (p tec rec_ : Nat) (h : m.portState p ≠ 0) : (m.setErrors p tec rec_).portState p ≠ 0 := by
  unfold Mod.setErrors
  extract_lets s m1 m2
  have hstate : m2.portState p = m.portState p :=
    (rov_setRo_ne _ _ _ _ _ _ (by simp only [okey]; omega)).trans
      (rov_setRo_ne _ _ _ _ _ _ (by simp only [okey]; omega))
  split
  · exact fun hzero => absurd ((rov_setRo ..).symm.trans hzero) (by split <;> omega)
  · rwa [hstate]

/-! ### What a port hears (R357, R361 to R363, R368, R370, R371) -/

/-- The module that hears a valid frame on a port: the frame in which the port was disabled has ended, the errors go down. -/
def Mod.heard (m : Mod) (p : Nat) : Mod :=
  (m.offEnds p).setErrors p ((m.offEnds p).canPort p).tec (goodRec ((m.offEnds p).canPort p).rec_)

/-- A module whose ports have worked: the ports and what reports them. -/
def Mod.KeepsObjects (m n : Mod) : Prop :=
  ∃ ro gal chain2 chain4 out ports, n = { m with
    ro := ro, gal := gal, chain2 := chain2, chain4 := chain4, out := out, canPorts := ports }

namespace Mod.KeepsObjects
variable {m n k : Mod}

theorem refl (m : Mod) : m.KeepsObjects m := ⟨_, _, _, _, _, _, rfl⟩

theorem trans (h : m.KeepsObjects n) (g : n.KeepsObjects k) : m.KeepsObjects k := by
  obtain ⟨_, _, _, _, _, _, rfl⟩ := h
  obtain ⟨ro, gal, c2, c4, out, ports, rfl⟩ := g
  exact ⟨ro, gal, c2, c4, out, ports, rfl⟩

theorem setCanPort (m : Mod) (p : Nat) (s : CanPortSt) : m.KeepsObjects (m.setCanPort p s) := ⟨_, _, _, _, _, _, rfl⟩

theorem reports (h : m.Reports n) : m.KeepsObjects n := by
  obtain ⟨_, _, _, _, _, rfl⟩ := h
  exact ⟨_, _, _, _, _, _, rfl⟩

theorem setErrors (m : Mod) (p tec rec_ : Nat) : m.KeepsObjects (m.setErrors p tec rec_) :=
  (setCanPort ..).trans (reports (setErrors_reports ..))

theorem attemptEnds (m : Mod) (p : Nat) : m.KeepsObjects (m.attemptEnds p) := setCanPort ..

theorem objs (h : m.KeepsObjects n) : n.objs = m.objs := by
  obtain ⟨_, _, _, _, _, _, rfl⟩ := h
  rfl

theorem canObjs (h : m.KeepsObjects n) : n.canObjs = m.canObjs := by
  obtain ⟨_, _, _, _, _, _, rfl⟩ := h
  rfl

theorem canObj (h : m.KeepsObjects n) (k : Nat) : n.canObj k = m.canObj k :=
  congrArg (fun l : SMap CanObjSt => lookD l k {}) h.canObjs

end Mod.KeepsObjects

theorem heard_keeps (m : Mod) (p : Nat) : m.KeepsObjects (m.heard p) := by
  refine Mod.KeepsObjects.trans ?_ (.setErrors ..)
  exact iteInduction (fun _ => .setCanPort ..) (fun _ => .refl m)

theorem portState_offEnds (m : Mod) (p : Nat) : (m.offEnds p).portState p = m.portState p := by
  unfold Mod.offEnds
  split <;> rfl

theorem portState_heard {m : Mod} {p : Nat} (h : m.portState p ≠ 0) : (m.heard p).portState p ≠ 0 :=
  portState_setErrors _ _ _ _ fun hzero => h ((portState_offEnds m p).symm.trans hzero)

theorem arriving_heard (m : Mod) (p : Nat) : ((m.heard p).canPort p).arriving = (m.canPort p).arriving := by
  refine (congrArg CanPortSt.arriving (canPort_setErrors ..)).trans ?_
  show ((m.offEnds p).canPort p).arriving = _
  unfold Mod.offEnds
  split
  · exact (congrArg CanPortSt.arriving (canPort_setCanPort ..)).trans rfl
  · rfl

/-- The entry of a frame that waits to enter its port's queue (R371). -/
def arrivingEntry (k : Nat) (f : CanFrame) : CanRx :=
  { seq := 0, id := f.id + 2 ^ 29 * b2n f.ext + 2 ^ 30 * b2n f.fd + 2 ^ 31 * b2n f.brs, mo := k % 128,
    len := f.data.length, dropped := 0, tread := 0, data := ofLe (f.data.take 64) }

/-- What a matching frame does to the module that heard it (R362, R371). -/
def Mod.keptFrame (m : Mod) (p k : Nat) (f : CanFrame) : Mod :=
  let m := m.canBump k 0xE
  if m.canCfg k 1 = 2 then
    (if (m.canObj k).rx.isSome then m.canBump k 0xF else m).putMo k
      { m.canObj k with rx := some (ofLe (f.data.take 64), f.data.length) }
  else if m.portState p = 0 then m
  else m.setCanPort p { m.canPort p with arriving := (m.canPort p).arriving ++ [arrivingEntry k f] }

theorem canReceive_matched {m : Mod} {p k : Nat} {f : CanFrame} (hhears : m.hears p f.began = true)
    (hremote : f.remote = false) (hrequest : m.isRequest p f = false)
    (hmatch : ((m.mos p).find? fun k => m.moMatches k f) = some k) :
    m.canReceive p f = (m.heard p).keptFrame p k f := by
  obtain ⟨_, _, _, _, _, _, hframe⟩ := heard_keeps m p
  have hrequest' : (m.heard p).isRequest p f = false := ((congrArg (Mod.isRequest · p f) hframe).trans rfl).trans hrequest
  have hmatch' : (((m.heard p).mos p).find? fun k => (m.heard p).moMatches k f) = some k :=
    ((congrArg (fun n : Mod => (n.mos p).find? fun k => n.moMatches k f) hframe).trans rfl).trans hmatch
  unfold Mod.canReceive
  rw [if_neg (by simp [hhears, hremote])]
  show (if (m.heard p).isRequest p f then _ else match ((m.heard p).mos p).find? fun k => (m.heard p).moMatches k f with
    | none => _ | some k => _) = _
  rw [if_neg (by simp [hrequest']), hmatch']
  rfl

theorem keptFrame_buffer {m : Mod} {p k : Nat} {f : CanFrame} (h : m.canCfg k 1 = 2) :
    ((m.keptFrame p k f).canObj k).rx = some (ofLe (f.data.take 64), f.data.length) ∧
      (m.keptFrame p k f).objs = m.objs := by
  unfold Mod.keptFrame
  extract_lets n
  have hn : n.objs = m.objs := (bump_reports ..).objs
  rw [if_pos (show n.canCfg k 1 = 2 by simpa only [Mod.canCfg, Mod.cfg, hn] using h)]
  refine ⟨congrArg CanObjSt.rx (canObj_putMo ..), (objs_putMo ..).trans ?_⟩
  split
  · exact ((bump_reports ..).objs).trans hn
  · exact hn

theorem keptFrame_queue {m : Mod} {p k : Nat} {f : CanFrame} (h : m.canCfg k 1 = 3) (hp : m.portState p ≠ 0) :
    ((m.keptFrame p k f).canPort p).arriving = (m.canPort p).arriving ++ [arrivingEntry k f] ∧
      (m.keptFrame p k f).objs = m.objs := by
  unfold Mod.keptFrame
  extract_lets n
  have hrep : m.Reports n := bump_reports ..
  have hcfg : n.canCfg k 1 = 3 := by simpa only [Mod.canCfg, Mod.cfg, hrep.objs] using h
  have hstate : n.portState p ≠ 0 := fun hzero => hp ((portState_canBump m k 0xE p).symm.trans hzero)
  rw [if_neg (by omega), if_neg hstate]
  exact ⟨(congrArg CanPortSt.arriving (canPort_setCanPort ..)).trans
    (congrArg (fun s : CanPortSt => s.arriving ++ [arrivingEntry k f]) (hrep.canPort p)), hrep.objs⟩

theorem arrivingEntry_id (k : Nat) (f : CanFrame) : (arrivingEntry k f).id % 2 ^ 29 = f.id % 2 ^ 29 := by
  show (f.id + 2 ^ 29 * b2n f.ext + 2 ^ 30 * b2n f.fd + 2 ^ 31 * b2n f.brs) % 2 ^ 29 = f.id % 2 ^ 29
  omega

theorem recovered_recovering {m : Mod} {p n : Nat} (hp : p < 2)
    (hstate : m.portState p = 5 ∨ m.portState p = 4 ∧ m.cfg (0x3780 + p) 5 = 1) (hn : 128 ≤ n) :
    (m.recovered p n).portState p = 2 ∧ ((m.recovered p n).canPort p).tec = 0 ∧ ((m.recovered p n).canPort p).rec_ = 0 ∧
      (∀ r ∈ ((m.recovered p n).canPort p).resp, r.held = false) ∧ (m.recovered p n).objs = m.objs := by
  have hrec : m.recovering p = true := by simpa [Mod.recovering, hp] using hstate
  unfold Mod.recovered
  rw [if_neg (by simp [hrec]; omega)]
  extract_lets m1 m2 m3
  have htwo : m2.portState p = 2 := rov_setRo ..
  have herrors : m2.canPort p = { m.canPort p with tec := 0, rec_ := 0 } :=
    ((setRo_reports ..).canPort p).trans (canPort_setErrors m p 0 0)
  have hobjs : m2.objs = m.objs := (Mod.KeepsObjects.setErrors m p 0 0).objs
  obtain ⟨hstate, hport, hlobjs⟩ := overAll_keeps
    (R := fun a b : Mod => b.portState p = a.portState p ∧ b.canPort p = a.canPort p ∧ b.objs = a.objs)
    (fun _ => ⟨rfl, rfl, rfl⟩) (fun h g => ⟨g.1.trans h.1, g.2.1.trans h.2.1, g.2.2.trans h.2.2⟩)
    ((m2.mos p).filter fun k => (m2.canObj k).held) (f := fun n k => n.putMo k { n.canObj k with held := false })
    (fun n k => ⟨portState_putMo .., canPort_putMo .., objs_putMo ..⟩) m2
  have hself := canPort_setCanPort m3 p { m3.canPort p with resp := (m3.canPort p).resp.map fun r => { r with held := false } }
  refine ⟨hstate.trans htwo, (congrArg CanPortSt.tec hself).trans (congrArg CanPortSt.tec (hport.trans herrors)),
    (congrArg CanPortSt.rec_ hself).trans (congrArg CanPortSt.rec_ (hport.trans herrors)), fun r hr => ?_, hlobjs.trans hobjs⟩
  rw [(congrArg CanPortSt.resp hself :)] at hr
  obtain ⟨x, -, rfl⟩ := List.mem_map.1 hr
  rfl

/-- Settles O54: a frame that a buffer or a queue takes, a receive error, a buffer that goes stale, a port that has
integrated or recovered. -/
theorem canHears : Obligations.CanHears := by
  unfold Obligations.CanHears
  intro s p hlife
  have hexec : ∀ {f k}, s.m.hears p f.began = true → f.remote = false → s.m.isRequest p f = false →
      ((s.m.mos p).find? fun k => s.m.moMatches k f) = some k →
      exec (.canFrameReceived p f) s = .next (s.withMod ((s.m.heard p).keptFrame p k f)) :=
    fun {f k} hhears hremote hrequest hmatch =>
      exec_inService_eq (·.canReceive p f) rfl hlife (canReceive_matched hhears hremote hrequest hmatch)
  refine ⟨⟨fun f k hhears hremote hrequest hmatch => ⟨fun hmode => ?_, fun hmode hstate => ?_⟩, fun hhears dominant => ?_⟩,
    fun k hp hk hmode htime hfresh hdue => ?_, fun hp hstate => ?_, fun n hp hstate hn => ?_⟩
  · have hcfg : (s.m.heard p).canCfg k 1 = 2 :=
      (congrArg (stGet · (okey 0 (0x3700 + k % 128) (1 + 16 * (k / 128)))) (heard_keeps s.m p).objs).trans hmode
    obtain ⟨hrx, hobjs⟩ := keptFrame_buffer (p := p) (f := f) hcfg
    refine ⟨_, hexec hhears hremote hrequest hmatch, ?_⟩
    rw [State.withMod_m]
    exact ⟨hrx, hobjs.trans (heard_keeps s.m p).objs⟩
  · have hcfg : (s.m.heard p).canCfg k 1 = 3 :=
      (congrArg (stGet · (okey 0 (0x3700 + k % 128) (1 + 16 * (k / 128)))) (heard_keeps s.m p).objs).trans hmode
    obtain ⟨hqueue, hobjs⟩ := keptFrame_queue (f := f) hcfg (portState_heard hstate)
    refine ⟨_, arrivingEntry k f, hexec hhears hremote hrequest hmatch, ?_⟩
    rw [State.withMod_m]
    exact ⟨hqueue.trans (congrArg (· ++ [arrivingEntry k f]) (arriving_heard s.m p)), rfl, rfl, rfl, arrivingEntry_id k f,
      hobjs.trans (heard_keeps s.m p).objs⟩
  · exact exec_inService_eq (·.receiveError p dominant) rfl hlife (if_neg (by simp [hhears]))
  · exact exec_inService_eq (fun m => if p < 2 ∧ k < 128 then m.goStale (k + 128 * p) else m) rfl hlife
      ((if_pos ⟨hp, hk⟩).trans (if_pos ⟨hmode, htime, by simp [hfresh], hdue⟩))
  · exact exec_inService_eq (·.integrated p) rfl hlife (if_pos ⟨hp, hstate⟩)
  · obtain ⟨h2, htec, hrec, hresp, hobjs⟩ := recovered_recovering hp hstate hn
    exact ⟨_, exec_inService_eq (·.recovered p n) rfl hlife rfl, h2, htec, hrec, hresp, hobjs⟩

/-! ### What a port sends (R357, R364 to R369, R374) -/

theorem attempt_mo {m : Mod} {p k : Nat} (h : m.offer p = .mo k) : m.attempt p 0 = (.mo k, m.moFrame k, true) := by
  unfold Mod.attempt Mod.offerNow
  simp only [h]
  rfl

theorem attempt_resp {m : Mod} {p : Nat} {r : CanResp} {l : List CanResp} (h : m.offer p = .resp)
    (hresp : (m.canPort p).resp = r :: l) : m.attempt p 0 = (.resp, m.respFrame p r, true) := by
  unfold Mod.attempt Mod.offerNow
  simp only [h, hresp]
  rfl

/-- The port after an attempt that ended: nothing it offered in it stays, and its transmit errors are counted (R357). -/
def Mod.afterAttempt (m : Mod) (p tec : Nat) : Mod :=
  (m.attemptEnds p).setErrors p tec ((m.attemptEnds p).canPort p).rec_

theorem afterAttempt_keeps (m : Mod) (p tec : Nat) : m.KeepsObjects (m.afterAttempt p tec) :=
  (Mod.KeepsObjects.attemptEnds m p).trans (.setErrors ..)

theorem canPort_afterAttempt (m : Mod) (p tec : Nat) :
    (m.afterAttempt p tec).canPort p = { m.canPort p with offers := [], offAt := none, tec := tec } := by
  have hends : (m.attemptEnds p).canPort p = { m.canPort p with offers := [], offAt := none } := canPort_setCanPort ..
  refine (canPort_setErrors ..).trans ?_
  rw [hends]

/-- The module that has counted a frame as sent on a port (R364, R367). -/
def Mod.frameSent (m : Mod) (p : Nat) (f : CanFrame) : Mod :=
  (m.afterAttempt p ((m.canPort p).tec - 1)).setCanPort p
    { (m.afterAttempt p ((m.canPort p).tec - 1)).canPort p with frame := some f }

theorem frameSent_keeps (m : Mod) (p : Nat) (f : CanFrame) : m.KeepsObjects (m.frameSent p f) :=
  (afterAttempt_keeps ..).trans (.setCanPort ..)

theorem canPort_frameSent (m : Mod) (p : Nat) (f : CanFrame) : (m.frameSent p f).canPort p =
    { m.canPort p with offers := [], offAt := none, tec := (m.canPort p).tec - 1, frame := some f } := by
  refine (canPort_setCanPort ..).trans ?_
  rw [canPort_afterAttempt]

theorem attemptEnds_tec (m : Mod) (p : Nat) : ((m.attemptEnds p).canPort p).tec = (m.canPort p).tec :=
  (congrArg CanPortSt.tec (canPort_setCanPort ..)).trans rfl

theorem sent_mo {m : Mod} {p k began : Nat} {f : CanFrame} {waits : Bool} (htransmits : m.transmits p began = true)
    (hattempt : m.attempt p began = (.mo k, f, waits)) :
    m.sent p began = (if waits then (m.frameSent p f).putMo k { (m.frameSent p f).canObj k with
      pend := false, tries := 0, failed := false, held := false } else m.frameSent p f).canBump k 0xE := by
  unfold Mod.sent
  rw [if_neg (by simp [htransmits])]
  simp only [hattempt, attemptEnds_tec]
  rfl

theorem sent_resp {m : Mod} {p began : Nat} {f : CanFrame} (htransmits : m.transmits p began = true)
    (hattempt : m.attempt p began = (.resp, f, true)) :
    m.sent p began = (m.frameSent p f).setCanPort p
      { (m.frameSent p f).canPort p with resp := ((m.frameSent p f).canPort p).resp.drop 1 } := by
  unfold Mod.sent
  rw [if_neg (by simp [htransmits])]
  simp only [hattempt, attemptEnds_tec]
  rfl

theorem sendError_mo {m : Mod} {p k began : Nat} {f : CanFrame} (ack : Bool) (htransmits : m.transmits p began = true)
    (hattempt : m.attempt p began = (.mo k, f, true)) :
    m.sendError p false ack began = (m.afterAttempt p (m.tecAfter p ack)).moError p k (decide (255 < m.tecAfter p ack)) := by
  unfold Mod.sendError
  rw [if_neg (by simp [htransmits])]
  simp only [hattempt]
  rfl

theorem sendError_gone {m : Mod} {p k began : Nat} {f : CanFrame} (ack : Bool) (htransmits : m.transmits p began = true)
    (hattempt : m.attempt p began = (.mo k, f, false)) :
    ∃ c : Bool, m.sendError p false ack began = if c = true then (m.afterAttempt p (m.tecAfter p ack)).busOff p 0xFFFFFFFF
      else m.afterAttempt p (m.tecAfter p ack) := by
  unfold Mod.sendError
  rw [if_neg (by simp [htransmits])]
  simp only [hattempt]
  refine ⟨decide (decide (255 < m.tecAfter p ack) = true ∧ (m.afterAttempt p (m.tecAfter p ack)).portState p ≠ 0), ?_⟩
  simp only [decide_eq_true_eq]
  rfl

theorem sendError_resp {m : Mod} {p began : Nat} {f : CanFrame} (ack : Bool) (htransmits : m.transmits p began = true)
    (hattempt : m.attempt p began = (.resp, f, true)) :
    m.sendError p false ack began = (m.afterAttempt p (m.tecAfter p ack)).respError p (decide (255 < m.tecAfter p ack)) := by
  unfold Mod.sendError
  rw [if_neg (by simp [htransmits])]
  simp only [hattempt]
  rfl

theorem busOff_reports (m : Mod) (p mo : Nat) : m.Reports (m.busOff p mo) :=
  ((setRo_reports ..).trans (bump_reports ..)).trans (logGal_reports ..)

theorem portState_busOff (m : Mod) (p mo : Nat) : (m.busOff p mo).portState p = 4 :=
  (rov_logGal _ _ _ _ _ _ (by simp only [okey]; omega)).trans
    ((rov_bumpBy_ne _ _ _ _ _ _ (by simp only [okey]; omega)).trans (rov_setRo ..))

theorem moError_off (m : Mod) (p k : Nat) : (m.moError p k true).portState p = 4 ∧
    (m.moError p k true).canObj k = { m.canObj k with held := true } :=
  ⟨portState_busOff .., ((busOff_reports ..).canObj k).trans (canObj_putMo ..)⟩

theorem moError_on (m : Mod) (p k : Nat) : (m.moError p k false).canObj k =
    if (m.canObj k).tries ≤ 1 then { m.canObj k with pend := false, tries := 0, failed := true }
    else { m.canObj k with tries := (m.canObj k).tries - 1 } := by
  unfold Mod.moError
  dsimp only []
  rw [if_neg (by simp)]
  split
  · exact ((bump_reports ..).canObj k).trans (canObj_putMo ..)
  · exact canObj_putMo ..

theorem moError_keeps (m : Mod) (p k : Nat) (off : Bool) :
    (m.moError p k off).canPort p = m.canPort p ∧ (m.moError p k off).objs = m.objs := by
  unfold Mod.moError
  extract_lets s
  split
  · exact ⟨((busOff_reports ..).canPort p).trans (canPort_putMo ..), (busOff_reports ..).objs.trans (objs_putMo ..)⟩
  · split
    · exact ⟨((bump_reports ..).canPort p).trans (canPort_putMo ..), (bump_reports ..).objs.trans (objs_putMo ..)⟩
    · exact ⟨canPort_putMo .., objs_putMo ..⟩

theorem respError_eq {m : Mod} {p : Nat} {r : CanResp} {l : List CanResp} (off : Bool) (h : (m.canPort p).resp = r :: l) :
    m.KeepsObjects (m.respError p off) ∧ (m.respError p off).canPort p = { m.canPort p with
      resp := if off = true then { r with held := true } :: l else if r.tries ≤ 1 then l
        else { r with tries := r.tries - 1 } :: l } := by
  unfold Mod.respError
  simp only [h]
  split
  · exact ⟨(Mod.KeepsObjects.setCanPort ..).trans (.reports (busOff_reports ..)),
      ((busOff_reports ..).canPort p).trans (canPort_setCanPort ..)⟩
  · split
    · exact ⟨(Mod.KeepsObjects.setCanPort ..).trans (.reports (bump_reports ..)),
        ((bump_reports ..).canPort p).trans (canPort_setCanPort ..)⟩
    · exact ⟨.setCanPort .., canPort_setCanPort ..⟩

theorem periodicSend_due {m : Mod} {k : Nat} (hperiod : m.canCfg k 0xA ≠ 0) (hphase : m.phaseTread % m.canCfg k 0xA = 0)
    (hsent : (m.canObj k).sentAt ≠ some m.tread) (hmode : m.canCfg k 1 = 1) :
    m.periodicSend k = (m.setCanObj k { m.canObj k with sentAt := some m.tread }).sendMo k :=
  if_neg (by simp [hperiod, hphase, hsent, hmode])

/-- What a message object's frame that has gone out leaves (R364, R367). -/
theorem sent_mo_spec {m : Mod} {p k began : Nat} {f : CanFrame} {waits : Bool} (htransmits : m.transmits p began = true)
    (hattempt : m.attempt p began = (.mo k, f, waits)) :
    (m.sent p began).canObj k = (if waits = true then { m.canObj k with pend := false, tries := 0, failed := false, held := false }
      else m.canObj k) ∧
    (m.sent p began).canPort p =
      { m.canPort p with offers := [], offAt := none, tec := (m.canPort p).tec - 1, frame := some f } ∧
    (m.sent p began).objs = m.objs := by
  have hkeeps := frameSent_keeps m p f
  rw [sent_mo htransmits hattempt, hkeeps.canObj k]
  generalize hn : (if waits then (m.frameSent p f).putMo k { m.canObj k with
    pend := false, tries := 0, failed := false, held := false } else m.frameSent p f) = n
  have hrep : n.Reports (n.canBump k 0xE) := bump_reports ..
  rw [hrep.canObj k, hrep.canPort p, hrep.objs, ← canPort_frameSent, ← hn]
  split
  · exact ⟨canObj_putMo .., canPort_putMo .., (objs_putMo ..).trans hkeeps.objs⟩
  · exact ⟨hkeeps.canObj k, rfl, hkeeps.objs⟩

theorem sent_resp_spec {m : Mod} {p began : Nat} {f : CanFrame} {r : CanResp} {l : List CanResp}
    (htransmits : m.transmits p began = true) (hattempt : m.attempt p began = (.resp, f, true))
    (hresp : (m.canPort p).resp = r :: l) :
    (m.sent p began).canPort p =
      { m.canPort p with offers := [], offAt := none, tec := (m.canPort p).tec - 1, frame := some f, resp := l } ∧
    (m.sent p began).canObjs = m.canObjs ∧ (m.sent p began).objs = m.objs := by
  have hkeeps := (frameSent_keeps m p f).trans (.setCanPort (m.frameSent p f) p
    { (m.frameSent p f).canPort p with resp := ((m.frameSent p f).canPort p).resp.drop 1 })
  rw [sent_resp htransmits hattempt]
  refine ⟨(canPort_setCanPort ..).trans ?_, hkeeps.canObjs, hkeeps.objs⟩
  rw [canPort_frameSent, hresp]
  rfl

/-- What an error in an attempt of a message object leaves (R367 to R369). -/
theorem sendError_mo_spec {m : Mod} {p k began : Nat} {f : CanFrame} {waits : Bool} (ack : Bool)
    (htransmits : m.transmits p began = true) (hattempt : m.attempt p began = (.mo k, f, waits)) :
    ((m.sendError p false ack began).canPort p).tec = m.tecAfter p ack ∧
    (waits = true → 255 < m.tecAfter p ack → (m.sendError p false ack began).portState p = 4 ∧
      (m.sendError p false ack began).canObj k = { m.canObj k with held := true }) ∧
    (waits = true → m.tecAfter p ack ≤ 255 → (m.sendError p false ack began).canObj k =
      if (m.canObj k).tries ≤ 1 then { m.canObj k with pend := false, tries := 0, failed := true }
      else { m.canObj k with tries := (m.canObj k).tries - 1 }) ∧
    (waits = false → (m.sendError p false ack began).canObj k = m.canObj k) ∧
    (m.sendError p false ack began).objs = m.objs := by
  have hkeeps := afterAttempt_keeps m p (m.tecAfter p ack)
  have hport := congrArg CanPortSt.tec (canPort_afterAttempt m p (m.tecAfter p ack))
  cases waits with
  | true =>
    rw [sendError_mo ack htransmits hattempt]
    obtain ⟨hsame, hobjs⟩ := moError_keeps (m.afterAttempt p (m.tecAfter p ack)) p k (decide (255 < m.tecAfter p ack))
    refine ⟨(congrArg CanPortSt.tec hsame).trans hport, fun _ hoff => ?_, fun _ hon => ?_, nofun, hobjs.trans hkeeps.objs⟩
    · rw [decide_eq_true hoff, ← hkeeps.canObj k]
      exact moError_off ..
    · rw [decide_eq_false (by omega), ← hkeeps.canObj k]
      exact moError_on ..
  | false =>
    obtain ⟨c, heq⟩ := sendError_gone ack htransmits hattempt
    have hrep : (m.afterAttempt p (m.tecAfter p ack)).Reports (m.sendError p false ack began) := by
      rw [heq]
      exact iteInduction (fun _ => busOff_reports ..) (fun _ => .refl _)
    exact ⟨(congrArg CanPortSt.tec (hrep.canPort p)).trans hport, nofun, nofun,
      fun _ => (hrep.canObj k).trans (hkeeps.canObj k), hrep.objs.trans hkeeps.objs⟩

theorem sendError_resp_spec {m : Mod} {p began : Nat} {f : CanFrame} {r : CanResp} {l : List CanResp} (ack : Bool)
    (htransmits : m.transmits p began = true) (hattempt : m.attempt p began = (.resp, f, true))
    (hresp : (m.canPort p).resp = r :: l) :
    ((m.sendError p false ack began).canPort p).tec = m.tecAfter p ack ∧
    ((m.sendError p false ack began).canPort p).resp = (if 255 < m.tecAfter p ack then { r with held := true } :: l
      else if r.tries ≤ 1 then l else { r with tries := r.tries - 1 } :: l) ∧
    (m.sendError p false ack began).canObjs = m.canObjs ∧ (m.sendError p false ack began).objs = m.objs := by
  have hport := canPort_afterAttempt m p (m.tecAfter p ack)
  obtain ⟨hkeeps, herror⟩ := respError_eq (m := m.afterAttempt p (m.tecAfter p ack)) (p := p) (r := r) (l := l)
    (decide (255 < m.tecAfter p ack)) ((congrArg CanPortSt.resp hport).trans hresp)
  have hall := (afterAttempt_keeps m p (m.tecAfter p ack)).trans hkeeps
  rw [sendError_resp ack htransmits hattempt, herror, hport]
  refine ⟨rfl, ?_, hall.canObjs, hall.objs⟩
  simp only [decide_eq_true_eq]

/-- Settles O55: a periodic object that is due, what an attempt sends, and how it ends. -/
theorem canSends : Obligations.CanSends := by
  unfold Obligations.CanSends
  intro s p k hlife
  have hsent : ∀ began, exec (.transmissionComplete p began) s = .next (s.withMod (s.m.sent p began)) := fun began =>
    exec_inService_eq (·.sent p began) rfl hlife rfl
  have herror : ∀ ack began, exec (.transmissionError p false ack began) s =
      .next (s.withMod (s.m.sendError p false ack began)) := fun ack began =>
    exec_inService_eq (·.sendError p false ack began) rfl hlife rfl
  refine ⟨fun hp hk hperiod hphase hfresh hmode => ?_, attempt_mo, fun r l hoffer hresp => attempt_resp hoffer hresp,
    fun ack began => ?_, fun f waits began htransmits hattempt => ⟨?_, fun ack => ?_⟩,
    fun f r l began htransmits hattempt hresp => ⟨?_, fun ack => ?_⟩⟩
  · exact exec_inService_eq (fun m => if p < 2 ∧ k < 128 then m.periodicSend (k + 128 * p) else m) rfl hlife
      ((if_pos ⟨hp, hk⟩).trans (periodicSend_due hperiod hphase hfresh hmode))
  · exact (exec_inService_eq (·.sendError p true ack began) rfl hlife (if_pos (.inr rfl))).trans (next_same rfl)
  · obtain ⟨hobj, hport, hobjs⟩ := sent_mo_spec htransmits hattempt
    refine ⟨_, hsent began, ?_⟩
    rw [State.withMod_m, hport]
    exact ⟨hobj, rfl, rfl, rfl, hobjs⟩
  · refine ⟨_, herror ack began, ?_⟩
    rw [State.withMod_m]
    exact sendError_mo_spec ack htransmits hattempt
  · obtain ⟨hport, hcan, hobjs⟩ := sent_resp_spec htransmits hattempt hresp
    refine ⟨_, hsent began, ?_⟩
    rw [State.withMod_m, hport]
    exact ⟨rfl, rfl, rfl, hcan, hobjs⟩
  · refine ⟨_, herror ack began, ?_⟩
    rw [State.withMod_m]
    exact sendError_resp_spec ack htransmits hattempt hresp

end Sys2Proof.Machine
end

section
/-! PROOFS. The access service over CAN and the queue window (O56, O60). -/

namespace Sys2Proof.Machine

/-! ### The access service (R372 to R374) -/

/-- The entry that a request frame's bytes give (R374). -/
def requestEntry (l : List Nat) : Entry :=
  { idx := l.getD 2 0 + 256 * l.getD 3 0, sub := l.getD 4 0, len := l.getD 5 0, val := ofLe ((l.drop 8).take (l.getD 5 0)) }

/-- The transaction of a request frame, number `seq` of association `a` (R374). -/
def requestTxn (a seq : Nat) (l : List Nat) : Txn :=
  { assoc := a, seq := seq, tag := l.getD 1 0, write := tb (l.getD 0 0) 0, named := none, early := false,
    journalled := false, entries := [requestEntry l] }

/-- The module that has heard a request: its errors go down, the request has its port's next number (R357, R374). -/
def Mod.requested (m : Mod) (p : Nat) : Mod :=
  let n := m.setErrors p (m.canPort p).tec (goodRec (m.canPort p).rec_)
  n.setCanPort p { n.canPort p with issue := (m.canPort p).issue + 1 }

/-- How a request is answered (R374). -/
def Mod.answerRequest (m : Mod) (x : Txn) (l : List Nat) (off : Offset) : Mod :=
  if m.full x.assoc then m.refuse x stOverload 0xFFFF
  else if !requestOk l then m.refuse x stType 0xFFFF
  else if exists_ (m.profOf x.assoc) (requestEntry l).idx (requestEntry l).sub = 0 ∧
    !serviceReaches (requestEntry l).idx (requestEntry l).sub then m.refuse x 0x10 0
  else m.arrive x true true off

theorem accessRequest_heard {m : Mod} {p : Nat} {f : CanFrame} {off : Offset} (hserving : m.serving = true)
    (hhears : m.hears p = true) (hremote : f.remote = false) (hrequest : m.isRequest p f = true)
    (hassoc : (m.canPort p).assoc ≠ 0) :
    m.accessRequest p f off = (m.requested p).answerRequest
      (requestTxn (m.canPort p).assoc ((m.canPort p).issue + 1) (f.data.take 64)) (f.data.take 64) off :=
  if_neg (by simp [hserving, hhears, hremote, hrequest, hassoc])

section
variable {m : Mod} {x : Txn} {l : List Nat} {off : Offset}

theorem answerRequest_full (hfull : m.full x.assoc = true) : m.answerRequest x l off = m.refuse x stOverload 0xFFFF :=
  if_pos hfull

theorem answerRequest_badLayout (hroom : m.full x.assoc = false) (hlayout : requestOk l = false) :
    m.answerRequest x l off = m.refuse x stType 0xFFFF :=
  (if_neg (by simp [hroom])).trans (if_pos (by simp [hlayout]))

theorem answerRequest_unreached (hroom : m.full x.assoc = false) (hlayout : requestOk l = true)
    (hnone : exists_ (m.profOf x.assoc) (requestEntry l).idx (requestEntry l).sub = 0)
    (hreach : serviceReaches (requestEntry l).idx (requestEntry l).sub = false) :
    m.answerRequest x l off = m.refuse x 0x10 0 :=
  (if_neg (by simp [hroom])).trans ((if_neg (by simp [hlayout])).trans (if_pos ⟨hnone, by simp [hreach]⟩))

theorem answerRequest_taken (hroom : m.full x.assoc = false) (hlayout : requestOk l = true)
    (h : exists_ (m.profOf x.assoc) (requestEntry l).idx (requestEntry l).sub ≠ 0 ∨
      serviceReaches (requestEntry l).idx (requestEntry l).sub = true) :
    m.answerRequest x l off = m.arrive x true true off := by
  have hnot : ¬ (exists_ (m.profOf x.assoc) (requestEntry l).idx (requestEntry l).sub = 0 ∧
      (!serviceReaches (requestEntry l).idx (requestEntry l).sub) = true) := fun ⟨hnone, hreach⟩ =>
    h.elim (fun hsome => hsome hnone) (fun hreached => by simp [hreached] at hreach)
  exact (if_neg (by simp [hroom])).trans ((if_neg (by simp [hlayout])).trans (if_neg hnot))

end

/-- Settles O56: a request's four answers, and a read of the queue window. -/
theorem canAccessRequests : Obligations.CanAccessRequests := by
  unfold Obligations.CanAccessRequests
  intro s p h hlife
  refine ⟨fun f off hhears hremote hrequest hassoc => ?_, fun hp => ?_⟩
  · intro a l e x m1 m
    have hexec : ∀ {n : Mod}, m.answerRequest x l off = n → exec (.accessRequest p f off) s = .next (s.withMod n) :=
      fun hn => exec_inService_eq (·.accessRequest p f off) rfl hlife
        ((accessRequest_heard (by simp [Mod.serving, hlife]) hhears hremote hrequest hassoc).trans hn)
    exact ⟨fun hfull => hexec (answerRequest_full hfull),
      fun hroom hlayout => hexec (answerRequest_badLayout hroom hlayout),
      fun hroom hlayout hnone hreach => hexec (answerRequest_unreached hroom hlayout hnone hreach),
      fun hroom hlayout hreached => hexec (answerRequest_taken hroom hlayout hreached)⟩
  · exact exec_inService_eq (fun m => if p < 2 then m.queueRead h p else m) rfl hlife (if_pos hp)

/-! ### A read of the queue window in its turn (R42, R371, R372) -/

/-- A read of a message. -/
def readTxnOf (h : Hdr) (l : List Entry) : Txn := { txnOf h l with write := false, early := false, journalled := false }

theorem reqOf_read {h : Hdr} {l : List Entry} (hearly : h.early = false) (hjournalled : h.journalled = false)
    (hsome : l.isEmpty = false) (hcount : l.length ≤ 256) :
    reqOf false h.named h.early h.journalled l = .txn false h.named false false l := by
  unfold reqOf
  rw [hearly, hjournalled, if_neg (by simp [hsome]), if_neg (by simp; omega)]

theorem arrive_readTxnOf {m : Mod} {h : Hdr} {l : List Entry} {off : Offset} (hearly : h.early = false)
    (hjournalled : h.journalled = false) (hfeat : m.featureBad (txnOf h l) = false) :
    m.arrive (readTxnOf h l) true true off = m.arriveRead (readTxnOf h l) off := by
  have hbad : m.featureBad (readTxnOf h l) = false := by
    rw [← hfeat]
    simp only [Mod.featureBad, readTxnOf, txnOf, hearly, hjournalled]
  unfold Mod.arrive
  rw [if_neg (by simp), if_neg (by simp [hbad])]
  exact if_neg (by simp [readTxnOf])

/-- A read taken in its turn arrives, and then what was held behind it is taken (R320). -/
theorem partner_read {m : Mod} {h : Hdr} {p : Partner} {l : List Entry} (hearly : h.early = false)
    (hjournalled : h.journalled = false) (hin : m.inTurn h p l = true) :
    m.partner h false l =
      ((m.turned h.assoc p h.seq).arriveRead (readTxnOf h l) h.off).drainHeld h.assoc h.off 1024 := by
  simp only [Mod.inTurn, Bool.and_eq_true, decide_eq_true_eq, Bool.not_eq_true', Bool.or_eq_true] at hin
  obtain ⟨⟨⟨⟨⟨⟨⟨⟨⟨hserving, hlook⟩, hstate, hcls⟩, -⟩, hnext⟩, hroom⟩, hsome⟩, hcount⟩, -⟩, hfeat⟩ := hin
  have hexpect : (if p.resync = true then h.seq else p.expect) = h.seq := by
    rcases hnext with hnext | hnext <;> simp [hnext]
  have hgap : (h.seq + 2 ^ 32 - h.seq) % 2 ^ 32 = 0 := by rw [Nat.add_sub_cancel_left, Nat.mod_self]
  unfold Mod.partner
  rw [if_neg (by simp [hserving]), hlook]
  dsimp only []
  rw [if_neg (by omega), if_neg (by simp [hstate, hcls])]
  change (m.cleared h.assoc p).sequence h.assoc _ _ _ = _
  unfold Mod.sequence
  rw [cleared_inHall m h.assoc p hstate]
  dsimp only []
  rw [hexpect, if_pos hgap, hroom, reqOf_read hearly hjournalled hsome hcount, if_neg (by simp),
    ← arrive_readTxnOf hearly hjournalled hfeat]
  rfl

/-- The module that waits to serve one more read. -/
def Mod.withRead (m : Mod) (r : ReadSt) : Mod := { m with arrivals := m.arrivals + 1, reads := m.reads ++ [r] }

theorem arriveRead_due {m : Mod} {x : Txn} {off : Offset} {t : Tread} (hread : m.readFail x.assoc 0 x.entries = none)
    (hdue : m.dueOfRead x.assoc x.named off = (0, t)) :
    m.arriveRead x off = m.withRead
      { assoc := x.assoc, seq := x.seq, tag := x.tag, due := t, entries := x.entries, named := x.named.isSome,
        arrived := m.arrivals } := by
  unfold Mod.arriveRead
  simp only [hread, hdue]
  rfl

section
variable {m : Mod} {r : ReadSt} {a seq : Nat} (hfresh : ∀ x ∈ m.reads, ¬(x.assoc = a ∧ x.seq = seq))
include hfresh

/-- The last read of the list is the one of its message, whatever the module has done otherwise. -/
theorem readOf_last {n : Mod} (hreads : n.reads = m.reads ++ [r]) (ha : r.assoc = a) (hseq : r.seq = seq) :
    n.readOf a seq = some r := by
  unfold Mod.readOf
  rw [hreads, List.find?_append, List.find?_eq_none.2 (by simpa using hfresh)]
  simp [ha, hseq]

theorem ne_of_fresh {x : ReadSt} (hx : x ∈ m.reads) (ha : r.assoc = a) (hseq : r.seq = seq) : x ≠ r := fun h =>
  hfresh x hx (h ▸ ⟨ha, hseq⟩)

end

/-- The value of a read of a queue window is the one that the claim gives. -/
theorem takeValues_window {m : Mod} {p a : Nat} (hp : p < 2) :
    m.takeValues a [{ idx := 0x3780 + p, sub := 0x10 }] = ((m.claim p a).1, [(88, (m.claim p a).2)]) := by
  simp [Mod.takeValues, show 0x3780 + p < 0x3782 by omega]

theorem readBarred_window (m : Mod) (a : Nat) {p : Nat} (hp : p < 2) : m.readBarred a (0x3780 + p) 0x10 = false := by
  simp only [Mod.readBarred, Bool.and_eq_false_iff, decide_eq_false_iff_not]
  omega

theorem served_window {p : Nat} (hp : p < 2) : served (0x3780 + p) 0x10 = false := by
  simp only [served, Bool.or_eq_false_iff, Bool.and_eq_false_iff, decide_eq_false_iff_not]
  omega

theorem reads_claim (m : Mod) (p a : Nat) : (m.claim p a).1.reads = m.reads := by
  obtain ⟨_, h⟩ := claim_claims m p a
  rw [h]

/-- A read of a queue window as it stands once its service has begun, the value `v` taken by the module `n`. -/
def ReadSt.taken (r : ReadSt) (m n : Mod) (v : Nat) : ReadSt :=
  { r with begun := true, due := m.tread, vals := [(88, v)], claimed := n.claimedSince m r.assoc }

section
variable {m : Mod} {r : ReadSt} {p : Nat} (hp : p < 2) (hentries : r.entries = [{ idx := 0x3780 + p, sub := 0x10 }])
include hp hentries

theorem beginRead_window : m.beginRead r = { (m.claim p r.assoc).1 with
    reads := m.reads.map fun y => if y = r then r.taken m (m.claim p r.assoc).1 (m.claim p r.assoc).2 else y } := by
  have hvalues := takeValues_window (m := m) (a := r.assoc) hp
  rw [← hentries] at hvalues
  have hlimit : 112 ≤ m.replyLimit r.assoc := by
    unfold Mod.replyLimit
    split <;> omega
  rw [beginRead_good, hvalues, reads_claim]
  · rfl
  · rw [hentries]
    simp [readBarred_window m r.assoc hp]
  · rw [hvalues]
    simp
  · rw [hvalues]
    exact Nat.le_trans (Nat.le_of_eq (by simp [replyBytes])) hlimit

theorem notServed_window (d : Bool) : m.notServed r d = none := by
  unfold Mod.notServed
  rw [hentries]
  simp [served_window hp]

end

theorem readsBefore_withRead {m : Mod} {r : ReadSt} (h : m.readsBefore r = []) : (m.withRead r).readsBefore r = [] := by
  unfold Mod.readsBefore at h ⊢
  split at h
  · next hwindow =>
    have hself : [r].filter (fun x => (m.withRead r).readDue x && x.window && decide (x.arrived < r.arrived)) = [] := by
      simp
    rw [if_pos hwindow]
    exact (List.filter_append ..).trans (by rw [hself, List.append_nil]; exact h)
  · next hwindow => exact if_neg hwindow

/-- A read of a queue window before which no other is due is begun, answered and over (R372). -/
theorem serveNow_window {m : Mod} {r : ReadSt} {p : Nat} (hp : p < 2)
    (hfresh : ∀ x ∈ m.reads, ¬(x.assoc = r.assoc ∧ x.seq = r.seq))
    (hentries : r.entries = [{ idx := 0x3780 + p, sub := 0x10 }]) (hdue : r.due = m.tread) (hbegun : r.begun = false)
    (hfail : r.fail = none) (hfirst : m.readsBefore r = []) :
    (m.withRead r).serveNow r.assoc r.seq =
      (({ ((m.withRead r).claim p r.assoc).1 with reads := m.reads } : Mod).finalReply
        (readGives { r with vals := [(88, ((m.withRead r).claim p r.assoc).2)] } r.assoc r.seq) false).flush := by
  have hof : (m.withRead r).readOf r.assoc r.seq = some r := readOf_last hfresh rfl rfl rfl
  have hservice := readService_due hof hbegun (Nat.le_of_eq hdue) (fun _ => hdue.symm)
  rw [readsBefore_withRead hfirst] at hservice
  unfold Mod.serveNow
  simp only [hof]
  rw [if_pos (by simp [hbegun]; exact hdue), hservice]
  change ((m.withRead r).beginRead r).readServiceEnd r.assoc r.seq true = _
  rw [beginRead_window hp hentries]
  generalize hx : r.taken (m.withRead r) ((m.withRead r).claim p r.assoc).1 ((m.withRead r).claim p r.assoc).2 = x
  have hxa : x.assoc = r.assoc := hx ▸ rfl
  have hxseq : x.seq = r.seq := hx ▸ rfl
  have hold : (m.reads.map fun y => if y = r then x else y) = m.reads :=
    (List.map_congr_left fun y hy => if_neg (ne_of_fresh hfresh hy rfl rfl)).trans (List.map_id _)
  have hmap : ((m.withRead r).reads.map fun y => if y = r then x else y) = m.reads ++ [x] := by
    show (m.reads ++ [r]).map _ = _
    rw [List.map_append, hold, List.map_singleton, if_pos rfl]
  rw [hmap, readServiceEnd_given (r := x) (readOf_last hfresh rfl hxa hxseq) (hx ▸ rfl) (hx ▸ hfail)
    (notServed_window hp (hx ▸ hentries) true)]
  have hfilter : (m.reads ++ [x]).filter (fun y => !decide (y = x)) = m.reads := by
    rw [List.filter_append, List.filter_eq_self.2 fun y hy => by simpa using ne_of_fresh hfresh hy hxa hxseq]
    simp
  unfold Mod.readOver
  rw [hfilter]
  subst hx
  have hgives : readGives (r.taken (m.withRead r) ((m.withRead r).claim p r.assoc).1 ((m.withRead r).claim p r.assoc).2)
      r.assoc r.seq = readGives { r with vals := [(88, ((m.withRead r).claim p r.assoc).2)] } r.assoc r.seq := by
    unfold readGives ReadSt.taken
    simp only [hdue]
    rfl
  rw [hgives]

section
variable {m : Mod} {p a : Nat}

theorem claim_own {e : CanRx} (h : ((m.canPort p).queue.find? fun e => decide (e.owner = a)) = some e) :
    m.claim p a = (m, e.bytes) := by
  unfold Mod.claim
  simp only [h]

theorem claim_oldest {e : CanRx} (hnone : ((m.canPort p).queue.find? fun e => decide (e.owner = a)) = none)
    (h : ((m.canPort p).queue.find? fun e => decide (e.owner = 0)) = some e) :
    m.claim p a = (m.setCanPort p { m.canPort p with
      queue := (m.canPort p).queue.map fun x => if x.seq = e.seq then { x with owner := a } else x }, e.bytes) := by
  unfold Mod.claim
  simp only [hnone, h]

theorem claim_none (hnone : ((m.canPort p).queue.find? fun e => decide (e.owner = a)) = none)
    (h : ((m.canPort p).queue.find? fun e => decide (e.owner = 0)) = none) : m.claim p a = (m, 0) := by
  unfold Mod.claim
  simp only [hnone, h]

end

theorem turned_reads (m : Mod) (a : Nat) (p : Partner) (n : Nat) : (m.turned a p n).reads = m.reads ∧
    (m.turned a p n).arrivals = m.arrivals ∧ (m.turned a p n).canPorts = m.canPorts := by
  obtain ⟨q, h | h⟩ := turned_cases m a p n <;> rw [h] <;> exact ⟨rfl, rfl, rfl⟩

/-- Settles O60: the partner's own entry, the oldest that no one owns, and an empty window. -/
theorem queueWindowIsRead : Obligations.QueueWindowIsRead := by
  unfold Obligations.QueueWindowIsRead
  intro s p h who hlife hp hearly hjournalled l u q r gives hin hfresh hread hdue hfirst
  obtain ⟨hreads, harrivals, hports⟩ := turned_reads s.m h.assoc who h.seq
  obtain ⟨-, -, -, htread⟩ := turned_frame s.m h.assoc who h.seq
  have hr : u.arriveRead (readTxnOf h l) h.off = u.withRead r := by
    refine (arriveRead_due (x := readTxnOf h l) hread hdue).trans ?_
    rw [harrivals]
    rfl
  have hpartner : s.m.partner h false l = u.withRead r := by
    rw [partner_read hearly hjournalled hin, hr]
    exact drainHeld_of_holdsNone _ _ _ _ (holdsNone_of_inTurn s.m h who l hin)
  have hserved := serveNow_window (m := u) (r := r) hp (hreads ▸ hfresh) rfl htread.symm rfl rfl hfirst
  have hexec : exec (.queueWindowRead h p) s = .next (s.withMod
      ((({ ((u.withRead r).claim p h.assoc).1 with reads := u.reads } : Mod).finalReply
        (readGives { r with vals := [(88, ((u.withRead r).claim p h.assoc).2)] } h.assoc h.seq) false).flush)) :=
    exec_inService_eq (fun m => if p < 2 then m.queueRead h p else m) rfl hlife
      ((if_pos hp).trans ((congrArg (·.serveNow h.assoc h.seq) hpartner).trans hserved))
  have hqueue : ((u.withRead r).canPort p) = s.m.canPort p := congrArg (fun x : SMap CanPortSt => lookD x p {}) hports
  have hgives : ∀ (n k : Mod) (v : Nat), (u.withRead r).claim p h.assoc = (n, v) →
      ({ n with reads := u.reads } : Mod) = { k with arrivals := u.arrivals + 1 } → gives k v := fun n k v hclaim hn => by
    rw [hclaim] at hexec
    dsimp only at hexec
    rw [hn, show u.arrivals = s.m.arrivals from harrivals] at hexec
    exact hexec
  refine ⟨fun e he => ?_, fun hnone => ⟨fun e he => ?_, fun he => ?_⟩⟩
  · exact hgives _ _ _ (claim_own (by rw [hqueue]; exact he)) rfl
  · refine hgives _ _ _ (claim_oldest (by rw [hqueue]; exact hnone) (by rw [hqueue]; exact he)) ?_
    rw [hqueue]
    rfl
  · exact hgives _ _ _ (claim_none (by rw [hqueue]; exact hnone) (by rw [hqueue]; exact he)) rfl

end Sys2Proof.Machine
end

section
/-! PROOFS. The gallery (O57). -/

namespace Sys2Proof.Machine

/-! ### The gallery (R376 to R384) -/

/-- What a grant that ends leaves as it is: the gallery with what reports it, the field side and the tracks. -/
structure Mod.KeepsGallery (m n : Mod) : Prop where
  gal : n.gal = m.gal
  field : n.field = m.field
  tracks : n.tracks = m.tracks
  reports : ∀ sub, n.rov 0x1500 sub = m.rov 0x1500 sub

namespace Mod.KeepsGallery
variable {m n k : Mod}

theorem refl (m : Mod) : m.KeepsGallery m := ⟨rfl, rfl, rfl, fun _ => rfl⟩

theorem trans (h : m.KeepsGallery n) (g : n.KeepsGallery k) : m.KeepsGallery k :=
  ⟨g.gal.trans h.gal, g.field.trans h.field, g.tracks.trans h.tracks, fun sub => (g.reports sub).trans (h.reports sub)⟩

theorem setRo (m : Mod) (idx sub v : Nat) (h : 0x1500 < idx) : m.KeepsGallery (m.setRo idx sub v) :=
  ⟨rfl, rfl, rfl, fun _ => rov_setRo_ne _ _ _ _ _ _ (by simp only [okey]; omega)⟩

theorem firmware (m : Mod) (f : FirmwareSt) : m.KeepsGallery { m with firmware := f } := ⟨rfl, rfl, rfl, fun _ => rfl⟩

theorem orphaned (m : Mod) (o : Nat) : m.KeepsGallery { m with orphans := o } := ⟨rfl, rfl, rfl, fun _ => rfl⟩

end Mod.KeepsGallery

theorem fillSnaps_snap {m : Mod} {d : GalDue} (h : d ∈ m.fillSnaps.gal.queue) : d.snap.isSome = true := by
  obtain ⟨x, -, rfl⟩ := List.mem_map.1 h
  split
  · rfl
  · next hx => exact Option.isSome_iff_ne_none.2 (by simpa using hx)

/-- The module without the first of the records that wait. -/
def Mod.recordTaken (m : Mod) (l : List GalDue) : Mod := { m with gal := { m.gal with queue := l } }

section
variable {m : Mod} {d : GalDue} {l : List GalDue} (hqueue : m.gal.queue = d :: l) (hin : m.blockIn 17 = false)
include hqueue hin

theorem galleryRecord_lost (hfull : m.rov 0x1500 5 = 1) : m.galleryRecord = (m.recordTaken l).bump 0x1500 7 := by
  unfold Mod.galleryRecord
  rw [if_neg (by simp [hfull, hin])]
  simp only [hqueue]
  exact if_pos hfull

theorem galleryRecord_suppressed (hopen : m.rov 0x1500 5 = 0)
    (hrate : m.galSet d.code 2 ≤ (m.rateWindow d.code (d.tread / 100)).2) :
    m.galleryRecord = (m.recordTaken l).suppress d.code := by
  unfold Mod.galleryRecord
  rw [if_neg (by simp [hopen, hin])]
  simp only [hqueue]
  exact (if_neg (by simp [hopen])).trans (if_pos (decide_eq_true hrate))

theorem galleryRecord_waits (hopen : m.rov 0x1500 5 = 0)
    (hrate : (m.rateWindow d.code (d.tread / 100)).2 < m.galSet d.code 2)
    (hfull : 64 ≤ (if m.gal.flight = m.tread / 100 then m.gal.wrote else 0)) : m.galleryRecord = m := by
  unfold Mod.galleryRecord
  rw [if_neg (by simp [hopen, hin])]
  simp only [hqueue]
  exact (if_neg (by simp [hopen])).trans ((if_neg (by simpa [Mod.rateFull] using hrate)).trans (if_pos hfull))

theorem galleryRecord_written (hopen : m.rov 0x1500 5 = 0)
    (hrate : (m.rateWindow d.code (d.tread / 100)).2 < m.galSet d.code 2)
    (hroom : (if m.gal.flight = m.tread / 100 then m.gal.wrote else 0) < 64) :
    m.galleryRecord = ({ m with gal := { m.gal with
      queue := l, flight := m.tread / 100, wrote := (if m.gal.flight = m.tread / 100 then m.gal.wrote else 0) + 1 } } :
        Mod).writeCounted d := by
  unfold Mod.galleryRecord
  rw [if_neg (by simp [hopen, hin])]
  simp only [hqueue]
  exact (if_neg (by simp [hopen])).trans ((if_neg (by simpa [Mod.rateFull] using hrate)).trans (if_neg (Nat.not_le.2 hroom)))

end

theorem galCode_setGalCode (m : Mod) (c : Nat) (g : GalCode) : (m.setGalCode c g).galCode c = g := lookD_put ..

theorem suppress_ro (m : Mod) (c : Nat) : (m.suppress c).ro = m.ro := by
  unfold Mod.suppress
  rfl

theorem galCode_suppress (m : Mod) (c : Nat) : (m.suppress c).galCode c = { m.galCode c with
    pending := satAdd 0xFFFFFFFF (m.galCode c).pending 1, total := ((m.galCode c).total + 1) % 2 ^ 32 } :=
  galCode_setGalCode ..

/-- The module with a record written at the next place, before a full gallery is marked (R376). -/
def Mod.recordPut (m : Mod) (d : GalDue) : Mod :=
  let n : Mod := { m with gal := { m.gal with
    recs := put m.gal.recs (m.rov 0x1500 4) (ofWords (d.words64 (m.rov 0x1500 6) (m.galCode d.code).pending)) } }
  ((n.setRo 0x1500 6 (m.rov 0x1500 6 + 1)).setRo 0x1500 4 (m.rov 0x1500 4 + 1)).setGalCode d.code
    { m.galCode d.code with pending := 0, written := ((m.galCode d.code).written + 1) % 2 ^ 32 }

theorem writeRecord_eq (m : Mod) (d : GalDue) : m.writeRecord d =
    if 16384 ≤ m.rov 0x1500 4 + 1 then (m.recordPut d).setRo 0x1500 5 1 else m.recordPut d := rfl

theorem recordPut_rov (m : Mod) (d : GalDue) (sub : Nat) : (m.recordPut d).rov 0x1500 sub =
    ((m.setRo 0x1500 6 (m.rov 0x1500 6 + 1)).setRo 0x1500 4 (m.rov 0x1500 4 + 1)).rov 0x1500 sub := rfl

/-- What a record that is written leaves (R376, R381). -/
structure Mod.Writes (m n : Mod) (d : GalDue) : Prop where
  queue : n.gal.queue = m.gal.queue
  recs : n.gal.recs = put m.gal.recs (m.rov 0x1500 4) (ofWords (d.words64 (m.rov 0x1500 6) (m.galCode d.code).pending))
  held : n.rov 0x1500 4 = m.rov 0x1500 4 + 1
  seq : n.rov 0x1500 6 = m.rov 0x1500 6 + 1
  full : n.rov 0x1500 5 = if 16384 ≤ m.rov 0x1500 4 + 1 then 1 else m.rov 0x1500 5
  code : n.galCode d.code =
    { m.galCode d.code with pending := 0, written := ((m.galCode d.code).written + 1) % 2 ^ 32 }
  lost : n.rov 0x1500 7 = m.rov 0x1500 7
  field : n.field = m.field
  tracks : n.tracks = m.tracks

theorem writeRecord_writes (m : Mod) (d : GalDue) : m.Writes (m.writeRecord d) d := by
  have hcode : (m.recordPut d).galCode d.code = { m.galCode d.code with
    pending := 0, written := ((m.galCode d.code).written + 1) % 2 ^ 32 } := galCode_setGalCode ..
  have hheld : (m.recordPut d).rov 0x1500 4 = m.rov 0x1500 4 + 1 := (recordPut_rov m d 4).trans (rov_setRo ..)
  have hseq : (m.recordPut d).rov 0x1500 6 = m.rov 0x1500 6 + 1 :=
    (recordPut_rov m d 6).trans ((rov_setRo_ne _ _ _ _ _ _ (by decide)).trans (rov_setRo ..))
  have hfull : (m.recordPut d).rov 0x1500 5 = m.rov 0x1500 5 :=
    (recordPut_rov m d 5).trans ((rov_setRo_ne _ _ _ _ _ _ (by decide)).trans (rov_setRo_ne _ _ _ _ _ _ (by decide)))
  have hlost : (m.recordPut d).rov 0x1500 7 = m.rov 0x1500 7 :=
    (recordPut_rov m d 7).trans ((rov_setRo_ne _ _ _ _ _ _ (by decide)).trans (rov_setRo_ne _ _ _ _ _ _ (by decide)))
  rw [writeRecord_eq]
  by_cases hroom : 16384 ≤ m.rov 0x1500 4 + 1
  · rw [if_pos hroom]
    exact ⟨rfl, rfl, (rov_setRo_ne _ _ _ _ _ _ (by decide)).trans hheld,
      (rov_setRo_ne _ _ _ _ _ _ (by decide)).trans hseq, (rov_setRo ..).trans (if_pos hroom).symm, hcode,
      (rov_setRo_ne _ _ _ _ _ _ (by decide)).trans hlost, rfl, rfl⟩
  · rw [if_neg hroom]
    exact ⟨rfl, rfl, hheld, hseq, hfull.trans (if_neg hroom).symm, hcode, hlost, rfl, rfl⟩

/-- The module that has counted a record in its code's rate window (R379). -/
def Mod.rateCounted (m : Mod) (d : GalDue) : Mod :=
  m.setGalCode d.code { m.galCode d.code with
    opened := some ((m.rateWindow d.code (d.tread / 100)).1.getD (d.tread / 100)),
    inWindow := (m.rateWindow d.code (d.tread / 100)).2 + 1 }

theorem writeCounted_writes (m : Mod) (d : GalDue) : (m.rateCounted d).Writes (m.writeCounted d) d :=
  writeRecord_writes (m.rateCounted d) d

theorem galCode_rateCounted (m : Mod) (d : GalDue) : (m.rateCounted d).galCode d.code = { m.galCode d.code with
    opened := some ((m.rateWindow d.code (d.tread / 100)).1.getD (d.tread / 100)),
    inWindow := (m.rateWindow d.code (d.tread / 100)).2 + 1 } := galCode_setGalCode ..

/-- A record of the first entry of the queue, with its code's place in the rate window (R376, R379, R381). -/
theorem galleryRecord_spec {m : Mod} {d : GalDue} {l : List GalDue} (hqueue : m.gal.queue = d :: l)
    (hin : m.blockIn 17 = false) (hopen : m.rov 0x1500 5 = 0)
    (hrate : (m.rateWindow d.code (d.tread / 100)).2 < m.galSet d.code 2)
    (hroom : (if m.gal.flight = m.tread / 100 then m.gal.wrote else 0) < 64) :
    m.galleryRecord.gal.queue = l ∧
    m.galleryRecord.gal.recs = put m.gal.recs (m.rov 0x1500 4)
      (ofWords (d.words64 (m.rov 0x1500 6) (m.galCode d.code).pending)) ∧
    m.galleryRecord.rov 0x1500 4 = m.rov 0x1500 4 + 1 ∧ m.galleryRecord.rov 0x1500 6 = m.rov 0x1500 6 + 1 ∧
    m.galleryRecord.rov 0x1500 5 = (if 16384 ≤ m.rov 0x1500 4 + 1 then 1 else 0) ∧
    m.galleryRecord.galCode d.code = { m.galCode d.code with
      pending := 0, written := ((m.galCode d.code).written + 1) % 2 ^ 32,
      opened := some ((m.rateWindow d.code (d.tread / 100)).1.getD (d.tread / 100)),
      inWindow := (m.rateWindow d.code (d.tread / 100)).2 + 1 } := by
  rw [galleryRecord_written hqueue hin hopen hrate hroom]
  generalize hn : ({ m with gal := { m.gal with
    queue := l, flight := m.tread / 100, wrote := (if m.gal.flight = m.tread / 100 then m.gal.wrote else 0) + 1 } } :
      Mod) = n
  have h := writeCounted_writes n d
  have hcode := galCode_rateCounted n d
  have hwritten := h.code
  have hrecs := h.recs
  have hfull := h.full
  rw [hcode] at hwritten hrecs
  subst hn
  exact ⟨h.queue, hrecs, h.held, h.seq, hfull.trans (congrArg (fun x => if 16384 ≤ m.rov 0x1500 4 + 1 then 1 else x) hopen),
    hwritten⟩

/-! #### The end of a clear (R382) -/

theorem emptyShadow_keeps (m : Mod) : m.KeepsGallery m.emptyShadow := by
  have hshadow : m.KeepsGallery (m.setShadow {}) := by
    unfold Mod.setShadow
    split <;> exact ⟨rfl, rfl, rfl, fun _ => rfl⟩
  have hzero := hshadow.trans (.setRo (m.setShadow {}) 0x4020 7 0 (by omega))
  refine (hzero.trans ?_).trans (.setRo _ 0x4021 6 0 (by omega))
  exact ⟨rfl, rfl, rfl, fun _ => rfl⟩

theorem endGrant_keeps (m : Mod) (slot : Nat) : m.KeepsGallery (m.endGrant slot) := by
  unfold Mod.endGrant
  extract_lets g m1 idle firmware m2
  have h1 : m.KeepsGallery m1 := iteInduction (fun _ => emptyShadow_keeps m) (fun _ => .refl m)
  have h2 : m1.KeepsGallery m2 := iteInduction
    (fun _ => (Mod.KeepsGallery.setRo m1 0x1620 6 0 (by omega)).trans (.firmware idle _)) (fun _ => .refl m1)
  have h3 : m2.KeepsGallery (m2.setRo 0x1600 (0x0F + slot) 0) := .setRo m2 0x1600 _ 0 (by omega)
  exact ((h1.trans h2).trans h3).trans (.orphaned (m2.setRo 0x1600 (0x0F + slot) 0) (setBit m2.orphans (slot - 1) false))

theorem freeLost_keeps (m : Mod) : m.KeepsGallery m.freeLost := by
  unfold Mod.freeLost
  refine overAll_keeps .refl .trans m.grants (fun n g => ?_) m
  exact iteInduction (fun _ => .refl n) (fun _ => endGrant_keeps ..)

/-- The gallery empty, before the record of the clear (R382). -/
def Mod.emptied (m : Mod) : Mod :=
  ((((({ m with gal := { m.gal with recs := [] } } : Mod).setRo 0x1500 4 0).setRo 0x1500 5 0).bump 0x1500 0xA).setRo 0x1500 7 0)

theorem galleryClearEnd_eq {m : Mod} (snap : List Nat) (h : m.rov 0x1500 5 = 2) : ∃ d : GalDue,
    m.galleryClearEnd snap = (m.emptied.writeCounted d).freeLost := by
  unfold Mod.galleryClearEnd
  rw [if_neg (by simp [h])]
  exact ⟨_, rfl⟩

theorem galleryClearEnd_spec {m : Mod} (snap : List Nat) (h : m.rov 0x1500 5 = 2) :
    (∃ w, (m.galleryClearEnd snap).gal.recs = [(0, w)]) ∧ (m.galleryClearEnd snap).rov 0x1500 4 = 1 ∧
    (m.galleryClearEnd snap).rov 0x1500 5 = 0 ∧ (m.galleryClearEnd snap).rov 0x1500 7 = 0 ∧
    (m.galleryClearEnd snap).field = m.field ∧ (m.galleryClearEnd snap).tracks = m.tracks := by
  obtain ⟨d, heq⟩ := galleryClearEnd_eq snap h
  have hheld : m.emptied.rov 0x1500 4 = 0 := (rov_setRo_ne _ _ _ _ _ _ (by decide)).trans
    ((rov_bumpBy_ne _ _ _ _ _ _ (by decide)).trans ((rov_setRo_ne _ _ _ _ _ _ (by decide)).trans (rov_setRo ..)))
  have hfull : m.emptied.rov 0x1500 5 = 0 := (rov_setRo_ne _ _ _ _ _ _ (by decide)).trans
    ((rov_bumpBy_ne _ _ _ _ _ _ (by decide)).trans (rov_setRo ..))
  have hlost : m.emptied.rov 0x1500 7 = 0 := rov_setRo ..
  have hrecs : m.emptied.gal.recs = [] := rfl
  have hfield : m.emptied.field = m.field := rfl
  have htracks : m.emptied.tracks = m.tracks := rfl
  generalize m.emptied = n at heq hheld hfull hlost hrecs hfield htracks
  have hw := writeCounted_writes n d
  have hf := freeLost_keeps (n.writeCounted d)
  have hcount : (n.rateCounted d).rov 0x1500 4 = 0 := hheld
  have hwrecs := hw.recs
  have hwheld := hw.held
  have hwfull := hw.full
  rw [hcount] at hwrecs hwheld hwfull
  rw [heq]
  refine ⟨⟨_, (congrArg GalSt.recs hf.gal).trans (hwrecs.trans (congrArg (put · 0 _) hrecs))⟩,
    (hf.reports 4).trans hwheld, (hf.reports 5).trans (hwfull.trans ((if_neg (by omega)).trans hfull)),
    (hf.reports 7).trans (hw.lost.trans hlost), hf.field.trans (hw.field.trans hfield),
    hf.tracks.trans (hw.tracks.trans htracks)⟩

/-- Settles O57: a record that is due, by what becomes of it, and the end of a clear. -/
theorem galleryEvents : Obligations.GalleryEvents := by
  unfold Obligations.GalleryEvents
  intro s hlife
  have hexec : exec .galleryRecord s = .next (s.withMod s.m.fillSnaps.galleryRecord) :=
    exec_inService_eq (·.fillSnaps.galleryRecord) rfl hlife rfl
  refine ⟨fun d l hqueue hin => ⟨fillSnaps_snap (hqueue ▸ List.mem_cons_self ..), fun hfull => ?_, fun hopen hrate => ?_,
    fun hopen hrate hmany => ?_, fun hopen hrate hroom => ?_⟩, fun hclear => ?_⟩
  · have heq := galleryRecord_lost hqueue hin hfull
    refine ⟨_, hexec, ?_⟩
    rw [State.withMod_m, heq]
    exact ⟨rfl, rfl, rov_bumpBy .., rfl⟩
  · have heq := galleryRecord_suppressed hqueue hin hopen hrate
    refine ⟨_, hexec, ?_⟩
    rw [State.withMod_m, heq]
    have hcode := galCode_suppress (s.m.fillSnaps.recordTaken l) d.code
    have hsame : (s.m.fillSnaps.recordTaken l).galCode d.code = s.m.galCode d.code := rfl
    rw [hsame] at hcode
    exact ⟨rfl, rfl, (suppress_ro ..).trans rfl, hcode⟩
  · rw [hexec, galleryRecord_waits hqueue hin hopen hrate hmany]
  · refine ⟨_, hexec, ?_⟩
    rw [State.withMod_m]
    exact galleryRecord_spec hqueue hin hopen hrate hroom
  · obtain ⟨⟨w, hrecs⟩, hheld, hfull, hlost, hfield, htracks⟩ := galleryClearEnd_spec (s.m.snapshot 2) hclear
    refine ⟨_, w, exec_inService_eq (fun m => m.galleryClearEnd (m.snapshot 2)) rfl hlife rfl, ?_⟩
    rw [State.withMod_m]
    exact ⟨hrecs, hheld, hfull, hlost, hfield, htracks⟩

end Sys2Proof.Machine
end
